-- ==== Sys2Proof/Word.lean ====
section
/-! DEFINITION. The word types of the TZ16-A and nothing else: registers are bit vectors (R3, R8). -/
namespace Sys2Proof

/-- One byte of any memory. -/
abbrev Byte := BitVec 8
/-- A 16-bit halfword: a head, or one slot of a line (R117). -/
abbrev Half := BitVec 16
/-- A 64-bit scalar register, CSR or location (R64). -/
abbrev Word := BitVec 64
/-- A 128-bit vector register (R214). -/
abbrev Quad := BitVec 128

end Sys2Proof
end

