-- ==== Sys2Proof/Machine/Bits.lean ====
section
/-! DEFINITION. Bit fields, sign extension, byte order, and the keyed lists that hold every sparse part of the state. -/
namespace Sys2Proof.Machine

/-- Bits [hi:lo] of `v`, unsigned (R8). -/
def bits (v hi lo : Nat) : Nat := (v >>> lo) % 2 ^ (hi + 1 - lo)

/-- Bit `i` of `v`. -/
def bit (v i : Nat) : Bool := v.testBit i

/-- The `n`-bit value `v` read as two's complement (R8). -/
def sx (v n : Nat) : Int :=
  let u := v % 2 ^ n
  if n ≠ 0 ∧ 2 ^ (n - 1) ≤ u then (u : Int) - (2 ^ n : Nat) else u

/-- An exact integer stored to `n` bits: bits [n−1:0] are kept (R8). -/
def wrap (i : Int) (n : Nat) : Nat := (i % ((2 ^ n : Nat) : Int)).toNat

/-- A register from an exact integer (R8). -/
def word (i : Int) : Word := BitVec.ofInt 64 i

/-- `sext(v, n)` as a 64-bit word (R8). -/
def sextW (v n : Nat) : Word := BitVec.ofInt 64 (sx v n)

/-- A field `v` of `n` bits placed at bit `lo`. -/
def fld (v n lo : Nat) : Nat := (v % 2 ^ n) <<< lo

/-- A Bool as a bit. -/
def b01 (b : Bool) : Nat := if b then 1 else 0

/-- The `n` low bytes of `v`, the lowest first (R3). -/
def bytesLE (v : Nat) : Nat → List Byte
  | 0 => []
  | n + 1 => BitVec.ofNat 8 v :: bytesLE (v >>> 8) n

/-- The number whose bytes, lowest first, are the list (R3). -/
def ofBytesLE : List Byte → Nat
  | [] => 0
  | b :: bs => b.toNat + (ofBytesLE bs) <<< 8

/-- The numbers `0 .. n−1` that satisfy `p`, as a mask. -/
def maskOf (n : Nat) (p : Nat → Bool) : Nat :=
  (List.range n).foldl (fun acc i => if p i then acc + 2 ^ i else acc) 0

/-- Number of the largest set bit plus one; 0 for 0. -/
def bitLen (v : Nat) : Nat := if v = 0 then 0 else Nat.log2 v + 1

/-- Number of one bits among the lowest `n`. -/
def popCount (v : Nat) : Nat → Nat
  | 0 => 0
  | n + 1 => popCount v n + b01 (v.testBit n)

/-- The lowest set bit below `n`, counted from `i`; `i + n` when none is set. -/
def lowestFrom (v i : Nat) : Nat → Nat
  | 0 => i
  | n + 1 => if v.testBit i then i else lowestFrom v (i + 1) n

/-- Bits 0 to n−1 of `v` in reverse order. -/
def reverseBits (v n : Nat) : Nat := maskOf n (fun i => v.testBit (n - 1 - i))

/-- A sparse table: a list of keys and values. The first entry of a key is the one that counts. -/
abbrev SMap (α : Type) := List (Nat × α)

namespace SMap
variable {α : Type}

/-- The value at key `k`, or `d` where the table has none. -/
def get (d : α) : SMap α → Nat → α
  | [], _ => d
  | (k', v) :: m, k => if k' = k then v else get d m k

/-- The value at key `k`, if any. -/
def find : SMap α → Nat → Option α
  | [], _ => none
  | (k', v) :: m, k => if k' = k then some v else find m k

/-- Put `v` at key `k`: in place when the key is there, and before the first greater key otherwise. -/
def put : SMap α → Nat → α → SMap α
  | [], k, v => [(k, v)]
  | (k', v') :: m, k, v =>
    if k' = k then (k, v) :: m else if k < k' then (k, v) :: (k', v') :: m else (k', v') :: put m k v

/-- Remove key `k`. -/
def erase (m : SMap α) (k : Nat) : SMap α := m.filter (fun e => e.1 ≠ k)

/-- Put `v` at key `k` keeping the canonical form: no entry holds `d`. -/
def set [DecidableEq α] (d : α) (m : SMap α) (k : Nat) (v : α) : SMap α :=
  if v = d then m.erase k else m.put k v

/-- Keys strictly rising. -/
def sorted : SMap α → Bool
  | [] => true
  | (k, _) :: m => (match m with | [] => true | (k', _) :: _ => decide (k < k')) && sorted m

/-- The canonical form: keys strictly rising, and no entry equal to what an unlisted key reads as. -/
def wf [DecidableEq α] (d : α) (m : SMap α) : Bool := sorted m && m.all (fun e => e.2 ≠ d)

/-- Apply `f` to the value of key `k` where there is one. -/
def upd (m : SMap α) (k : Nat) (f : α → α) : SMap α := m.map (fun e => if e.1 = k then (e.1, f e.2) else e)

end SMap

end Sys2Proof.Machine
end

