-- ==== Sys2Proof/Syntax.lean ====
section
/-! DEFINITION. The instructions: one constructor per row of spec/opcode_table.json. Draty heads (R135 to R138), control-thread instructions (R139, R145), queue records (R317), and the module's own steps (95_what_each_step_holds). -/
namespace Sys2Proof

/-- A 4-bit register field (R123). -/
abbrev Reg := BitVec 4
/-- A RISC-V register number. -/
abbrev XReg := BitVec 5

/-- The tail of a head whose form may have tail class 0 or 1, and the guard (R122, R124). -/
inductive Guard | bare | always | on (p : Reg)
  deriving DecidableEq, Repr

/-- An immediate with its tail class: none (class 1), I16 (class 2), I32 (class 3) (R122). -/
inductive Imm | none | i16 (v : BitVec 16) | i32 (v : BitVec 32)
  deriving DecidableEq, Repr

/-- The sync selector of an engine command (R245): no immediate, or a class-2 immediate that names a register or none. -/
inductive Sync | short | field (y : Option Reg)
  deriving DecidableEq, Repr

inductive AluOp | add | sub | and | or | xor | andn | orn | xnor deriving DecidableEq, Repr
inductive AluiOp | and | or | xor deriving DecidableEq, Repr
inductive ShOp | shl | shr | sra | rol | ror deriving DecidableEq, Repr
inductive MulOp | mul | mulh | mulhu | mulhsu deriving DecidableEq, Repr
inductive DivOp | div | divu | rem | remu deriving DecidableEq, Repr
inductive MmOp | min | max | minu | maxu deriving DecidableEq, Repr
inductive BitOp | clz | ctz | popc | brev | bswap deriving DecidableEq, Repr
inductive CmpOp | eq | ne | lt | ltu | ge | geu deriving DecidableEq, Repr
inductive PlogOp | and | or | xor | andn | orn deriving DecidableEq, Repr
inductive IdSel | coord | slot | hops | ident | ctx deriving DecidableEq, Repr
/-- Width and extension of a load (R195). -/
inductive LdW | b | h | w | d | bs | hs | ws deriving DecidableEq, Repr
/-- Width of a store (R195). -/
inductive StW | b | h | w | d deriving DecidableEq, Repr
/-- Ordering suffix of an atomic (R200). -/
inductive AOrd | plain | rel | acq | ar deriving DecidableEq, Repr
inductive ALogOp | and | or | xor deriving DecidableEq, Repr
/-- Lane types (R214). -/
inductive LaneT | i8 | i16 | i32 | i64 | bf16 | f16 | f32 | f64 deriving DecidableEq, Repr
/-- Overflow treatment of integer lanes (R217). -/
inductive Ovf | wrap | ss | us deriving DecidableEq, Repr
inductive VLogOp | and | or | xor | andn | not deriving DecidableEq, Repr
inductive VShOp | shl | shr | sra deriving DecidableEq, Repr
inductive VCmpOp | eq | ne | lt | le | ltu | leu deriving DecidableEq, Repr
inductive VRedOp | add | min | max deriving DecidableEq, Repr
inductive ZipMode | lo | hi | ev | od deriving DecidableEq, Repr
/-- Element formats of VPACK and VUNPK (R231). -/
inductive PackF | e2m1 | e3m2 | e2m3 | int4 deriving DecidableEq, Repr
/-- Barrier operators (R286). -/
inductive BarOp | fadd | add | min | max | minu | maxu | and | or deriving DecidableEq, Repr
/-- Paths of DRAIN (R82, R260). -/
inductive Path | loc | group | die | module | lpddr | pod deriving DecidableEq, Repr
/-- Modes of EZZST (R273). -/
inductive ZstMode | raw | bf16 | fp16 deriving DecidableEq, Repr
/-- Policies of TLOAD (R257). -/
inductive TPol | wait | direct | shadow deriving DecidableEq, Repr
/-- Conditions of SEMWAIT (R317). -/
inductive QCond | ge | eq | ne | lt deriving DecidableEq, Repr
/-- The amount of VSH: a register of per-lane amounts, or an immediate (R221). -/
inductive ShAmt | reg (b : Reg) | imm (n : BitVec 7) deriving DecidableEq, Repr
/-- The tag of RECV: a register, or an immediate (R279). -/
inductive TagSrc | reg (a : Reg) | imm (t : BitVec 6) deriving DecidableEq, Repr

/-! ### RV64IMAC (R145) -/

inductive BrOp | beq | bne | blt | bge | bltu | bgeu deriving DecidableEq, Repr
inductive RvLd | lb | lh | lw | ld | lbu | lhu | lwu deriving DecidableEq, Repr
inductive RvOpI | addi | slti | sltiu | xori | ori | andi | slli | srli | srai | addiw | slliw | srliw | sraiw
  deriving DecidableEq, Repr
inductive RvOp
  | add | sub | sll | slt | sltu | xor | srl | sra | or | and | addw | subw | sllw | srlw | sraw
  | mul | mulh | mulhsu | mulhu | div | divu | rem | remu | mulw | divw | divuw | remw | remuw
  deriving DecidableEq, Repr
inductive AmoOp | swap | add | xor | and | or | min | max | minu | maxu deriving DecidableEq, Repr
inductive CsrOp | rw | rs | rc deriving DecidableEq, Repr
/-- The source of a CSR instruction: a register or a 5-bit immediate. -/
inductive CsrSrc | reg (r : XReg) | imm (v : BitVec 5) deriving DecidableEq, Repr

/-- A standard control-thread instruction. Immediates are the sign-extended values in 64 bits. -/
inductive Rv
  | lui (rd : XReg) (imm : Word)
  | auipc (rd : XReg) (imm : Word)
  | jal (rd : XReg) (imm : Word)
  | jalr (rd rs1 : XReg) (imm : Word)
  | br (op : BrOp) (rs1 rs2 : XReg) (imm : Word)
  | load (op : RvLd) (rd rs1 : XReg) (imm : Word)
  | store (w : StW) (rs1 rs2 : XReg) (imm : Word)
  | opImm (op : RvOpI) (rd rs1 : XReg) (imm : Word)
  | op (op : RvOp) (rd rs1 rs2 : XReg)
  | fence (both : Bool)
  | fenceI
  | ecall
  | ebreak
  | sret
  | wfi
  | sfenceVma
  | csr (op : CsrOp) (rd : XReg) (csr : BitVec 12) (src : CsrSrc)
  | lr (dbl : Bool) (rd rs1 : XReg) (aq rl : Bool)
  | sc (dbl : Bool) (rd rs1 rs2 : XReg) (aq rl : Bool)
  | amo (op : AmoOp) (dbl : Bool) (rd rs1 rs2 : XReg) (aq rl : Bool)
  deriving DecidableEq, Repr

/-- A register that a write can name (R10): a device CSR of a task's control thread, or a management register by offset (R428). -/
inductive RegName | csr (t : Nat) (num : BitVec 12) | mgmt (off : Nat)
  deriving DecidableEq, Repr

/-- What a level-4 frame carries (R390). A rollback goes up the tree as `trigger`, down as `rollback`; `restored` and `goOn` are its rendezvous (R387, log 110). -/
inductive PodBody | arrival | release | abort (code : Nat) | nonrestart | trigger (cause : Nat) | rollback | restored | goOn | ack
  deriving DecidableEq, Repr

/-- A frame of the pod barrier port (R389, R390). `contrib`: the operator and the partial result, m × 2^e with a special code (0 finite, 1 NaN, 2 and 3 the infinities, 4 minus zero). `serial` numbers the sends of a module; an acknowledgement repeats it. -/
structure PodFrame where
  job : Nat
  podtag : Nat
  seqnum : Nat
  src : Nat
  serial : Nat
  contrib : Option (BarOp × Int × Int × Nat)
  body : PodBody
  deriving DecidableEq, Repr

/-- An access of the host through the CXL.mem window (R416). -/
inductive CxlOp | read (addr : Nat) | write (addr : Nat) (val : Word)
  deriving DecidableEq, Repr

inductive Instr
  -- line and branch control (R180)
  | nop
  | br (delta : Imm) (g : Guard)
  | brx (d : Reg) (g : Guard)
  | call (d : Reg) (delta : Imm) (g : Guard)
  | callx (d a : Reg) (g : Guard)
  | loop (d : Reg) (delta : BitVec 16) (g : Guard)
  | fetch (delta : Imm) (g : Guard)
  | fetchReg (a : Reg) (g : Guard)
  | stop (g : Guard)
  | yield (g : Guard)
  | safept (mask : BitVec 27)
  | rdsys (d : Reg) (csr : BitVec 12) (g : Guard)
  | fenceCore (g : Guard)
  | id (f : IdSel) (d : Reg) (g : Guard)
  -- predicates (R194)
  | plog (f : PlogOp) (d a b : Reg) (g : Guard)
  | pmov (d : Reg) (g : Guard)
  | pmovPw (a : Reg) (g : Guard)
  | pset (v : Bool) (d : Reg) (g : Guard)
  -- integer and address arithmetic (R188)
  | alu (f : AluOp) (d a b : Reg) (g : Guard)
  | shf (f : ShOp) (d a b : Reg) (g : Guard)
  | mul (f : MulOp) (d a b : Reg) (g : Guard)
  | div (f : DivOp) (d a b : Reg) (g : Guard)
  | minmax (f : MmOp) (d a b : Reg) (g : Guard)
  | bitc (f : BitOp) (d a : Reg) (g : Guard)
  | bext (d a : Reg) (off wid : BitVec 7) (g : Guard)
  | bextReg (d a b : Reg) (g : Guard)
  | bins (d a : Reg) (off wid : BitVec 7) (g : Guard)
  | binsReg (d a b : Reg) (g : Guard)
  | addi (d a : Reg) (imm : Imm) (g : Guard)
  | alui (f : AluiOp) (d a : Reg) (imm : Imm) (g : Guard)
  | shfi (f : ShOp) (d a : Reg) (n : BitVec 6) (g : Guard)
  | movi (d : Reg) (imm : Imm) (g : Guard)
  | movhi (d : Reg) (imm : BitVec 32) (g : Guard)
  | sel (d c a b : Reg) (g : Guard)
  | mkadr (d a b : Reg) (g : Guard)
  | mkrel (d a b : Reg) (g : Guard)
  | cmp (f : CmpOp) (d a b : Reg) (g : Guard)
  | cmpi (f : CmpOp) (d a : Reg) (imm : Imm) (g : Guard)
  -- local memory (R195)
  | ld (f : LdW) (d a : Reg) (imm : Imm) (g : Guard)
  | st (f : StW) (d a : Reg) (imm : Imm) (g : Guard)
  | ldl (f : LdW) (d : Reg) (delta : BitVec 10) (off : BitVec 6) (g : Guard)
  | ldp (d a : Reg) (imm : Imm) (g : Guard)
  | stp (d a : Reg) (imm : Imm) (g : Guard)
  | ldx (f : LdW) (d a b : Reg) (g : Guard)
  | stx (f : StW) (d a b : Reg) (g : Guard)
  -- atomics (R200)
  | aadd (o : AOrd) (w4 : Bool) (d a b : Reg) (g : Guard)
  | alog (f : ALogOp) (o : AOrd) (w4 : Bool) (d a b : Reg) (g : Guard)
  | amm (f : MmOp) (o : AOrd) (w4 : Bool) (d a b : Reg) (g : Guard)
  | aswp (o : AOrd) (w4 : Bool) (d a b : Reg) (g : Guard)
  | acas (o : AOrd) (w4 : Bool) (d a b c : Reg) (g : Guard)
  -- travel, links, sync (R206 to R210)
  | spawn (d a b : Reg) (g : Guard)
  | go (a : Reg) (g : Guard)
  | home (g : Guard)
  | lsend (d a : Reg) (slot : BitVec 4) (g : Guard)
  | lrecv (d : Reg) (g : Guard)
  | lpeek (d : Reg) (g : Guard)
  | csyncSig (g : Guard)
  | csyncWait (g : Guard)
  -- messages and barriers (R278 to R284)
  | post (rel trig : Bool) (d a b : Reg) (tag : BitVec 6) (g : Guard)
  | recv (acq nw : Bool) (d : Reg) (tag : TagSrc) (b : Reg) (g : Guard)
  | bind (d a : Reg) (tag : BitVec 6) (g : Guard)
  | unbind (d : Reg) (tag : BitVec 6) (g : Guard)
  | rebind (d : Reg) (tag : BitVec 6) (g : Guard)
  | exch (l : BitVec 3) (g : Guard)
  | bar (l : BitVec 3) (g : Guard)
  | barx (op : BarOp) (l : BitVec 3) (d a : Reg) (g : Guard)
  | barxNc (op : BarOp) (l : BitVec 3) (d : Reg) (g : Guard)
  | bara (l : BitVec 3) (a : Reg) (g : Guard)
  | baraImm (l : BitVec 3) (code : BitVec 15) (g : Guard)
  -- vector (R219 to R238)
  | vadd (t : LaneT) (o : Ovf) (d a b : Reg) (g : Guard)
  | vsub (t : LaneT) (o : Ovf) (d a b : Reg) (g : Guard)
  | vmul (t : LaneT) (o : Ovf) (d a b : Reg) (g : Guard)
  | vfma (t : LaneT) (d a b c : Reg) (g : Guard)
  | vmin (t : LaneT) (o : Ovf) (d a b : Reg) (g : Guard)
  | vmax (t : LaneT) (o : Ovf) (d a b : Reg) (g : Guard)
  | vabs (t : LaneT) (o : Ovf) (d a : Reg) (g : Guard)
  | vneg (t : LaneT) (o : Ovf) (d a : Reg) (g : Guard)
  | vlog (f : VLogOp) (d a b : Reg) (g : Guard)
  | vsh (f : VShOp) (t : LaneT) (d a : Reg) (n : ShAmt) (g : Guard)
  | vcmp (f : VCmpOp) (t : LaneT) (d a b : Reg) (g : Guard)
  | vsel (d c a b : Reg) (g : Guard)
  | vdiv (t : LaneT) (d a b : Reg) (g : Guard)
  | vsqrt (t : LaneT) (d a : Reg) (g : Guard)
  | vmulh (t : LaneT) (u : Bool) (d a b : Reg) (g : Guard)
  | vavg (t : LaneT) (u : Bool) (d a b : Reg) (g : Guard)
  | vcvt (dt st : LaneT) (d a : Reg) (h : Option (BitVec 3)) (g : Guard)
  | pdec (n : BitVec 2) (dt : LaneT) (d a : Reg) (g : Guard)
  | penc (n : BitVec 2) (st : LaneT) (d a : Reg) (g : Guard)
  | pload (n : BitVec 2) (a : Reg) (g : Guard)
  | vshuf (t : LaneT) (d a b : Reg) (g : Guard)
  | vrot (t : LaneT) (d a : Reg) (r : BitVec 4) (g : Guard)
  | vzip (t : LaneT) (mode : Option ZipMode) (d a b : Reg) (g : Guard)
  | vred (f : VRedOp) (t : LaneT) (d a : Reg) (g : Guard)
  | vdot (t : LaneT) (d a b : Reg) (g : Guard)
  | vld (d a : Reg) (imm : Imm) (g : Guard)
  | vst (d a : Reg) (imm : Imm) (g : Guard)
  | vmov (d a : Reg) (g : Guard)
  | vmovQm (d a : Reg) (g : Guard)
  | vmovMq (d a : Reg) (g : Guard)
  | vsplat (t : LaneT) (d a : Reg) (g : Guard)
  | vlaneExt (t : LaneT) (d a : Reg) (k : BitVec 4) (g : Guard)
  | vlaneIns (t : LaneT) (d a : Reg) (k : BitVec 4) (g : Guard)
  | rep (heads : BitVec 3) (stride : BitVec 4) (passes : BitVec 8)
  | vpack (f : PackF) (d a : Reg) (g : Guard)
  | vunpk (f : PackF) (d a : Reg) (g : Guard)
  -- easel and copy engine (R252 to R275)
  | ezmm (clear : Bool) (d a b : Reg) (y : Sync) (g : Guard)
  | ezmms (clear : Bool) (d a b : Reg) (y : Sync) (g : Guard)
  | ezring (d a : Reg) (y : Sync) (g : Guard)
  | ezfmt (d : Reg) (code : BitVec 4) (pal : BitVec 2) (sparse : Bool) (y : Option Reg) (g : Guard)
  | ezpush (d : Reg) (n : BitVec 11) (y : Option Reg) (g : Guard)
  | ezpop (d : Reg) (n : BitVec 11) (y : Option Reg) (g : Guard)
  | ezqry (d : Reg) (k : BitVec 3) (g : Guard)
  | ezzld (d a : Reg) (y : Sync) (g : Guard)
  | ezzst (d a : Reg) (mode : ZstMode) (y : Sync) (g : Guard)
  | ezzclr (d : Reg) (y : Sync) (g : Guard)
  | ezwf (y : Sync) (g : Guard)
  | ezchk (on : Bool) (y : Sync) (g : Guard)
  | copy (q a b c : Reg) (y : Option Reg) (g : Guard)
  | copy2 (q a : Reg) (y : Sync) (g : Guard)
  | tload (q a : Reg) (pol : TPol) (y : Option Reg) (g : Guard)
  | join (mask : BitVec 5) (g : Guard)
  | drain (p : Path) (g : Guard)
  | cqst (d : Reg) (g : Guard)
  | semw (d : Reg) (thr : BitVec 16) (g : Guard)
  | sems (d : Reg) (inc : BitVec 16) (g : Guard)
  | semrd (d a : Reg) (g : Guard)
  | semini (d a : Reg) (g : Guard)
  -- control-thread custom instructions (R139)
  | dtBcast (rd rs1 rs2 : XReg)
  | dtStart (rd rs1 rs2 : XReg)
  | dtMtstat (rd rs1 : XReg)
  | dtMtkill (rd rs1 : XReg)
  | dtMtwait (rd rs1 : XReg)
  | dtMtgo (rd rs1 : XReg)
  | dtCbar
  | dtLaunch (rd rs1 : XReg)
  | dtLaunchW (rd rs1 : XReg)
  | dtTrigger
  | dtJoink (rd rs1 : XReg)
  | dtPark (rd rs1 : XReg)
  | dtResume (rs1 : XReg)
  | dtLmigr (rd rs1 rs2 : XReg)
  | dtCaps (rd rs1 : XReg)
  | dtHarvest (rd rs1 : XReg)
  | dtNxset (nx : Bool)
  -- a standard RV64IMAC instruction of the control thread (R145)
  | controlThreadInstruction (i : Rv)
  -- queue records (R317)
  | nopq
  | semwait (c : QCond) (val : BitVec 48) (addr : Word)
  | semsig (inc : BitVec 48) (addr : Word)
  | semset (val : BitVec 48) (addr : Word)
  | klaunch (sem : BitVec 48) (rec : Word)
  | kcopy (desc : Word)
  | qbar (bid n1 : BitVec 6)
  | intr (entry : BitVec 11)
  | jump (target : Word)
  | callq (target : Word)
  | retq
  | waitidle
  | stamp (done : Bool) (addr : Word)
  | fenceq
  -- steps of the issue pipe and the sequencer of task t
  | lineEntry (t : Nat)
  | lineEnd (t : Nat)
  | runBudgetReached (t : Nat)
  | pipeIdleWake (t : Nat)
  | waitConditionHolds (t slot : Nat)
  | sequencerIssue (t : Nat)
  | storeBufferLand (t slot idx : Nat)
  -- arrivals: n is the index of a packet in the network
  | baleAccepted (t slot : Nat)
  | baleArrival (n : Nat)
  | baleAdmission (t : Nat)
  | spawnCreditArrival (n : Nat)
  | messageArrival (n : Nat)
  | triggeredMessageArrival (n : Nat)
  | returnedPacketArrival (n : Nat)
  | postReleaseSend (t idx : Nat)
  -- moves and saves of task t; easelDone: a begun easel command completes before quiescence (R272)
  | landingGrant (t : Nat)
  | landingRetry (t : Nat)
  | landingTimeout (t : Nat)
  | moveQuiescence (t : Nat) (easelDone : Bool)
  | moveTransferComplete (t : Nat)
  | markerArrival (t : Nat)
  | saveQuiescence (t : Nat) (easelDone : Bool)
  | saveFrameWritten (t : Nat)
  | taskResume (t : Nat)
  | savedSenderResume (t : Nat)
  | savedSenderResave (t : Nat)
  -- engine commands: q a queue, num a command's number, idx a word's index
  | commandBegin (t q : Nat)
  | wordLanded (t num idx : Nat)
  | commandComplete (t q : Nat)
  | copyLeaseExpiry (t num idx : Nat)
  | tloadDeadline (t num : Nat)
  -- control thread of task t
  | ctInterrupt (t : Nat)
  | timerInterrupt (t : Nat)
  | cbarComplete (t : Nat)
  | mtwaitReturn (t : Nat)
  | joinkReturn (t : Nat)
  | poolEntryFreed
  | texit (t : Nat)
  | tqpost (t : Nat) (v : Word)
  | grpctlRearm (t : Nat) (level : BitVec 3)
  | grpctlRollback (t : Nat)
  | grpctlKill (t : Nat)
  | elfaultClear (t : Nat)
  | mtfpendClear (t : Nat) (v : Word)
  | ctsyncGo (t : Nat) (v : Word)
  | lpareaWrite (t : Nat) (i : BitVec 4) (v : Word)
  | registerWrite (r : RegName) (v : Word)
  -- kernels and groups
  | dependenceMet (c h : Nat)
  | groupPlacement
  | placementStarvation (c h g : Nat)
  | masterElection
  | barrierArrivalSend (t : Nat) (level : BitVec 3)
  | barrierArrival (n : Nat)
  | watchdogExpiry (key : Nat)
  | nonrestartableMark (n : Nat)
  | rollbackTrigger (n : Nat)
  | rollbackRestore (t : Nat)
  | rollbackRendezvous (gid : Nat)
  | podArrivalForward (key : Nat)
  | podFrameArrival (f : PodFrame)
  | podFrameResend (n : Nat)
  -- contexts and queues
  | contextCreate (c : Nat)
  | contextAdmit (c : Nat)
  | contextEvict (c : Nat)
  | contextStop (c : Nat)
  | contextDestroy (c : Nat)
  | evictionComplete (c : Nat)
  | destroyComplete (c : Nat)
  | queueCreate (q : Nat)
  | queueResume (q : Nat)
  | queueDestroy (q : Nat)
  | queueDoorbell (q : Nat) (wptr : BitVec 32)
  | recordService (h : Nat)
  | semwaitReread (q : Nat)
  | localWake (q : Nat)
  | kcopyComplete (q n : Nat)
  -- pages
  | shoot (c : Nat)
  | stage (c : Nat)
  | pageEvict (c : Nat)
  | ephset (c : Nat)
  | harvest (c : Nat)
  | shootdownComplete (n : Nat)
  | leaseExpiry (n : Nat)
  | stagingDone (page : Nat)
  | writebackDone (page : Nat)
  | ephemeralDeadline (page : Nat)
  | podMoveRequest (page requester : Nat)
  | podSettleNotice (page : Nat)
  | podSettleEnd (page : Nat)
  -- links and dies
  | flitReceive (link : Nat) (fromLow : Bool) (flit : BitVec 512)
  | replayTimeout (link : Nat) (fromLow : Bool) (ch : BitVec 5) (e : Bool)
  | sidebandError (link : Nat)
  | linkTrained (link : Nat) (half repair : Bool)
  | trainingFailed (link : Nat)
  | retrainTimeout (link : Nat)
  | linkQuiesced (link : Nat)
  | dieFence (d : Nat)
  | warmReset (d : Nat)
  | fenceInstant (d : Nat)
  | dieSpillDone
  | dieResetDone
  | dieRestoreDone
  | dieReadmitDone
  -- power, boot, host
  | pwrcapWrite (v : Word)
  | pstepChange (pins : BitVec 2)
  | throttleStepAdd (draw : Nat)
  | throttleStepRemove (predicted : Nat)
  | thermalCapAdjust (tj : Nat)
  | thermalTrip (tj : Nat)
  | pfailAssert
  | pfImageSealed (held : Bool)
  | pfailDeassert
  | pfcopy (off : BitVec 20)
  | pfcopyDone
  | coldReset
  | bootok
  | bootokTimeout
  | uncorrectableError (key : Nat)
  | junctionAboveWarn (tj : Nat)
  | cxlMemRequest (op : CxlOp)
  | spdmRequest (code : BitVec 8)
  | sendBufferEntrySent (t idx : Nat)
  | recordRetirement (q : Nat)
  | harvestComplete (n : Nat)
  | podMoveComplete (page : Nat)
  deriving DecidableEq, Repr

end Sys2Proof
end

