-- ==== Sys2Proof/WellFormed.lean ====
section
/-! DEFINITION. Which instructions the encodings admit: register files, field ranges, guards and tail classes (R121 to R126, R136 to R140, R245, R317). -/
namespace Sys2Proof.WellFormed

/-- An m register (R123). -/
def mOk (r : Reg) : Bool := decide (r.toNat < 10)
/-- A ring. -/
def kOk (r : Reg) : Bool := decide (r.toNat < 8)
/-- An accumulator or a copy queue. -/
def zOk (r : Reg) : Bool := decide (r.toNat < 4)
/-- A guard where a tail is present (R124). -/
def tailed (g : Guard) : Bool := decide (g ≠ .bare)
/-- An immediate of class 2 or 3. -/
def immOk : Imm → Bool
  | .none => false
  | _ => true
/-- An immediate of class 1 or 2. -/
def imm16 : Imm → Bool
  | .i32 _ => false
  | _ => true
/-- A sync selector names m0 to m9 (R245). -/
def selOk : Option Reg → Bool
  | none => true
  | some y => mOk y
def syncOk : Sync → Bool
  | .short => true
  | .field y => selOk y
/-- A sync form whose short form may have no tail: the guard must then fit it. -/
def syncGuard (y : Sync) (g : Guard) : Bool :=
  match y with
  | .short => true
  | .field _ => tailed g
/-- Width 0 to 64 of BEXT and BINS (R136). -/
def widOk (w : BitVec 7) : Bool := decide (w.toNat ≤ 64)
def isInt (t : LaneT) : Bool := decide (t = .i8 ∨ t = .i16 ∨ t = .i32 ∨ t = .i64)
/-- FX of a lane form: 0 to 2 on integer lanes, 0 on float lanes (R137). -/
def ovfOk (t : LaneT) (o : Ovf) : Bool := isInt t || decide (o = .wrap)
/-- VABS and VNEG reserve unsigned saturation (R219). -/
def ovfAbs (t : LaneT) (o : Ovf) : Bool := ovfOk t o && decide (o ≠ .us)
def lanes (t : LaneT) : Nat := [16, 8, 4, 2, 8, 8, 4, 2].getD (t.ctorIdx) 2
def laneBits (t : LaneT) : Nat := 128 / lanes t
/-- Levels 1 to 4 (R284). -/
def lvlOk (l : BitVec 3) : Bool := decide (1 ≤ l.toNat ∧ l.toNat ≤ 4)
/-- A 16-bit palette target of PDEC and PENC (R232). -/
def decT (t : LaneT) : Bool := decide (t = .bf16 ∨ t = .f16 ∨ t = .f32)

/-- The instruction has an encoding (R126 step 2, R139, R317). Events have none: all are well formed. -/
def ok : Instr → Bool
  | .br i g => immOk i && tailed g
  | .brx d _ => mOk d
  | .call d i g => mOk d && immOk i && tailed g
  | .callx d a g => mOk d && mOk a && tailed g
  | .loop d _ g => mOk d && tailed g
  | .fetch i g => immOk i && tailed g
  | .fetchReg a g => mOk a && tailed g
  | .rdsys d _ g => mOk d && tailed g
  | .id _ d _ => mOk d
  | .plog _ _ _ _ g => tailed g
  | .pmov d _ => mOk d
  | .pmovPw a g => mOk a && tailed g
  | .alu _ d a b g | .shf _ d a b g | .mul _ d a b g | .div _ d a b g | .minmax _ d a b g
  | .bextReg d a b g | .binsReg d a b g | .mkadr d a b g | .mkrel d a b g =>
    mOk d && mOk a && mOk b && tailed g
  | .bitc _ d a g => mOk d && mOk a && tailed g
  | .bext d a _ w g | .bins d a _ w g => mOk d && mOk a && widOk w && tailed g
  | .addi d a i g | .alui _ d a i g => mOk d && mOk a && immOk i && tailed g
  | .shfi _ d a _ g => mOk d && mOk a && tailed g
  | .movi d i g => mOk d && immOk i && tailed g
  | .movhi d _ g => mOk d && tailed g
  | .sel d _ a b g => mOk d && mOk a && mOk b && tailed g
  | .cmp _ _ a b g => mOk a && mOk b && tailed g
  | .cmpi _ _ a i g => mOk a && immOk i && tailed g
  | .ld _ d a _ g | .st _ d a _ g => mOk d && mOk a && tailed g
  | .ldl _ d _ _ g => mOk d && tailed g
  | .ldp d a i g | .stp d a i g => decide (d.toNat % 2 = 0 ∧ d.toNat ≤ 8) && mOk a && imm16 i && tailed g
  | .ldx _ d a b g | .stx _ d a b g => mOk d && mOk a && mOk b && tailed g
  | .aadd _ _ d a b g | .alog _ _ _ d a b g | .amm _ _ _ d a b g | .aswp _ _ d a b g =>
    mOk d && mOk a && mOk b && tailed g
  | .acas _ _ d a b c g => mOk d && mOk a && mOk b && mOk c && tailed g
  | .spawn d a b g => mOk d && mOk a && mOk b && tailed g
  | .go a g => mOk a && tailed g
  | .lsend d a s g => mOk d && mOk a && mOk s && tailed g
  | .lrecv d _ | .lpeek d _ => mOk d
  | .post _ _ d a b t g => mOk d && mOk a && mOk b && decide (t.toNat ≠ 63) && tailed g
  | .recv _ nw d t b g =>
    mOk d && tailed g && (nw || decide (b = 0)) && (match t with | .reg a => mOk a | .imm _ => true)
  | .bind d a t g => mOk d && mOk a && decide (t.toNat ≠ 63) && tailed g
  | .unbind d t g | .rebind d t g => mOk d && decide (t.toNat ≠ 63) && tailed g
  | .exch l _ | .bar l _ => lvlOk l
  | .barx _ l d a g => lvlOk l && mOk d && mOk a && tailed g
  | .barxNc _ l d g => lvlOk l && mOk d && tailed g
  | .bara l a g => lvlOk l && mOk a && tailed g
  | .baraImm l _ g => lvlOk l && tailed g
  | .vadd t o _ _ _ g | .vsub t o _ _ _ g | .vmul t o _ _ _ g | .vmin t o _ _ _ g | .vmax t o _ _ _ g =>
    ovfOk t o && tailed g
  | .vabs t o _ _ g | .vneg t o _ _ g => ovfAbs t o && tailed g
  | .vfma t _ _ _ _ g | .vdiv t _ _ _ g | .vsqrt t _ _ g => !isInt t && tailed g
  | .vlog f _ _ b g => tailed g && (decide (f ≠ .not) || decide (b = 0))
  | .vsh _ t _ _ _ g => isInt t && tailed g
  | .vcmp f t _ _ _ g => tailed g && (isInt t || decide (f ≠ .ltu ∧ f ≠ .leu))
  | .vsel _ _ _ _ g => tailed g
  | .vmulh t _ _ _ _ g | .vavg t _ _ _ _ g => isInt t && tailed g
  | .vcvt dt st _ _ h g =>
    decide (dt ≠ st) && tailed g &&
      (match h with
       | none => true
       | some h => decide (h.toNat < max (laneBits dt) (laneBits st) / min (laneBits dt) (laneBits st)))
  | .pdec _ t _ _ g | .penc _ t _ _ g => decT t && tailed g
  | .pload n a g => decide (2 ≤ n.toNat) && mOk a && tailed g
  | .vshuf t _ _ _ g | .vzip t _ _ _ _ g => isInt t && tailed g
  | .vrot t _ _ r g => isInt t && decide (r.toNat < lanes t) && tailed g
  | .vred _ _ _ _ g => tailed g
  | .vdot t _ _ _ g => decide (t = .i8 ∨ t = .i16 ∨ t = .bf16 ∨ t = .f16) && tailed g
  | .vld _ a i g | .vst _ a i g => mOk a && imm16 i && tailed g
  | .vmov _ _ g => tailed g
  | .vmovQm _ a g => mOk a && tailed g
  | .vmovMq d _ g => mOk d && tailed g
  | .vsplat _ _ a g => mOk a && tailed g
  | .vlaneExt t d _ k g => mOk d && decide (k.toNat < lanes t) && tailed g
  | .vlaneIns t _ a k g => mOk a && decide (k.toNat < lanes t) && tailed g
  | .vpack _ _ _ g | .vunpk _ _ _ g => tailed g
  | .ezmm _ d a b y g | .ezmms _ d a b y g =>
    zOk d && kOk a && kOk b && decide (a ≠ b) && syncOk y && tailed g
  | .ezring d a y g => kOk d && mOk a && syncOk y && tailed g
  | .ezfmt d c p sp y g =>
    kOk d && decide (c.toNat ≤ 9) && decide (p = 0 ∨ c.toNat = 3) && (!sp || decide (c.toNat < 8)) && selOk y
      && tailed g
  | .ezpush d n y g | .ezpop d n y g => kOk d && decide (n.toNat ≤ 1024) && selOk y && tailed g
  | .ezqry d _ g => mOk d && tailed g
  | .ezzld d a y g => zOk d && mOk a && syncOk y && tailed g
  | .ezzst d a mo y g => zOk d && mOk a && syncOk y && tailed g && (decide (y ≠ .short) || decide (mo = .raw))
  | .ezzclr d y g => zOk d && syncOk y && syncGuard y g
  | .ezwf y g => syncOk y && syncGuard y g
  | .ezchk _ y g => syncOk y && syncGuard y g
  | .copy q a b c y g => zOk q && mOk a && mOk b && mOk c && selOk y && tailed g
  | .copy2 q a y g => zOk q && mOk a && syncOk y && tailed g
  | .tload q a _ y g => zOk q && mOk a && selOk y && tailed g
  | .join _ g => tailed g
  | .cqst d _ => mOk d
  | .semw d _ g | .sems d _ g => mOk d && tailed g
  | .semrd d a g | .semini d a g => mOk d && mOk a && tailed g
  | _ => true

end Sys2Proof.WellFormed
end

