-- ==== Sys2Proof/Decode.lean ====
section
/-! DEFINITION. Decoding of heads with their tails, of control-thread instructions and of queue records, and the encoders that invert it (R121, R122, R135 to R140, R317). Every word that is no encoding is refused. -/
namespace Sys2Proof.Decode
open Sys2Proof.Machine

/-- The fields of a head and its tail (R121, R122). `imm` is I16 or I32. -/
structure Raw where
  major : Nat
  tc : Nat
  d : Nat
  f : Nat
  a : Nat
  b : Nat
  ge : Bool
  gp : Nat
  fx : Nat
  imm : Nat
  deriving DecidableEq, Repr

/-- Bits of a tail of class `tc`. -/
def tailBits (tc : Nat) : Nat := 16 * tc

/-- The fields of a head halfword and its tail (R121, R122). -/
def unpack (head tail : Nat) : Raw :=
  let tc := bits head 8 7
  { major := bits head 15 9, tc := tc, d := bits head 6 3, f := bits head 2 0,
    a := bits tail 15 12, b := bits tail 11 8, ge := bit tail 7, gp := bits tail 6 3, fx := bits tail 2 0,
    imm := tail >>> 16 }

/-- The head halfword of the fields. -/
def headOf (r : Raw) : Nat := r.major * 512 + r.tc * 128 + r.d * 8 + r.f
/-- The tail of the fields. -/
def tailOf (r : Raw) : Nat :=
  r.imm * 65536 + r.a * 4096 + r.b * 256 + b01 r.ge * 128 + r.gp * 8 + r.fx

/-! ### Operation codes (R136 to R138) -/

def aluOps : List AluOp := [.add, .sub, .and, .or, .xor, .andn, .orn, .xnor]
def aluiOps : List AluiOp := [.and, .or, .xor]
def shOps : List ShOp := [.shl, .shr, .sra, .rol, .ror]
def mulOps : List MulOp := [.mul, .mulh, .mulhu, .mulhsu]
def divOps : List DivOp := [.div, .divu, .rem, .remu]
def mmOps : List MmOp := [.min, .max, .minu, .maxu]
def bitOps : List BitOp := [.clz, .ctz, .popc, .brev, .bswap]
def cmpOps : List CmpOp := [.eq, .ne, .lt, .ltu, .ge, .geu]
def plogOps : List PlogOp := [.and, .or, .xor, .andn, .orn]
def idSels : List IdSel := [.coord, .slot, .hops, .ident, .ctx]
def ldWs : List LdW := [.b, .h, .w, .d, .bs, .hs, .ws]
def stWs : List StW := [.b, .h, .w, .d]
def aOrds : List AOrd := [.plain, .rel, .acq, .ar]
def alogOps : List ALogOp := [.and, .or, .xor]
def laneTs : List LaneT := [.i8, .i16, .i32, .i64, .bf16, .f16, .f32, .f64]
def ovfs : List Ovf := [.wrap, .ss, .us]
def vlogOps : List VLogOp := [.and, .or, .xor, .andn, .not]
def vshOps : List VShOp := [.shl, .shr, .sra]
def vcmpOps : List VCmpOp := [.eq, .ne, .lt, .le, .ltu, .leu]
def vredOps : List VRedOp := [.add, .min, .max]
def zipModes : List ZipMode := [.lo, .hi, .ev, .od]
def packFs : List PackF := [.e2m1, .e3m2, .e2m3, .int4]
def barOps : List BarOp := [.fadd, .add, .min, .max, .minu, .maxu, .and, .or]
def paths : List Path := [.loc, .group, .die, .module, .lpddr, .pod]
def zstModes : List ZstMode := [.raw, .bf16, .fp16]
def tPols : List TPol := [.wait, .direct, .shadow]
def qConds : List QCond := [.ge, .eq, .ne, .lt]

/-- The code of an operation: its place in the list. -/
def code {α : Type} [DecidableEq α] (l : List α) (x : α) : Nat := l.idxOf x

/-! ### From an instruction to its fields -/

def geOf : Guard → Bool
  | .on _ => true
  | _ => false
def gpOf : Guard → Nat
  | .on p => p.toNat
  | _ => 0
/-- Tail class of a form that may be bare. -/
def tcOf : Guard → Nat
  | .bare => 0
  | _ => 1
def tcImm : Imm → Nat
  | .none => 1
  | .i16 _ => 2
  | .i32 _ => 3
def immVal : Imm → Nat
  | .none => 0
  | .i16 v => v.toNat
  | .i32 v => v.toNat
/-- A sync selector (R245). -/
def selOf : Option Reg → Nat
  | none => 0
  | some y => 16 + y.toNat
def tcSync (y : Sync) (short : Nat) : Nat :=
  match y with
  | .short => short
  | .field _ => 2
def selSync : Sync → Nat
  | .short => 0
  | .field y => selOf y

/-- A form without tail, or with the guard's tail only. -/
def rBare (major d f : Nat) (g : Guard) : Raw :=
  ⟨major, tcOf g, d, f, 0, 0, geOf g, gpOf g, 0, 0⟩
/-- A form of tail class 1. -/
def r1 (major d f a b fx : Nat) (g : Guard) : Raw := ⟨major, 1, d, f, a, b, geOf g, gpOf g, fx, 0⟩
/-- A form of tail class 2. -/
def r2 (major d f a b fx imm : Nat) (g : Guard) : Raw := ⟨major, 2, d, f, a, b, geOf g, gpOf g, fx, imm⟩
/-- A form of tail class 3. -/
def r3 (major d f a b fx imm : Nat) (g : Guard) : Raw := ⟨major, 3, d, f, a, b, geOf g, gpOf g, fx, imm⟩
/-- A form whose tail class follows its immediate. -/
def rImm (major d f a b fx : Nat) (i : Imm) (g : Guard) : Raw :=
  ⟨major, tcImm i, d, f, a, b, geOf g, gpOf g, fx, immVal i⟩
/-- A form whose tail class follows its sync selector. -/
def rSync (major d f a b low : Nat) (y : Sync) (short : Nat) (g : Guard) : Raw :=
  ⟨major, tcSync y short, d, f, a, b, geOf g, gpOf g, 0, selSync y * 2048 + low⟩

/-- The fields of an instruction that is a head; none for the others (R135 to R138, R180 to R284). -/
def rawOf : Instr → Option Raw
  | .nop => some ⟨0x00, 0, 0, 0, 0, 0, false, 0, 0, 0⟩
  | .br i g => some (rImm 0x01 0 0 0 0 0 i g)
  | .brx d g => some (rBare 0x02 d.toNat 0 g)
  | .call d i g => some (rImm 0x03 d.toNat 0 0 0 0 i g)
  | .callx d a g => some (r1 0x04 d.toNat 0 a.toNat 0 0 g)
  | .loop d i g => some (r2 0x05 d.toNat 0 0 0 0 i.toNat g)
  | .fetch i g => some (rImm 0x06 0 0 0 0 0 i g)
  | .fetchReg a g => some (r1 0x06 0 1 a.toNat 0 0 g)
  | .stop g => some (rBare 0x07 0 0 g)
  | .yield g => some (rBare 0x08 0 0 g)
  | .safept m => some ⟨0x09, 3, 0, 0, 0, 0, false, 0, 0, m.toNat⟩
  | .rdsys d c g => some (r2 0x0A d.toNat 0 0 0 0 c.toNat g)
  | .fenceCore g => some (rBare 0x0B 0 0 g)
  | .id f d g => some (rBare 0x0C d.toNat (code idSels f) g)
  | .plog f d a b g => some (r1 0x0D d.toNat (code plogOps f) a.toNat b.toNat 0 g)
  | .pmov d g => some (rBare 0x0E d.toNat 0 g)
  | .pmovPw a g => some (r1 0x0E 0 1 a.toNat 0 0 g)
  | .pset v d g => some (rBare 0x0F d.toNat (b01 v) g)
  | .alu f d a b g => some (r1 0x10 d.toNat (code aluOps f) a.toNat b.toNat 0 g)
  | .shf f d a b g => some (r1 0x11 d.toNat (code shOps f) a.toNat b.toNat 0 g)
  | .mul f d a b g => some (r1 0x12 d.toNat (code mulOps f) a.toNat b.toNat 0 g)
  | .div f d a b g => some (r1 0x13 d.toNat (code divOps f) a.toNat b.toNat 0 g)
  | .minmax f d a b g => some (r1 0x14 d.toNat (code mmOps f) a.toNat b.toNat 0 g)
  | .bitc f d a g => some (r1 0x15 d.toNat (code bitOps f) a.toNat 0 0 g)
  | .bext d a o w g => some (r2 0x16 d.toNat 0 a.toNat 0 0 (w.toNat * 128 + o.toNat) g)
  | .bextReg d a b g => some (r1 0x16 d.toNat 1 a.toNat b.toNat 0 g)
  | .bins d a o w g => some (r2 0x17 d.toNat 0 a.toNat 0 0 (w.toNat * 128 + o.toNat) g)
  | .binsReg d a b g => some (r1 0x17 d.toNat 1 a.toNat b.toNat 0 g)
  | .addi d a i g => some (rImm 0x18 d.toNat 0 a.toNat 0 0 i g)
  | .alui f d a i g => some (rImm 0x19 d.toNat (2 + code aluiOps f) a.toNat 0 0 i g)
  | .shfi f d a n g => some (r2 0x1A d.toNat (code shOps f) a.toNat 0 0 n.toNat g)
  | .movi d i g => some (rImm 0x1B d.toNat 0 0 0 0 i g)
  | .movhi d i g => some (r3 0x1B d.toNat 1 0 0 0 i.toNat g)
  | .sel d c a b g => some (r2 0x1C d.toNat 0 a.toNat b.toNat 0 (c.toNat * 4096) g)
  | .mkadr d a b g => some (r1 0x1D d.toNat 0 a.toNat b.toNat 0 g)
  | .mkrel d a b g => some (r1 0x1D d.toNat 1 a.toNat b.toNat 0 g)
  | .cmp f d a b g => some (r1 0x1E d.toNat (code cmpOps f) a.toNat b.toNat 0 g)
  | .cmpi f d a i g => some (rImm 0x1F d.toNat (code cmpOps f) a.toNat 0 0 i g)
  | .ld f d a i g => some (rImm 0x20 d.toNat (code ldWs f) a.toNat 0 0 i g)
  | .st f d a i g => some (rImm 0x21 d.toNat (code stWs f) a.toNat 0 0 i g)
  | .ldl f d l o g => some (r2 0x22 d.toNat (code ldWs f) 0 0 0 (l.toNat * 64 + o.toNat) g)
  | .ldp d a i g => some (rImm 0x23 d.toNat 0 a.toNat 0 0 i g)
  | .stp d a i g => some (rImm 0x24 d.toNat 0 a.toNat 0 0 i g)
  | .ldx f d a b g => some (r1 0x25 d.toNat (code ldWs f) a.toNat b.toNat 0 g)
  | .stx f d a b g => some (r1 0x26 d.toNat (code stWs f) a.toNat b.toNat 0 g)
  | .aadd o w d a b g => some (r1 0x28 d.toNat (code aOrds o + 4 * b01 w) a.toNat b.toNat 0 g)
  | .alog f o w d a b g => some (r1 0x29 d.toNat (code aOrds o + 4 * b01 w) a.toNat b.toNat (code alogOps f) g)
  | .amm f o w d a b g => some (r1 0x2A d.toNat (code aOrds o + 4 * b01 w) a.toNat b.toNat (code mmOps f) g)
  | .aswp o w d a b g => some (r1 0x2B d.toNat (code aOrds o + 4 * b01 w) a.toNat b.toNat 0 g)
  | .acas o w d a b c g => some (r2 0x2C d.toNat (code aOrds o + 4 * b01 w) a.toNat b.toNat 0 (c.toNat * 4096) g)
  | .spawn d a b g => some (r1 0x30 d.toNat 0 a.toNat b.toNat 0 g)
  | .go a g => some (r1 0x31 0 0 a.toNat 0 0 g)
  | .home g => some (rBare 0x32 0 0 g)
  | .lsend d a s g => some (r2 0x34 d.toNat 0 a.toNat 0 0 s.toNat g)
  | .lrecv d g => some (rBare 0x35 d.toNat 0 g)
  | .lpeek d g => some (rBare 0x36 d.toNat 0 g)
  | .csyncSig g => some (rBare 0x37 0 0 g)
  | .csyncWait g => some (rBare 0x37 0 1 g)
  | .post rel trig d a b t g => some (r2 0x38 d.toNat (b01 rel) a.toNat b.toNat 0 (b01 trig * 64 + t.toNat) g)
  | .recv acq nw d (.reg a) b g => some (r1 0x39 d.toNat (b01 acq + 2 * b01 nw) a.toNat b.toNat 0 g)
  | .recv acq nw d (.imm t) b g => some (r2 0x39 d.toNat (b01 acq + 2 * b01 nw) 0 b.toNat 0 t.toNat g)
  | .bind d a t g => some (r2 0x3A d.toNat 0 a.toNat 0 0 t.toNat g)
  | .unbind d t g => some (r2 0x3B d.toNat 0 0 0 0 t.toNat g)
  | .rebind d t g => some (r2 0x3B d.toNat 1 0 0 0 t.toNat g)
  | .exch l g => some (rBare 0x3C 0 l.toNat g)
  | .bar l g => some (rBare 0x3D 0 l.toNat g)
  | .barx op l d a g => some (r1 0x3E d.toNat l.toNat a.toNat 0 (code barOps op) g)
  | .barxNc op l d g => some (r2 0x3E d.toNat l.toNat 0 0 (code barOps op) 1 g)
  | .bara l a g => some (r1 0x3F 0 l.toNat a.toNat 0 0 g)
  | .baraImm l c g => some (r2 0x3F 0 l.toNat 0 0 0 c.toNat g)
  | .vadd t o d a b g => some (r1 0x40 d.toNat (code laneTs t) a.toNat b.toNat (code ovfs o) g)
  | .vsub t o d a b g => some (r1 0x41 d.toNat (code laneTs t) a.toNat b.toNat (code ovfs o) g)
  | .vmul t o d a b g => some (r1 0x42 d.toNat (code laneTs t) a.toNat b.toNat (code ovfs o) g)
  | .vfma t d a b c g => some (r2 0x43 d.toNat (code laneTs t) a.toNat b.toNat 0 (c.toNat * 4096) g)
  | .vmin t o d a b g => some (r1 0x44 d.toNat (code laneTs t) a.toNat b.toNat (code ovfs o) g)
  | .vmax t o d a b g => some (r1 0x45 d.toNat (code laneTs t) a.toNat b.toNat (code ovfs o) g)
  | .vabs t o d a g => some (r1 0x46 d.toNat (code laneTs t) a.toNat 0 (code ovfs o) g)
  | .vneg t o d a g => some (r1 0x47 d.toNat (code laneTs t) a.toNat 0 (code ovfs o) g)
  | .vlog f d a b g => some (r1 0x48 d.toNat (code vlogOps f) a.toNat b.toNat 0 g)
  | .vsh f t d a (.reg b) g => some (r1 0x49 d.toNat (code laneTs t) a.toNat b.toNat (code vshOps f) g)
  | .vsh f t d a (.imm n) g => some (r2 0x49 d.toNat (code laneTs t) a.toNat 0 (code vshOps f) n.toNat g)
  | .vcmp f t d a b g => some (r1 0x4A d.toNat (code laneTs t) a.toNat b.toNat (code vcmpOps f) g)
  | .vsel d c a b g => some (r2 0x4B d.toNat 0 a.toNat b.toNat 0 (c.toNat * 4096) g)
  | .vdiv t d a b g => some (r1 0x4C d.toNat (code laneTs t) a.toNat b.toNat 0 g)
  | .vsqrt t d a g => some (r1 0x4D d.toNat (code laneTs t) a.toNat 0 0 g)
  | .vmulh t u d a b g => some (r1 0x4E d.toNat (code laneTs t) a.toNat b.toNat (b01 u) g)
  | .vavg t u d a b g => some (r1 0x4F d.toNat (code laneTs t) a.toNat b.toNat (b01 u) g)
  | .vcvt dt st d a none g => some (r1 0x50 d.toNat (code laneTs dt) a.toNat 0 (code laneTs st) g)
  | .vcvt dt st d a (some h) g => some (r2 0x50 d.toNat (code laneTs dt) a.toNat 0 (code laneTs st) h.toNat g)
  | .pdec n dt d a g => some (r1 0x51 d.toNat n.toNat a.toNat 0 (code laneTs dt) g)
  | .penc n st d a g => some (r1 0x52 d.toNat n.toNat a.toNat 0 (code laneTs st) g)
  | .pload n a g => some (r1 0x53 0 n.toNat a.toNat 0 0 g)
  | .vshuf t d a b g => some (r1 0x54 d.toNat (code laneTs t) a.toNat b.toNat 0 g)
  | .vrot t d a r g => some (r2 0x54 d.toNat (code laneTs t) a.toNat 0 0 r.toNat g)
  | .vzip t none d a b g => some (r1 0x55 d.toNat (code laneTs t) a.toNat b.toNat 0 g)
  | .vzip t (some m) d a b g => some (r2 0x55 d.toNat (code laneTs t) a.toNat b.toNat 0 (code zipModes m) g)
  | .vred f t d a g => some (r1 0x56 d.toNat (code laneTs t) a.toNat 0 (code vredOps f) g)
  | .vdot t d a b g => some (r1 0x57 d.toNat (code laneTs t) a.toNat b.toNat 0 g)
  | .vld d a i g => some (rImm 0x58 d.toNat 0 a.toNat 0 0 i g)
  | .vst d a i g => some (rImm 0x59 d.toNat 0 a.toNat 0 0 i g)
  | .vmov d a g => some (r1 0x5A d.toNat 0 a.toNat 0 0 g)
  | .vmovQm d a g => some (r1 0x5A d.toNat 1 a.toNat 0 0 g)
  | .vmovMq d a g => some (r1 0x5A d.toNat 2 a.toNat 0 0 g)
  | .vsplat t d a g => some (r1 0x5B d.toNat (code laneTs t) a.toNat 0 0 g)
  | .vlaneExt t d a k g => some (r2 0x5C d.toNat (code laneTs t) a.toNat 0 0 k.toNat g)
  | .vlaneIns t d a k g => some (r2 0x5C d.toNat (code laneTs t) a.toNat 0 1 k.toNat g)
  | .rep h s p => some ⟨0x5D, 2, 0, 0, 0, 0, false, 0, 0, p.toNat * 256 + s.toNat * 8 + h.toNat⟩
  | .vpack f d a g => some (r1 0x5E d.toNat (code packFs f) a.toNat 0 0 g)
  | .vunpk f d a g => some (r1 0x5F d.toNat (code packFs f) a.toNat 0 0 g)
  | .ezmm c d a b y g => some (rSync 0x60 d.toNat (b01 c) a.toNat b.toNat 0 y 1 g)
  | .ezmms c d a b y g => some (rSync 0x61 d.toNat (b01 c) a.toNat b.toNat 0 y 1 g)
  | .ezring d a y g => some (rSync 0x62 d.toNat 0 a.toNat 0 0 y 1 g)
  | .ezfmt d c p sp y g =>
    some (r2 0x65 d.toNat 0 0 0 0 (selOf y * 2048 + b01 sp * 64 + p.toNat * 16 + c.toNat) g)
  | .ezpush d n y g => some (r2 0x63 d.toNat 0 0 0 0 (selOf y * 2048 + n.toNat) g)
  | .ezpop d n y g => some (r2 0x64 d.toNat 0 0 0 0 (selOf y * 2048 + n.toNat) g)
  | .ezqry d k g => some (r2 0x6B d.toNat 0 0 0 0 k.toNat g)
  | .ezzld d a y g => some (rSync 0x66 d.toNat 0 a.toNat 0 0 y 1 g)
  | .ezzst d a m y g => some (rSync 0x67 d.toNat 0 a.toNat 0 (code zstModes m) y 1 g)
  | .ezzclr d y g => some (rSync 0x68 d.toNat 0 0 0 0 y (tcOf g) g)
  | .ezwf y g => some (rSync 0x69 0 0 0 0 0 y (tcOf g) g)
  | .ezchk on y g => some (rSync 0x6A 0 (b01 on) 0 0 0 y (tcOf g) g)
  | .copy q a b c y g =>
    some (r3 0x6C q.toNat 0 a.toNat b.toNat 0 (c.toNat * 0x1000_0000 + selOf y * 0x80_0000) g)
  | .copy2 q a y g => some (rSync 0x6D q.toNat 0 a.toNat 0 0 y 1 g)
  | .tload q a p y g => some (r2 0x6E q.toNat 0 a.toNat 0 0 (selOf y * 2048 + code tPols p) g)
  | .join m g => some (r2 0x6F 0 0 0 0 0 m.toNat g)
  | .drain p g => some (rBare 0x70 0 (code paths p) g)
  | .cqst d g => some (rBare 0x71 d.toNat 0 g)
  | .semw d t g => some (r2 0x72 d.toNat 0 0 0 0 t.toNat g)
  | .sems d i g => some (r2 0x73 d.toNat 0 0 0 0 i.toNat g)
  | .semrd d a g => some (r1 0x74 d.toNat 0 a.toNat 0 0 g)
  | .semini d a g => some (r1 0x75 d.toNat 0 a.toNat 0 0 g)
  | _ => none

/-! ### From fields to the one instruction that can have them -/

def reg (n : Nat) : Reg := BitVec.ofNat 4 n
def guardOf (r : Raw) : Guard := if r.tc = 0 then .bare else if r.ge then .on (reg r.gp) else .always
def immOf (r : Raw) : Imm :=
  if r.tc = 2 then .i16 (BitVec.ofNat 16 r.imm) else if r.tc = 3 then .i32 (BitVec.ofNat 32 r.imm) else .none
def selector (n : Nat) : Option Reg := if 16 ≤ n then some (reg (n - 16)) else none
def syncOf (r : Raw) : Sync := if r.tc = 2 then .field (selector (bits r.imm 15 11)) else .short

/-- Majors 0x00 to 0x0F. -/
def cand0 (r : Raw) : Option Instr :=
  let g := guardOf r; let d := reg r.d; let a := reg r.a; let b := reg r.b; let i := immOf r
  if r.major = 0x00 then some .nop
  else if r.major = 0x01 then some (.br i g)
  else if r.major = 0x02 then some (.brx d g)
  else if r.major = 0x03 then some (.call d i g)
  else if r.major = 0x04 then some (.callx d a g)
  else if r.major = 0x05 then some (.loop d (BitVec.ofNat 16 r.imm) g)
  else if r.major = 0x06 then some (if r.f = 1 then .fetchReg a g else .fetch i g)
  else if r.major = 0x07 then some (.stop g)
  else if r.major = 0x08 then some (.yield g)
  else if r.major = 0x09 then some (.safept (BitVec.ofNat 27 r.imm))
  else if r.major = 0x0A then some (.rdsys d (BitVec.ofNat 12 r.imm) g)
  else if r.major = 0x0B then some (.fenceCore g)
  else if r.major = 0x0C then idSels[r.f]?.map (fun f => .id f d g)
  else if r.major = 0x0D then plogOps[r.f]?.map (fun f => .plog f d a b g)
  else if r.major = 0x0E then some (if r.f = 1 then .pmovPw a g else .pmov d g)
  else if r.major = 0x0F then some (.pset (decide (r.f = 1)) d g)
  else none

/-- Majors 0x10 to 0x1F. -/
def cand1 (r : Raw) : Option Instr :=
  let g := guardOf r; let d := reg r.d; let a := reg r.a; let b := reg r.b; let i := immOf r
  if r.major = 0x10 then aluOps[r.f]?.map (fun f => .alu f d a b g)
  else if r.major = 0x11 then shOps[r.f]?.map (fun f => .shf f d a b g)
  else if r.major = 0x12 then mulOps[r.f]?.map (fun f => .mul f d a b g)
  else if r.major = 0x13 then divOps[r.f]?.map (fun f => .div f d a b g)
  else if r.major = 0x14 then mmOps[r.f]?.map (fun f => .minmax f d a b g)
  else if r.major = 0x15 then bitOps[r.f]?.map (fun f => .bitc f d a g)
  else if r.major = 0x16 then
    some (if r.f = 1 then .bextReg d a b g else .bext d a (BitVec.ofNat 7 r.imm) (BitVec.ofNat 7 (r.imm / 128)) g)
  else if r.major = 0x17 then
    some (if r.f = 1 then .binsReg d a b g else .bins d a (BitVec.ofNat 7 r.imm) (BitVec.ofNat 7 (r.imm / 128)) g)
  else if r.major = 0x18 then some (.addi d a i g)
  else if r.major = 0x19 then (if r.f < 2 then none else aluiOps[r.f - 2]?.map (fun f => .alui f d a i g))
  else if r.major = 0x1A then shOps[r.f]?.map (fun f => .shfi f d a (BitVec.ofNat 6 r.imm) g)
  else if r.major = 0x1B then some (if r.f = 1 then .movhi d (BitVec.ofNat 32 r.imm) g else .movi d i g)
  else if r.major = 0x1C then some (.sel d (reg (r.imm / 4096)) a b g)
  else if r.major = 0x1D then some (if r.f = 1 then .mkrel d a b g else .mkadr d a b g)
  else if r.major = 0x1E then cmpOps[r.f]?.map (fun f => .cmp f d a b g)
  else if r.major = 0x1F then cmpOps[r.f]?.map (fun f => .cmpi f d a i g)
  else none

/-- Majors 0x20 to 0x2F. -/
def cand2 (r : Raw) : Option Instr :=
  let g := guardOf r; let d := reg r.d; let a := reg r.a; let b := reg r.b; let i := immOf r
  let w := decide (4 ≤ r.f)
  if r.major = 0x20 then ldWs[r.f]?.map (fun f => .ld f d a i g)
  else if r.major = 0x21 then stWs[r.f]?.map (fun f => .st f d a i g)
  else if r.major = 0x22 then
    ldWs[r.f]?.map (fun f => .ldl f d (BitVec.ofNat 10 (r.imm / 64)) (BitVec.ofNat 6 r.imm) g)
  else if r.major = 0x23 then some (.ldp d a i g)
  else if r.major = 0x24 then some (.stp d a i g)
  else if r.major = 0x25 then ldWs[r.f]?.map (fun f => .ldx f d a b g)
  else if r.major = 0x26 then stWs[r.f]?.map (fun f => .stx f d a b g)
  else if r.major = 0x28 then aOrds[r.f % 4]?.map (fun o => .aadd o w d a b g)
  else if r.major = 0x29 then
    aOrds[r.f % 4]?.bind (fun o => alogOps[r.fx]?.map (fun f => .alog f o w d a b g))
  else if r.major = 0x2A then
    aOrds[r.f % 4]?.bind (fun o => mmOps[r.fx]?.map (fun f => .amm f o w d a b g))
  else if r.major = 0x2B then aOrds[r.f % 4]?.map (fun o => .aswp o w d a b g)
  else if r.major = 0x2C then aOrds[r.f % 4]?.map (fun o => .acas o w d a b (reg (r.imm / 4096)) g)
  else none

/-- Majors 0x30 to 0x3F. -/
def cand3 (r : Raw) : Option Instr :=
  let g := guardOf r; let d := reg r.d; let a := reg r.a; let b := reg r.b
  let t : BitVec 6 := BitVec.ofNat 6 r.imm; let l : BitVec 3 := BitVec.ofNat 3 r.f
  if r.major = 0x30 then some (.spawn d a b g)
  else if r.major = 0x31 then some (.go a g)
  else if r.major = 0x32 then some (.home g)
  else if r.major = 0x34 then some (.lsend d a (BitVec.ofNat 4 r.imm) g)
  else if r.major = 0x35 then some (.lrecv d g)
  else if r.major = 0x36 then some (.lpeek d g)
  else if r.major = 0x37 then some (if r.f = 1 then .csyncWait g else .csyncSig g)
  else if r.major = 0x38 then some (.post (decide (r.f = 1)) (decide (64 ≤ r.imm)) d a b t g)
  else if r.major = 0x39 then
    some (.recv (decide (r.f % 2 = 1)) (decide (2 ≤ r.f)) d (if r.tc = 2 then .imm t else .reg a) b g)
  else if r.major = 0x3A then some (.bind d a t g)
  else if r.major = 0x3B then some (if r.f = 1 then .rebind d t g else .unbind d t g)
  else if r.major = 0x3C then some (.exch l g)
  else if r.major = 0x3D then some (.bar l g)
  else if r.major = 0x3E then
    barOps[r.fx]?.map (fun op => if r.tc = 2 then .barxNc op l d g else .barx op l d a g)
  else if r.major = 0x3F then some (if r.tc = 2 then .baraImm l (BitVec.ofNat 15 r.imm) g else .bara l a g)
  else none

/-- Majors 0x40 to 0x4F. -/
def cand4 (r : Raw) : Option Instr :=
  let g := guardOf r; let d := reg r.d; let a := reg r.a; let b := reg r.b; let u := decide (r.fx = 1)
  if r.major = 0x48 then vlogOps[r.f]?.map (fun f => .vlog f d a b g)
  else if r.major = 0x4B then some (.vsel d (reg (r.imm / 4096)) a b g)
  else laneTs[r.f]?.bind (fun t =>
    if r.major = 0x40 then ovfs[r.fx]?.map (fun o => .vadd t o d a b g)
    else if r.major = 0x41 then ovfs[r.fx]?.map (fun o => .vsub t o d a b g)
    else if r.major = 0x42 then ovfs[r.fx]?.map (fun o => .vmul t o d a b g)
    else if r.major = 0x43 then some (.vfma t d a b (reg (r.imm / 4096)) g)
    else if r.major = 0x44 then ovfs[r.fx]?.map (fun o => .vmin t o d a b g)
    else if r.major = 0x45 then ovfs[r.fx]?.map (fun o => .vmax t o d a b g)
    else if r.major = 0x46 then ovfs[r.fx]?.map (fun o => .vabs t o d a g)
    else if r.major = 0x47 then ovfs[r.fx]?.map (fun o => .vneg t o d a g)
    else if r.major = 0x49 then
      vshOps[r.fx]?.map (fun f => .vsh f t d a (if r.tc = 2 then .imm (BitVec.ofNat 7 r.imm) else .reg b) g)
    else if r.major = 0x4A then vcmpOps[r.fx]?.map (fun f => .vcmp f t d a b g)
    else if r.major = 0x4C then some (.vdiv t d a b g)
    else if r.major = 0x4D then some (.vsqrt t d a g)
    else if r.major = 0x4E then some (.vmulh t u d a b g)
    else if r.major = 0x4F then some (.vavg t u d a b g)
    else none)

/-- Majors 0x50 to 0x5F. -/
def cand5 (r : Raw) : Option Instr :=
  let g := guardOf r; let d := reg r.d; let a := reg r.a; let b := reg r.b; let i := immOf r
  let p : BitVec 2 := BitVec.ofNat 2 r.f; let k : BitVec 4 := BitVec.ofNat 4 r.imm
  if r.major = 0x50 then
    laneTs[r.f]?.bind (fun dt => laneTs[r.fx]?.map (fun st =>
      .vcvt dt st d a (if r.tc = 2 then some (BitVec.ofNat 3 r.imm) else none) g))
  else if r.major = 0x51 then laneTs[r.fx]?.map (fun t => .pdec p t d a g)
  else if r.major = 0x52 then laneTs[r.fx]?.map (fun t => .penc p t d a g)
  else if r.major = 0x53 then some (.pload p a g)
  else if r.major = 0x54 then laneTs[r.f]?.map (fun t => if r.tc = 2 then .vrot t d a k g else .vshuf t d a b g)
  else if r.major = 0x55 then
    laneTs[r.f]?.bind (fun t =>
      if r.tc = 2 then zipModes[r.imm]?.map (fun m => .vzip t (some m) d a b g) else some (.vzip t none d a b g))
  else if r.major = 0x56 then laneTs[r.f]?.bind (fun t => vredOps[r.fx]?.map (fun f => .vred f t d a g))
  else if r.major = 0x57 then laneTs[r.f]?.map (fun t => .vdot t d a b g)
  else if r.major = 0x58 then some (.vld d a i g)
  else if r.major = 0x59 then some (.vst d a i g)
  else if r.major = 0x5A then
    some (if r.f = 2 then .vmovMq d a g else if r.f = 1 then .vmovQm d a g else .vmov d a g)
  else if r.major = 0x5B then laneTs[r.f]?.map (fun t => .vsplat t d a g)
  else if r.major = 0x5C then
    laneTs[r.f]?.map (fun t => if r.fx = 1 then .vlaneIns t d a k g else .vlaneExt t d a k g)
  else if r.major = 0x5D then
    some (.rep (BitVec.ofNat 3 r.imm) (BitVec.ofNat 4 (r.imm / 8)) (BitVec.ofNat 8 (r.imm / 256)))
  else if r.major = 0x5E then packFs[r.f]?.map (fun f => .vpack f d a g)
  else if r.major = 0x5F then packFs[r.f]?.map (fun f => .vunpk f d a g)
  else none

/-- Majors 0x60 to 0x75. -/
def cand6 (r : Raw) : Option Instr :=
  let g := guardOf r; let d := reg r.d; let a := reg r.a; let b := reg r.b
  let y := syncOf r; let c := decide (r.f = 1); let sl := selector (bits r.imm 15 11)
  let n : BitVec 11 := BitVec.ofNat 11 r.imm
  if r.major = 0x60 then some (.ezmm c d a b y g)
  else if r.major = 0x61 then some (.ezmms c d a b y g)
  else if r.major = 0x62 then some (.ezring d a y g)
  else if r.major = 0x63 then some (.ezpush d n sl g)
  else if r.major = 0x64 then some (.ezpop d n sl g)
  else if r.major = 0x65 then
    some (.ezfmt d (BitVec.ofNat 4 r.imm) (BitVec.ofNat 2 (r.imm / 16)) (bit r.imm 6) sl g)
  else if r.major = 0x66 then some (.ezzld d a y g)
  else if r.major = 0x67 then zstModes[r.imm % 4]?.map (fun m => .ezzst d a m y g)
  else if r.major = 0x68 then some (.ezzclr d y g)
  else if r.major = 0x69 then some (.ezwf y g)
  else if r.major = 0x6A then some (.ezchk c y g)
  else if r.major = 0x6B then some (.ezqry d (BitVec.ofNat 3 r.imm) g)
  else if r.major = 0x6C then
    some (.copy d a b (reg (r.imm / 0x1000_0000)) (selector (bits r.imm 27 23)) g)
  else if r.major = 0x6D then some (.copy2 d a y g)
  else if r.major = 0x6E then tPols[r.imm % 4]?.map (fun p => .tload d a p sl g)
  else if r.major = 0x6F then some (.join (BitVec.ofNat 5 r.imm) g)
  else if r.major = 0x70 then paths[r.f]?.map (fun p => .drain p g)
  else if r.major = 0x71 then some (.cqst d g)
  else if r.major = 0x72 then some (.semw d (BitVec.ofNat 16 r.imm) g)
  else if r.major = 0x73 then some (.sems d (BitVec.ofNat 16 r.imm) g)
  else if r.major = 0x74 then some (.semrd d a g)
  else if r.major = 0x75 then some (.semini d a g)
  else none

/-- The one instruction the fields can belong to, by major (R135). -/
def candidate (r : Raw) : Option Instr :=
  if r.major < 0x10 then cand0 r else if r.major < 0x20 then cand1 r else if r.major < 0x30 then cand2 r
  else if r.major < 0x40 then cand3 r else if r.major < 0x50 then cand4 r else if r.major < 0x60 then cand5 r
  else cand6 r

/-- Why a word is no instruction. -/
inductive Reject
  /-- The major, F or FX value is reserved (R135 to R138). -/
  | reserved
  /-- A register is outside its file, or a field outside its range (R123, R126). -/
  | field
  /-- A field the form does not use is not zero, or its tail class is not accepted (R122, R126). -/
  | unused
  deriving DecidableEq, Repr

/-- Decode fields: the candidate must be well formed and have exactly these fields (R126 step 2). -/
def decodeRaw (r : Raw) : Except Reject Instr :=
  match candidate r with
  | none => .error .reserved
  | some i =>
    if WellFormed.ok i = false then .error .field
    else if rawOf i ≠ some r then .error .unused
    else .ok i

/-- Decode a head with its tail (R121, R122). -/
def decodeHead (head tail : Nat) : Except Reject Instr := decodeRaw (unpack head tail)

/-! ### Control-thread custom instructions (R139, R140) -/

def xr (n : Nat) : XReg := BitVec.ofNat 5 n

/-- Decode a custom-0 or custom-1 word; none for any other funct3 or funct7, and for a nonzero field where R139 requires zero. -/
def decodeDt (w : Nat) : Option Instr :=
  let f7 := bits w 31 25; let rs2 := bits w 24 20; let rs1 := bits w 19 15
  let f3 := bits w 14 12; let rd := bits w 11 7; let op := bits w 6 0
  if op = 0x0B then
    if f3 ≠ 0 then none
    else if f7 = 0 then some (.dtBcast (xr rd) (xr rs1) (xr rs2))
    else if f7 = 1 then some (.dtStart (xr rd) (xr rs1) (xr rs2))
    else if rs2 ≠ 0 then none
    else if f7 = 2 then some (.dtMtstat (xr rd) (xr rs1))
    else if f7 = 3 then some (.dtMtkill (xr rd) (xr rs1))
    else if f7 = 4 then some (.dtMtwait (xr rd) (xr rs1))
    else if f7 = 5 then some (.dtMtgo (xr rd) (xr rs1))
    else if f7 = 6 ∧ rs1 = 0 ∧ rd = 0 then some .dtCbar
    else none
  else if op = 0x2B then
    if f3 = 1 then
      (if rd = 0 ∧ rs1 = 0 ∧ bits w 31 21 = 0 then some (.dtNxset (bit w 20)) else none)
    else if f3 ≠ 0 then none
    else if f7 = 6 then some (.dtLmigr (xr rd) (xr rs1) (xr rs2))
    else if rs2 ≠ 0 then none
    else if f7 = 0 then some (.dtLaunch (xr rd) (xr rs1))
    else if f7 = 1 then some (.dtLaunchW (xr rd) (xr rs1))
    else if f7 = 2 then (if rs1 = 0 ∧ rd = 0 then some .dtTrigger else none)
    else if f7 = 3 then some (.dtJoink (xr rd) (xr rs1))
    else if f7 = 4 then some (.dtPark (xr rd) (xr rs1))
    else if f7 = 5 then (if rd = 0 then some (.dtResume (xr rs1)) else none)
    else if f7 = 7 then some (.dtCaps (xr rd) (xr rs1))
    else if f7 = 8 then some (.dtHarvest (xr rd) (xr rs1))
    else none
  else none

/-- A word of R139: funct7, rs2, rs1, funct3, rd, opcode. -/
def dtWord (f7 rs2 rs1 f3 rd op : Nat) : Nat :=
  f7 * 0x200_0000 + rs2 * 0x10_0000 + rs1 * 0x8000 + f3 * 0x1000 + rd * 0x80 + op

/-- The word of a custom instruction (R139). -/
def encodeDt : Instr → Option Nat
  | .dtBcast rd r1 r2 => some (dtWord 0 r2.toNat r1.toNat 0 rd.toNat 0x0B)
  | .dtStart rd r1 r2 => some (dtWord 1 r2.toNat r1.toNat 0 rd.toNat 0x0B)
  | .dtMtstat rd r1 => some (dtWord 2 0 r1.toNat 0 rd.toNat 0x0B)
  | .dtMtkill rd r1 => some (dtWord 3 0 r1.toNat 0 rd.toNat 0x0B)
  | .dtMtwait rd r1 => some (dtWord 4 0 r1.toNat 0 rd.toNat 0x0B)
  | .dtMtgo rd r1 => some (dtWord 5 0 r1.toNat 0 rd.toNat 0x0B)
  | .dtCbar => some (dtWord 6 0 0 0 0 0x0B)
  | .dtLaunch rd r1 => some (dtWord 0 0 r1.toNat 0 rd.toNat 0x2B)
  | .dtLaunchW rd r1 => some (dtWord 1 0 r1.toNat 0 rd.toNat 0x2B)
  | .dtTrigger => some (dtWord 2 0 0 0 0 0x2B)
  | .dtJoink rd r1 => some (dtWord 3 0 r1.toNat 0 rd.toNat 0x2B)
  | .dtPark rd r1 => some (dtWord 4 0 r1.toNat 0 rd.toNat 0x2B)
  | .dtResume r1 => some (dtWord 5 0 r1.toNat 0 0 0x2B)
  | .dtLmigr rd r1 r2 => some (dtWord 6 r2.toNat r1.toNat 0 rd.toNat 0x2B)
  | .dtCaps rd r1 => some (dtWord 7 0 r1.toNat 0 rd.toNat 0x2B)
  | .dtHarvest rd r1 => some (dtWord 8 0 r1.toNat 0 rd.toNat 0x2B)
  | .dtNxset nx => some (dtWord 0 (b01 nx) 0 1 0 0x2B)
  | _ => none

/-! ### Queue records (R317) -/

/-- The fields of a record: OP, FL, A and B. -/
structure Rec where
  op : Nat
  fl : Nat
  a : Nat
  b : Nat
  deriving DecidableEq, Repr

def unpackRec (w : Nat) : Rec := ⟨bits w 7 0, bits w 15 8, bits w 63 16, bits w 127 64⟩
def packRec (r : Rec) : Nat := r.op + r.fl * 256 + r.a * 65536 + r.b * 2 ^ 64

/-- The fields of a record instruction. -/
def recOf : Instr → Option Rec
  | .nopq => some ⟨0, 0, 0, 0⟩
  | .semwait c v b => some ⟨1, code qConds c, v.toNat, b.toNat⟩
  | .semsig i b => some ⟨2, 0, i.toNat, b.toNat⟩
  | .semset v b => some ⟨3, 0, v.toNat, b.toNat⟩
  | .klaunch s b => some ⟨4, 0, s.toNat, b.toNat⟩
  | .kcopy b => some ⟨5, 0, 0, b.toNat⟩
  | .qbar i n => some ⟨6, 0, n.toNat * 256 + i.toNat, 0⟩
  | .intr e => some ⟨7, 0, e.toNat, 0⟩
  | .jump b => some ⟨8, 0, 0, b.toNat⟩
  | .callq b => some ⟨9, 0, 0, b.toNat⟩
  | .retq => some ⟨10, 0, 0, 0⟩
  | .waitidle => some ⟨11, 0, 0, 0⟩
  | .stamp dn b => some ⟨12, b01 dn, 0, b.toNat⟩
  | .fenceq => some ⟨13, 0, 0, 0⟩
  | _ => none

/-- The one record the fields can belong to. -/
def candRec (r : Rec) : Option Instr :=
  let v : BitVec 48 := BitVec.ofNat 48 r.a; let b : Word := BitVec.ofNat 64 r.b
  if r.op = 0 then some .nopq
  else if r.op = 1 then qConds[r.fl]?.map (fun c => .semwait c v b)
  else if r.op = 2 then some (.semsig v b)
  else if r.op = 3 then some (.semset v b)
  else if r.op = 4 then some (.klaunch v b)
  else if r.op = 5 then some (.kcopy b)
  else if r.op = 6 then some (.qbar (BitVec.ofNat 6 r.a) (BitVec.ofNat 6 (r.a / 256)))
  else if r.op = 7 then some (.intr (BitVec.ofNat 11 r.a))
  else if r.op = 8 then some (.jump b)
  else if r.op = 9 then some (.callq b)
  else if r.op = 10 then some .retq
  else if r.op = 11 then some .waitidle
  else if r.op = 12 then some (.stamp (decide (r.fl = 1)) b)
  else if r.op = 13 then some .fenceq
  else none

/-- Decode a record; a reserved OP and a nonzero reserved bit are refused (R319). -/
def decodeRec (w : Nat) : Except Reject Instr :=
  match candRec (unpackRec w) with
  | none => .error .reserved
  | some i => if recOf i ≠ some (unpackRec w) then .error .unused else .ok i

/-! ### RV64IMAC (R145) -/

def ldOps : List RvLd := [.lb, .lh, .lw, .ld, .lbu, .lhu, .lwu]
def amoOps : List (Nat × AmoOp) :=
  [(0, .add), (1, .swap), (4, .xor), (8, .or), (12, .and), (16, .min), (20, .max), (24, .minu), (28, .maxu)]

/-- Immediates of the standard formats, sign-extended. -/
def immI (w : Nat) : Word := sextW (bits w 31 20) 12
def immS (w : Nat) : Word := sextW (bits w 31 25 * 32 + bits w 11 7) 12
def immB (w : Nat) : Word :=
  sextW (bits w 31 31 * 4096 + bits w 7 7 * 2048 + bits w 30 25 * 32 + bits w 11 8 * 2) 13
def immU (w : Nat) : Word := sextW (bits w 31 12 * 4096) 32
def immJ (w : Nat) : Word :=
  sextW (bits w 31 31 * 0x10_0000 + bits w 19 12 * 4096 + bits w 20 20 * 2048 + bits w 30 21 * 2) 21

/-- Register-register operations by funct7 and funct3. -/
def rvOp (f7 f3 : Nat) : Option RvOp :=
  if f7 = 0 then [RvOp.add, .sll, .slt, .sltu, .xor, .srl, .or, .and][f3]?
  else if f7 = 32 then (if f3 = 0 then some .sub else if f3 = 5 then some .sra else none)
  else if f7 = 1 then [RvOp.mul, .mulh, .mulhsu, .mulhu, .div, .divu, .rem, .remu][f3]?
  else none
def rvOpW (f7 f3 : Nat) : Option RvOp :=
  if f7 = 0 then (if f3 = 0 then some .addw else if f3 = 1 then some .sllw else if f3 = 5 then some .srlw else none)
  else if f7 = 32 then (if f3 = 0 then some .subw else if f3 = 5 then some .sraw else none)
  else if f7 = 1 then
    (if f3 = 0 then some .mulw else if f3 = 4 then some .divw else if f3 = 5 then some .divuw
     else if f3 = 6 then some .remw else if f3 = 7 then some .remuw else none)
  else none
def rvOpImm (w f3 : Nat) : Option (RvOpI × Word) :=
  let sh : Word := BitVec.ofNat 64 (bits w 25 20)
  if f3 = 1 then (if bits w 31 26 = 0 then some (.slli, sh) else none)
  else if f3 = 5 then
    (if bits w 31 26 = 0 then some (.srli, sh) else if bits w 31 26 = 16 then some (.srai, sh) else none)
  else [RvOpI.addi, .addi, .slti, .sltiu, .xori, .addi, .ori, .andi][f3]?.map (fun o => (o, immI w))
def rvOpImmW (w f3 : Nat) : Option (RvOpI × Word) :=
  let sh : Word := BitVec.ofNat 64 (bits w 24 20)
  if f3 = 0 then some (.addiw, immI w)
  else if f3 = 1 ∧ bits w 31 25 = 0 then some (.slliw, sh)
  else if f3 = 5 ∧ bits w 31 25 = 0 then some (.srliw, sh)
  else if f3 = 5 ∧ bits w 31 25 = 32 then some (.sraiw, sh)
  else none

/-- SYSTEM and MISC-MEM words. -/
def rvSystem (w f3 : Nat) : Option Rv :=
  let rd := xr (bits w 11 7); let c : BitVec 12 := BitVec.ofNat 12 (bits w 31 20)
  let r : CsrSrc := .reg (xr (bits w 19 15)); let z : CsrSrc := .imm (xr (bits w 19 15))
  if f3 = 0 then
    if w = 0x0000_0073 then some .ecall
    else if w = 0x0010_0073 then some .ebreak
    else if w = 0x1020_0073 then some .sret
    else if w = 0x1050_0073 then some .wfi
    else if bits w 31 25 = 9 ∧ bits w 11 7 = 0 then some .sfenceVma
    else none
  else if f3 = 1 then some (.csr .rw rd c r)
  else if f3 = 2 then some (.csr .rs rd c r)
  else if f3 = 3 then some (.csr .rc rd c r)
  else if f3 = 5 then some (.csr .rw rd c z)
  else if f3 = 6 then some (.csr .rs rd c z)
  else if f3 = 7 then some (.csr .rc rd c z)
  else none

/-- LR, SC and AMO words. -/
def rvAmo (w f3 : Nat) : Option Rv :=
  let f5 := bits w 31 27; let aq := bit w 26; let rl := bit w 25
  let rd := xr (bits w 11 7); let r1 := xr (bits w 19 15); let r2 := xr (bits w 24 20)
  if f3 ≠ 2 ∧ f3 ≠ 3 then none
  else if f5 = 2 then (if bits w 24 20 = 0 then some (.lr (decide (f3 = 3)) rd r1 aq rl) else none)
  else if f5 = 3 then some (.sc (decide (f3 = 3)) rd r1 r2 aq rl)
  else (amoOps.find? (fun e => e.1 = f5)).map (fun e => .amo e.2 (decide (f3 = 3)) rd r1 r2 aq rl)

/-- Decode a 32-bit standard instruction. -/
def decodeRv32 (w : Nat) : Option Rv :=
  let f7 := bits w 31 25; let f3 := bits w 14 12; let op := bits w 6 0
  let rd := xr (bits w 11 7); let r1 := xr (bits w 19 15); let r2 := xr (bits w 24 20)
  if op = 0x37 then some (.lui rd (immU w))
  else if op = 0x17 then some (.auipc rd (immU w))
  else if op = 0x6F then some (.jal rd (immJ w))
  else if op = 0x67 then (if f3 = 0 then some (.jalr rd r1 (immI w)) else none)
  else if op = 0x63 then
    (if f3 = 2 ∨ f3 = 3 then none
     else [BrOp.beq, .bne, .beq, .beq, .blt, .bge, .bltu, .bgeu][f3]?.map (fun o => .br o r1 r2 (immB w)))
  else if op = 0x03 then ldOps[f3]?.map (fun o => .load o rd r1 (immI w))
  else if op = 0x23 then [StW.b, .h, .w, .d][f3]?.map (fun o => .store o r1 r2 (immS w))
  else if op = 0x13 then (rvOpImm w f3).map (fun e => .opImm e.1 rd r1 e.2)
  else if op = 0x1B then (rvOpImmW w f3).map (fun e => .opImm e.1 rd r1 e.2)
  else if op = 0x33 then (rvOp f7 f3).map (fun o => .op o rd r1 r2)
  else if op = 0x3B then (rvOpW f7 f3).map (fun o => .op o rd r1 r2)
  else if op = 0x0F then
    (if f3 = 0 then some (.fence (decide (bits w 25 24 = 3 ∧ bits w 21 20 = 3)))
     else if f3 = 1 then some .fenceI else none)
  else if op = 0x73 then rvSystem w f3
  else if op = 0x2F then rvAmo w f3
  else none

/-- A register of the three-bit fields of compressed instructions: x8 to x15. -/
def cr (n : Nat) : XReg := xr (8 + n)

/-- Quadrant 0 of the compressed instructions. -/
def decodeC0 (h f3 : Nat) : Option Rv :=
  let rd := cr (bits h 4 2); let r1 := cr (bits h 9 7)
  let uw : Word := BitVec.ofNat 64 (bits h 5 5 * 64 + bits h 12 10 * 8 + bits h 6 6 * 4)
  let ud : Word := BitVec.ofNat 64 (bits h 6 5 * 64 + bits h 12 10 * 8)
  let u4 := bits h 10 7 * 64 + bits h 12 11 * 16 + bits h 5 5 * 8 + bits h 6 6 * 4
  if f3 = 0 then (if u4 = 0 then none else some (.opImm .addi rd (xr 2) (BitVec.ofNat 64 u4)))
  else if f3 = 2 then some (.load .lw rd r1 uw)
  else if f3 = 3 then some (.load .ld rd r1 ud)
  else if f3 = 6 then some (.store .w r1 rd uw)
  else if f3 = 7 then some (.store .d r1 rd ud)
  else none

/-- Quadrant 1 of the compressed instructions. -/
def decodeC1 (h f3 : Nat) : Option Rv :=
  let n := bits h 11 7; let rd := xr n; let i6 := sextW (bits h 12 12 * 32 + bits h 6 2) 6
  let sh := bits h 12 12 * 32 + bits h 6 2; let rp := cr (bits h 9 7); let r2 := cr (bits h 4 2)
  let ij := sextW (bits h 12 12 * 2048 + bits h 8 8 * 1024 + bits h 10 9 * 256 + bits h 6 6 * 128
    + bits h 7 7 * 64 + bits h 2 2 * 32 + bits h 11 11 * 16 + bits h 5 3 * 2) 12
  let ib := sextW (bits h 12 12 * 256 + bits h 6 5 * 64 + bits h 2 2 * 32 + bits h 11 10 * 8 + bits h 4 3 * 2) 9
  if f3 = 0 then some (.opImm .addi rd rd i6)
  else if f3 = 1 then (if n = 0 then none else some (.opImm .addiw rd rd i6))
  else if f3 = 2 then some (.opImm .addi rd (xr 0) i6)
  else if f3 = 3 then
    (if n = 2 then
      (let i := bits h 12 12 * 512 + bits h 4 3 * 128 + bits h 5 5 * 64 + bits h 2 2 * 32 + bits h 6 6 * 16
       if i = 0 then none else some (.opImm .addi (xr 2) (xr 2) (sextW i 10)))
     else if sh = 0 then none else some (.lui rd (sextW (sh * 4096) 18)))
  else if f3 = 4 then
    (if bits h 11 10 = 0 then some (.opImm .srli rp rp (BitVec.ofNat 64 sh))
     else if bits h 11 10 = 1 then some (.opImm .srai rp rp (BitVec.ofNat 64 sh))
     else if bits h 11 10 = 2 then some (.opImm .andi rp rp i6)
     else if bits h 12 12 = 0 then
       [RvOp.sub, .xor, .or, .and][bits h 6 5]?.map (fun o => .op o rp rp r2)
     else if bits h 6 5 = 0 then some (.op .subw rp rp r2)
     else if bits h 6 5 = 1 then some (.op .addw rp rp r2)
     else none)
  else if f3 = 5 then some (.jal (xr 0) ij)
  else if f3 = 6 then some (.br .beq rp (xr 0) ib)
  else some (.br .bne rp (xr 0) ib)

/-- Quadrant 2 of the compressed instructions. -/
def decodeC2 (h f3 : Nat) : Option Rv :=
  let n := bits h 11 7; let rd := xr n; let m := bits h 6 2; let rs := xr m
  let ul : Word := BitVec.ofNat 64 (bits h 3 2 * 64 + bits h 12 12 * 32 + bits h 6 4 * 4)
  let uq : Word := BitVec.ofNat 64 (bits h 4 2 * 64 + bits h 12 12 * 32 + bits h 6 5 * 8)
  let sl : Word := BitVec.ofNat 64 (bits h 8 7 * 64 + bits h 12 9 * 4)
  let sq : Word := BitVec.ofNat 64 (bits h 9 7 * 64 + bits h 12 10 * 8)
  if f3 = 0 then some (.opImm .slli rd rd (BitVec.ofNat 64 (bits h 12 12 * 32 + m)))
  else if f3 = 2 then (if n = 0 then none else some (.load .lw rd (xr 2) ul))
  else if f3 = 3 then (if n = 0 then none else some (.load .ld rd (xr 2) uq))
  else if f3 = 4 then
    (if bits h 12 12 = 0 then
      (if m = 0 then (if n = 0 then none else some (.jalr (xr 0) rd 0)) else some (.op .add rd (xr 0) rs))
     else if m = 0 then (if n = 0 then some .ebreak else some (.jalr (xr 1) rd 0))
     else some (.op .add rd rd rs))
  else if f3 = 6 then some (.store .w (xr 2) rs sl)
  else if f3 = 7 then some (.store .d (xr 2) rs sq)
  else none

/-- Decode a compressed instruction by quadrant. -/
def decodeC (h : Nat) : Option Rv :=
  let q := bits h 1 0; let f3 := bits h 15 13
  if h = 0 then none
  else if q = 0 then decodeC0 h f3 else if q = 1 then decodeC1 h f3 else if q = 2 then decodeC2 h f3 else none

/-- The instruction at a control thread's pc and its length in bytes, from the 32 bits there; none where it is illegal (R140, R145). -/
def decodeCt (w : Nat) : Option (Instr × Nat) :=
  if bits w 1 0 ≠ 3 then (decodeC (w % 65536)).map (fun r => (.controlThreadInstruction r, 2))
  else if bits w 6 0 = 0x0B ∨ bits w 6 0 = 0x2B then (decodeDt w).map (fun i => (i, 4))
  else (decodeRv32 w).map (fun r => (.controlThreadInstruction r, 4))

/-! ### Encoders -/

/-- The words of an instruction that has an encoding: a head and its tail halfwords from the lowest, a control-thread word as two halfwords, or a record as eight. -/
def encode (i : Instr) : Option (List Half) :=
  match rawOf i with
  | some r =>
    some (BitVec.ofNat 16 (headOf r) ::
      ((List.range r.tc).map (fun k => BitVec.ofNat 16 (tailOf r >>> (16 * k)))))
  | none =>
    match encodeDt i with
    | some w => some [BitVec.ofNat 16 w, BitVec.ofNat 16 (w >>> 16)]
    | none => (recOf i).map (fun r => (List.range 8).map (fun k => BitVec.ofNat 16 (packRec r >>> (16 * k))))

/-- The number held by halfwords, the lowest first. -/
def ofHalves : List Half → Nat
  | [] => 0
  | h :: hs => h.toNat + ofHalves hs * 65536

/-- The bytes of halfwords as memory holds them (R3). -/
def halfBytes (hs : List Half) : List Byte := hs.flatMap (fun h => bytesLE h.toNat 2)

end Sys2Proof.Decode

namespace Sys2Proof
open Sys2Proof.Decode Sys2Proof.Machine

/-- Whether a table word of 32 bits is a control-thread word: its opcode is custom-0 or custom-1 and it decodes as one. -/
def isDtWord (w : Nat) : Bool := (decodeDt w).isSome

/-- The head and tail of a table word: the table writes the head above the low tail halfword where it gives both. -/
def tableHead (nbits w : Nat) : Nat × Nat :=
  if nbits ≤ 16 then (w % 65536, 0) else (w >>> (nbits - 16) % 65536, w % 2 ^ (nbits - 16))

/-- The instruction the decoder reads from a word numbered as the opcode table numbers it. -/
def decodeTableWord (nbits w : Nat) : Option Instr :=
  if 64 < nbits then (decodeRec w).toOption
  else if nbits = 32 ∧ isDtWord w then decodeDt w
  else (decodeHead (tableHead nbits w).1 (tableHead nbits w).2).toOption

end Sys2Proof
end

