-- ==== Sys2Proof/Config.lean ====
section
/-! DEFINITION. What an implementation fixes, the fixed figures of the module, and the free values. A free value is an opaque constant: nothing in Lean can evaluate it. -/
namespace Sys2Proof

/-- One entry of the interleaving: which agent acts next, or how much time passes (log 5). -/
inductive Turn
  /-- An event of the module or an action of the outside world. -/
  | event (i : Instr)
  /-- The issue pipe of task `t` acts: it enters a line, issues a head, ends a line, or picks a slot. -/
  | pipe (t : Nat)
  /-- The control thread of task `t` executes its next instruction. -/
  | control (t : Nat)
  /-- Package time passes by `pt`, and every core's cycle counter by `cy`. -/
  | tick (pt cy : Nat)
  deriving DecidableEq, Repr, Inhabited

namespace Config

/-- The next turn where no turn is listed (log 5, log 6). -/
opaque freeTurn : Nat → Turn
/-- A free word: a value the spec leaves open (log 6). -/
opaque freeWord : Nat → Word
/-- A free choice between two outcomes the spec allows (log 6). -/
opaque freeBool : Nat → Bool
/-- The value an SBI base-extension call returns, by function and argument (R145, log 10). -/
opaque sbiBase : Word → Word → Word
/-- Whether stval of an illegal instruction holds its bits, or 0; the RISC-V rules leave it open (log 24). -/
opaque illegalStval : Bool
/-- Whether stval of a breakpoint holds its pc, or 0; the RISC-V rules leave it open (log 24). -/
opaque ebreakStval : Bool
/-- The depth the module's model predicts will meet a cap, from the cap and the draw (R431, log 11). -/
opaque predictDepth : Nat → Nat → Nat
/-- Whether a translator uses the entry it holds on a lease, where the table may have changed since, by free value and page (R397, R398, log 19). -/
opaque oldEntry : Nat → Nat → Bool
/-- The rank that a hash of two modules and a channel gives a port (R417, log 96). -/
opaque portHash : Nat → Nat → Nat → Nat → Nat
/-- SHAKE256 of a string of bytes, as a number (R435, log 15). -/
opaque shake256 : List Byte → Nat
/-- The seed that the PUF yields with helper data (R435, log 15). -/
opaque pufSeed : List Byte → BitVec 256
/-- The answer of the device to an SPDM request: its code, the measurements, the seed, the certificate, and the number of answers given before (R435, log 15). -/
opaque spdmAnswer : Nat → List Nat → BitVec 256 → List Byte → Nat → Word

/-- Run budget in lines (R36). -/
def runBudget : Nat := 1024
/-- Spawn allowance (R40). -/
def spawnLimit : Nat := 64
/-- Length of a lease in pt (R397). -/
def leaseLen : Nat := 32000
/-- Logical columns of a die (R50). -/
def width (d : Nat) : Nat := if d ≤ 11 then 64 else 32
/-- Physical positions of a die's rows (R15). -/
def physWidth (d : Nat) : Nat := if d ≤ 11 then 68 else 34
/-- Vegaken dies are d12 to d15 (R2). -/
def vegaken (d : Nat) : Bool := decide (12 ≤ d)
/-- Logical tile groups of a die (R15). -/
def groupsOf (d : Nat) : Nat := if d ≤ 11 then 16 else 8
/-- Die-SRAM bytes of a die (R17). -/
def dieSram (d : Nat) : Nat := if d ≤ 11 then 0x6000_0000 else 0x3000_0000
/-- Group-SRAM bytes (R17). -/
def groupSram : Nat := 0x600_0000

/-- Die numbers by position in the 4 × 4 grid, Y major (R11). -/
def dieGrid : List Nat := [12, 0, 1, 13, 2, 3, 4, 5, 6, 7, 8, 9, 14, 10, 11, 15]
/-- Grid column of a die (R11). -/
def dieX (d : Nat) : Nat := dieGrid.idxOf d % 4
/-- Grid row of a die (R11). -/
def dieY (d : Nat) : Nat := dieGrid.idxOf d / 4
/-- The die at a grid position (R11). -/
def dieAt (x y : Nat) : Nat := dieGrid.getD (4 * y + x) 0
/-- Home gateway of each die (R11). -/
def homeGateway (d : Nat) : Nat := [0, 1, 7, 7, 1, 2, 6, 6, 4, 3, 5, 4, 0, 2, 5, 3].getD d 0
/-- Attach dies of each gateway (R12). -/
def attach (g : Nat) : Nat × Nat :=
  [(12, 0), (1, 13), (13, 5), (9, 15), (15, 11), (10, 14), (14, 6), (2, 12)].getD g (0, 0)
/-- Die-grid crossings between two dies (R22). -/
def crossings (a b : Nat) : Nat :=
  ((dieX a : Int) - dieX b).natAbs + ((dieY a : Int) - dieY b).natAbs

/-- First byte of program data that is absent (R54). -/
def undoBase : Nat := 0x27_8000
/-- First byte of the caravanserai (R54). -/
def caravanBase : Nat := 0x2F_8000
/-- First offset that is not present (R54). -/
def columnEnd : Nat := 0x30_0000
/-- Undo-log lines (R383). -/
def undoLines : Nat := 8192

end Config
end Sys2Proof
end

