-- ==== Sys2Proof/Machine/State.lean ====
section
/-! DEFINITION. The state of the TZ16-A module as plain data, the reasons a step can stop, and the state after reset. -/
namespace Sys2Proof.Machine

/-- Why the machine stops. -/
inductive Fault
  /-- Raised by a step of a module that the power-fail trap has sealed and stopped (R433, R434); only a cold reset leaves it. Safe: a stopped module makes no step. -/
  | stopped
  deriving DecidableEq, Repr

/-- Why an instruction has no meaning. -/
inductive Refusal
  /-- Raised by an arm of exec that has no meaning yet. Safe: nothing is claimed of it. -/
  | notModelled (mnemonic : String)
  deriving DecidableEq, Repr

/-- A logical coordinate: die, row, column (R49). -/
structure Coord where
  d : Nat
  y : Nat
  x : Nat
  deriving DecidableEq, Repr, Inhabited

/-- A physical core: die, row, position (R52). -/
structure Phys where
  d : Nat
  r : Nat
  p : Nat
  deriving DecidableEq, Repr, Inhabited

/-- What damages a location: an uncorrectable error (R199), or an expired ephemeral word (R409). -/
inductive Poison | none | poisoned | expired
  deriving DecidableEq, Repr, Inhabited

/-! ### Slots (R29 to R38) -/

/-- Slot states (R29). -/
inductive SlotSt | free | ready | running | waiting | travelling | faulted | stopped
  deriving DecidableEq, Repr, Inhabited

/-- Wait reasons (R47). -/
inductive Wr | none | broadcast | message | levelCopy | engineSem | barrier | linkInbox | ctSync | migrate
  deriving DecidableEq, Repr, Inhabited

/-- What a waiting slot waits for. -/
inductive Cond
  /-- Nothing, or a broadcast line. -/
  | none
  /-- A mailbox message with this tag (R279). -/
  | message (tag : Nat)
  /-- The commands of the kept cut in the queues of a mask (R261). -/
  | join (mask : Nat)
  /-- The copies of the kept cut on a path (R261). -/
  | drain (path : Nat)
  /-- A semaphore threshold (R251). -/
  | sem (idx thr : Nat)
  /-- Room in the engine-command ring (R244). -/
  | ring
  /-- The end of a level's barrier (R288). -/
  | barrier (l : Nat)
  /-- The recording of an abort (R287). -/
  | abort (l : Nat)
  /-- An entry of the link inbox (R209). -/
  | inbox
  /-- The GO bit of the slot (R210). -/
  | go
  /-- A core of the generation the head needs, true for Vegaken, since a time (R31, R359). -/
  | generation (vega : Bool) (since : Nat)
  deriving DecidableEq, Repr, Inhabited

/-- What ends the wait of a barrier head: completion, with the result where an arrival carried an operator, or the recording of an abort; `due`: the instance has completed, and the head returns once every member has taken its cut (R286 to R288, R377). -/
inductive BarEnd | due (v : Option Word) | done (v : Option Word) | recorded
  deriving DecidableEq, Repr, Inhabited

/-- One entry of a store buffer: bytes `off .. off+n−1` take `val`; `serial` orders it in the core (R65). -/
structure SbEntry where
  off : Nat
  n : Nat
  val : Nat
  serial : Nat
  deriving DecidableEq, Repr, Inhabited

/-- Identity of a microthread (R38). -/
structure Ident where
  hops : Nat
  home : Coord
  homeSlot : Nat
  nx : Bool
  sp : Bool
  hkh : Nat
  hgrp : Nat
  skh : Nat
  sgrp : Nat
  deriving DecidableEq, Repr, Inhabited

/-- A bale (R38). `arrived`: the stopping head is a local reference at its destination (R203). `ea`: its effective address as computed at departure, or the target address of a spawned child, which the sending core recomputes if the bale is returned (R155). -/
structure Bale where
  m : Vector Word 10
  pw : BitVec 16
  pc : BitVec 56
  id : Ident
  ctx : Nat
  arrived : Bool
  ea : Nat
  deriving DecidableEq, Repr

/-- The line a slot executes (R117, R127). -/
structure LineSt where
  /-- The 32 halfwords, once the line has been read or delivered. -/
  img : Option (List Half)
  /-- The line has been entered: its step-1 checks have passed (R126). -/
  entered : Bool
  /-- The number of the next head, 1 to 32; past HEADS the line ends. -/
  next : Nat
  /-- The target of a taken terminator (R125). -/
  target : Option (BitVec 56)
  /-- Resumed on another core or after a save, so not signature checked (R130). -/
  unchecked : Bool
  /-- The mask of the SAFEPT head the line has executed (R187). -/
  safept : Option (BitVec 27)
  /-- The stopping head arrived by travel and is local here (R203). -/
  arrived : Bool
  deriving DecidableEq, Repr, Inhabited

/-- A slot (R29). -/
structure Slot where
  st : SlotSt
  wr : Wr
  ind : Bool
  m : Vector Word 10
  pw : BitVec 16
  q : Vector Quad 16
  pc : BitVec 56
  id : Ident
  inbox : List Word
  sb : List SbEntry
  line : LineSt
  /-- Lines started since the slot took the pipe (R35). -/
  budget : Nat
  cond : Cond
  /-- Command numbers a JOIN or DRAIN waits for (R261). -/
  cut : Option (List Nat)
  barEnd : Option BarEnd
  /-- A kill that waits for a line end, a stop point or the bale's acceptance; true: by the task's end, which keeps the store buffer (R31, R341). -/
  kill : Option Bool
  /-- The coordinate fixed at departure, and the effective address (R155, R203). -/
  travel : Option (Coord × Nat)
  /-- The mask of the SAFEPT line at whose end the slot stopped for a save or a move (R187, R299). -/
  quiet : Option (BitVec 27)
  /-- Package time at which the slot last began to wait (R48). -/
  since : Nat
  /-- Copies that a FENCE.CORE of the slot orders before its later accesses (R70). -/
  fenced : List Nat
  /-- Locations of the column that have been read ahead, by offset, with their values: by a head of several locations, or ahead of a RECV (R64, R77). -/
  part : SMap Word
  /-- A location of level memory that has been read ahead of a RECV, by its key, and its value, for the next copy (R77, R93). -/
  far : Option (Nat × Word)
  deriving DecidableEq, Repr

/-! ### Engines (R243 to R276) -/

/-- A custom palette: the unsigned identity palette, or the image last loaded (R101). -/
inductive Palette | identity | image (ord : Bool) (e : List Nat)
  deriving DecidableEq, Repr, Inhabited

/-- A ring (R263). -/
structure Ring where
  base : Nat
  cap : Nat
  fmt : Nat
  pal : Nat
  sparse : Bool
  head : Nat
  count : Nat
  /-- Format of the last EZFMT accepted. -/
  accFmt : Nat
  accSparse : Bool
  /-- Generation (R72). -/
  gen : Nat
  deriving DecidableEq, Repr, Inhabited

/-- A sync register's value (R245). -/
structure SyncReg where
  wsem : Nat
  wthr : Nat
  wen : Bool
  ssem : Nat
  sinc : Nat
  sen : Bool
  deriving DecidableEq, Repr, Inhabited

/-- An end of a copy (R254). -/
inductive CEnd | own | col (c : Coord) | level (scope : Nat)
  deriving DecidableEq, Repr, Inhabited

/-- A copy as accepted (R253). -/
structure CopyD where
  dst : Nat
  src : Nat
  rowb : Nat
  rows : Nat
  dstr : Int
  sstr : Int
  dEnd : CEnd
  sEnd : CEnd
  deriving DecidableEq, Repr, Inhabited

/-- A TLOAD as accepted (R257). `pol`: 0 wait, 1 direct, 2 shadow. -/
structure TloadD where
  pol : Nat
  range : Nat
  bytes : Nat
  deadline : Nat
  shadow : Nat
  shbytes : Nat
  deriving DecidableEq, Repr, Inhabited

/-- The effect of a command (R243). -/
inductive CmdOp
  | copy (d : CopyD)
  | tload (d : TloadD)
  | ezring (k base cap : Nat)
  | ezfmt (k code pal : Nat) (sparse : Bool)
  | ezpush (k n : Nat)
  | ezpop (k n : Nat)
  | ezmm (z a b : Nat) (clear : Bool)
  | ezmms (z a b : Nat) (clear : Bool)
  | ezzld (z off : Nat)
  | ezzst (z off mode : Nat)
  | ezzclr (z : Nat)
  | ezwf
  | ezchk (on : Bool)
  | pload (n : Nat) (ord : Bool) (img : List Nat)
  deriving DecidableEq, Repr, Inhabited

/-- State of a command (R248). -/
inductive CmdSt | accepted | begun | completed | discarded
  deriving DecidableEq, Repr, Inhabited

/-- A page a begun copy has translated: its context page, where it lies, and when its lease ends (R397). -/
structure PageLease where
  vpage : Nat
  write : Bool
  /-- Location key of the page's first byte. -/
  key : Nat
  /-- TIER of the leaf. -/
  tier : Nat
  eph : Bool
  expiry : Nat
  deriving DecidableEq, Repr, Inhabited

/-- An engine command (R244). -/
structure Cmd where
  /-- Commands the core accepted before it; its low 8 bits are its sequence number. -/
  uid : Nat
  major : Nat
  /-- 0 to 3: cq0 to cq3; 4: the easel queue. -/
  queue : Nat
  slot : Nat
  st : CmdSt
  op : CmdOp
  /-- The fault recorded at acceptance: cause and value (R247). -/
  fault : Option (Nat × Nat)
  sync : SyncReg
  /-- The path of the destination, once the check phase fixed it (R82). -/
  path : Option Nat
  leases : List PageLease
  /-- Words already landed (R255). -/
  landed : List Nat
  /-- Words that have a packet on the way (R65, R418). -/
  sent : List Nat
  /-- Barrier instances whose counter counts the copy, and whether as next superstep (R376). -/
  counted : Option (Nat × Bool)
  /-- Package time at which the command began. -/
  begunAt : Nat
  /-- NX and palettes the command began with (R103, R106). -/
  nx : Bool
  pal2 : Palette
  pal3 : Palette
  /-- It has begun before and was saved incomplete: its waits are not checked again (R246, R300). -/
  again : Bool
  /-- Serial of the next store when it was accepted: earlier stores of the slot land before it acts (R72). -/
  after : Nat
  /-- Copies that a FENCE.CORE of its slot orders before it (R66, R70). -/
  fence : List Nat
  /-- Its waits held together at an instant at which it was at the head of its queue: they are not checked again (R246, R249). -/
  met : Bool
  /-- Locations already read: those of the column that a begun easel command has read, by offset, and one of level memory that a copy's slot read ahead of a RECV, by key (R64, R77). -/
  seen : SMap (Word × Poison)
  deriving DecidableEq, Repr, Inhabited

/-- Values still in force for the line in execution after a change (R57, R103, R106). -/
structure Lag where
  nx : Bool
  pal2 : Palette
  pal3 : Palette
  lpa : Vector Word 16
  deriving DecidableEq, Repr

/-- The engines of a core (R243 to R275). -/
structure Eng where
  /-- Commands accepted so far (R244). -/
  count : Nat
  /-- The commands kept by the engine-command ring, oldest first (R248). -/
  cmds : List Cmd
  /-- Queues parked by an upcall and not unparked (R153, R171). -/
  parked : Vector Bool 4
  sems : SMap (BitVec 16)
  rings : Vector Ring 8
  /-- Accumulators: word i of z at key 1024·z + i (R263). -/
  z : SMap (BitVec 32)
  ezchk : Bool
  nx : Bool
  pal2 : Palette
  pal3 : Palette
  lag : Option Lag
  deriving DecidableEq, Repr

/-- The active repetition sequence (R240). -/
structure Seq where
  slot : Nat
  body : List Instr
  stride : Nat
  passes : Nat
  pass : Nat
  head : Nat
  nx : Bool
  pal2 : Palette
  pal3 : Palette
  deriving DecidableEq, Repr

/-! ### Messages and arrivals (R39, R277) -/

/-- A message (R277). -/
structure Msg where
  payload : Word
  tag : Nat
  trig : Bool
  src : Coord
  kh : Nat
  grp : Nat
  nx : Bool
  ctx : Nat
  /-- Sent by a POST.REL (R66, R79). -/
  rel : Bool
  deriving DecidableEq, Repr, Inhabited

/-- An arrival waiting for a slot: a bale or spawn, a returned bale with its cause, or a triggered message with its handler line (R39, R282, R356). -/
inductive Arrival
  | bale (b : Bale)
  | returned (b : Bale) (cause : Nat)
  | handler (m : Msg) (line : Word)
  deriving DecidableEq, Repr

/-- An entry of the send buffer; `hold`: the serial of the slot's stores and the commands a POST.REL waits for (R78). -/
structure SendEnt where
  msg : Msg
  dst : Coord
  slot : Nat
  hold : Option (Nat × List Nat)
  deriving DecidableEq, Repr, Inhabited

/-- Handler tags (R281). -/
inductive TagSt | unbound | bound (line : Word) | rebinding
  deriving DecidableEq, Repr, Inhabited

/-- The message state of a core (R277). -/
structure Msgs where
  mailbox : List Msg
  parking : List Msg
  sendb : List SendEnt
  tags : Vector TagSt 64
  /-- Arrival queue and caravanserai: the first 16 entries are the queue (R39). -/
  arrivals : List Arrival
  /-- Ring index of the next caravanserai entry (R356). -/
  caravan : Nat
  /-- A bale has been refused and no entry has become free since (R39, R47, log 120). -/
  refuses : Bool
  deriving DecidableEq, Repr

/-! ### Barrier state of a core (R42, R373) -/

/-- Membership of a level (R373). `arr`: this core has made its arrival. -/
structure Memb where
  mem : Bool
  top : Bool
  arr : Bool
  nr : Bool
  domsize : Nat
  domid : Nat
  deriving DecidableEq, Repr, Inhabited

/-- An arrival made by a core and not yet sent (R285, R375): operator and contribution, or an abort code, and the copies that hold it back. -/
structure PendArr where
  op : Option (BarOp × Option Word)
  code : Option Nat
  /-- Copies of the window level that must pass their check phase. -/
  same : List Nat
  /-- Copies of lower window levels that must land. -/
  lower : List Nat
  deriving DecidableEq, Repr, Inhabited

/-- Windows, counters, membership and undo state of a core; levels 1 to 4 at indexes 0 to 3. -/
structure BarCore where
  open_ : Vector Bool 4
  step0 : Word
  steps : Vector Word 4
  memb : Vector Memb 4
  pend : Vector (Option PendArr) 4
  /-- Offsets of the logged lines, in logging order (R383). -/
  undo : List Nat
  undoOvf : Bool
  undoNr : Bool
  rbcnt : Nat
  deriving DecidableEq, Repr

/-! ### Control thread (R145 to R176) -/

inductive Mode | u | s deriving DecidableEq, Repr, Inhabited

/-- What a control thread waits in (R150). -/
inductive CtWait
  | none
  | mtwait (rd mask : Nat)
  /-- dt.cbar: store serial of the cut, the running slot still to be cut, its own cut, and the copies awaited as task and number (R163). -/
  | cbar (serial : Nat) (slot : Option Nat) (slotSerial : Nat) (copies : List (Nat × Nat))
  /-- dt.joink, on the kernel with this key. -/
  | joink (rd kernel : Nat)
  /-- dt.launch.w since a time. -/
  | launchW (rd rec since : Nat)
  deriving DecidableEq, Repr, Inhabited

/-- Standard S-mode and counter CSRs (R145, R146). -/
structure SCsr where
  sie : Word
  stvec : Word
  sscratch : Word
  sepc : Word
  scause : Word
  stval : Word
  senvcfg : Word
  stimecmp : Word
  scounteren : Word
  cycle : Word
  instret : Word
  /-- sstatus fields SIE, SPIE, SPP, SUM, MXR. -/
  stSie : Bool
  stSpie : Bool
  stSpp : Bool
  stSum : Bool
  stMxr : Bool
  /-- SSIP, the software interrupt of sip. -/
  ssip : Bool
  deriving DecidableEq, Repr, Inhabited

/-- Device CSRs of a core (R154, R155, R248, R304). -/
structure DCsr where
  elV : Bool
  elMore : Bool
  /-- Queues that late faults have emptied while V is 1 (R152). -/
  elQs : BitVec 5
  elQueue : Nat
  elCause : Nat
  elSeq : Nat
  elval : Word
  mtfpend : BitVec 10
  mtfinfo : Vector Word 10
  mtfval : Vector Word 10
  upPq : BitVec 4
  upaddr : Vector Word 4
  fibre : Nat
  sig : BitVec 10
  go : BitVec 10
  ecsel : BitVec 8
  tqSt : Nat
  tqIdx : Nat
  lpa : Vector Word 16
  deriving DecidableEq, Repr

/-- The control thread (R145). x0 is never written. -/
structure Ctl where
  x : Vector Word 32
  pc : Word
  mode : Mode
  s : SCsr
  d : DCsr
  /-- LR reservation: the location (R149). -/
  resv : Option Nat
  sb : List SbEntry
  wait : CtWait
  /-- The default control routine runs instead of code (R340). -/
  dflt : Bool
  /-- Locations of the column that the instruction at the pc has read ahead, by offset (R64). -/
  ahead : SMap Word
  deriving DecidableEq, Repr

/-- Everything a save keeps (R301). -/
structure Arch where
  slots : Vector Slot 10
  ctl : Ctl
  eng : Eng
  msgs : Msgs
  bar : BarCore
  seq : Option Seq
  spawnOut : Nat
  holder : Nat
  /-- Serial number of the next store (R65). -/
  serial : Nat
  triggered : Bool
  deriving DecidableEq, Repr

/-- Task states (R355). `saving`: quiescent, its frame being written. -/
inductive TaskSt | unplaced | running | quiesceSave | quiesceMove | saving | saved | moving | ended | discarded
  deriving DecidableEq, Repr, Inhabited

/-- Why a task was saved (R166, R168, R439). -/
inductive SaveWhy | none | preempt | evict | wait
  deriving DecidableEq, Repr, Inhabited

/-- What a move is for: the migrate trap, dt.lmigr, or the retirement of the column (R360, R367, R368). -/
inductive MoveWhy | trap | lmigr | retire
  deriving DecidableEq, Repr, Inhabited

/-- A task (R27). -/
structure Task where
  st : TaskSt
  ctx : Nat
  /-- Launch handle of its kernel (R338). -/
  kh : Nat
  /-- Group index (R340). -/
  gidx : Nat
  /-- Key of its group. -/
  group : Nat
  index : Nat
  coord : Coord
  /-- The physical core it runs on, or last ran on. -/
  phys : Phys
  home : Phys
  bulk : Bool
  arch : Arch
  /-- The step snapshot (R387). -/
  snap : Option Arch
  /-- Halted where it stands: FATAL, a rollback, or the power-fail trap (R293, R387, R433). -/
  halted : Bool
  /-- Slots still to reach a stop for a save, a move or a halt. -/
  why : SaveWhy
  /-- Save frame and what was written into it (R301). -/
  frame : Option Nat
  frameImg : List Host.Cell
  /-- Landing place reserved or used, and what the move is for (R358, R362, R367, R368). -/
  landing : Option Phys
  mvWhy : MoveWhy
  /-- Since when the trap asks, the time of the last ask, and whether it is still unanswered (R359). -/
  trapSince : Option Nat
  trapAsk : Nat
  trapOpen : Bool
  /-- Since when an easel command that cannot begin here asks (R359). -/
  ezSince : Option Nat
  /-- Channels on which markers are still to arrive (R366). -/
  markers : List Nat
  /-- Key of the kernel of the latest successful launch of the task (R343). -/
  lastLaunch : Option Nat
  /-- When a member last waited, while the task runs for it (R439). -/
  resumedFor : Option Nat
  /-- Since when a member waits for a message while the task is saved (R48, R439). -/
  senderSince : Option Nat
  /-- When it was last saved (R345). -/
  savedAt : Nat
  /-- Kills outstanding at the end of the task (R341). -/
  ending : Bool
  /-- Rolled back to the snapshot, before the rendezvous (R387). -/
  restored : Bool
  /-- A rollback-level completion that waits for the RUNNING slot's line end: level and result (R377, R387). -/
  cutRes : Option (Nat × Option Word)
  deriving DecidableEq, Repr

/-! ### Network (R24, R418) -/

/-- Whose word a packet carries: that of a copy, by task and number, or of a KCOPY of a queue, by its number (R418). -/
inductive WordOwner
  | copy (t uid : Nat)
  | kcopy (q num : Nat)
  deriving DecidableEq, Repr

/-- A packet of a word: a read request or a write on the data class, a read return or the acknowledgement of a write on the reply class (R418, R422). -/
inductive WordKind
  | read
  | write (w : Word) (p : Poison)
  | data (w : Word) (p : Poison)
  | ack
  deriving DecidableEq, Repr

/-- What a packet carries. -/
inductive Body
  | bale (b : Bale)
  | retBale (b : Bale) (cause : Nat)
  | msg (m : Msg)
  | retMsg (m : Msg) (cause : Nat) (dst : Coord)
  /-- A spawn credit with the launch handle and group index of its home task (R40). -/
  | credit (hkh hgrp : Nat)
  /-- A barrier arrival: task, level, operator and contribution, or an abort code. -/
  | arrival (task level : Nat) (op : Option (BarOp × Option Word)) (code : Option Nat)
  | nrMark (group task : Nat)
  | rbTrigger (group task cause : Nat)
  /-- An error reply for a copy of a task, with the launch handle and group index of the task (R425, R447). -/
  | copyErr (uid cause kh gidx : Nat)
  /-- Word `idx` of a copy or a KCOPY, at one of its steps (R65, R255, R323). -/
  | word (owner : WordOwner) (idx : Nat) (kind : WordKind)
  deriving DecidableEq, Repr

/-- A packet in the network. `ch`: 0 to 15 context channels, 16 data, 18 barrier, 19 reply (R418). -/
structure Packet where
  src : Coord
  dst : Coord
  ch : Nat
  ctx : Nat
  /-- The group of the sending task (R370). -/
  group : Nat
  body : Body
  /-- Sent in an earlier superstep of the group's rollback level (R387). -/
  old : Bool
  /-- Held by the distributor of the receiver's die, outside every channel buffer: it goes before packets sent later (R354). -/
  held : Bool
  /-- The attempt that the distributor keeps it for: key of the kernel and group index (R370). -/
  heldFor : Option (Nat × Nat)
  /-- Number among the packets sent. -/
  uid : Nat
  /-- Links it still has to cross, by their numbers at the sending ends; none while it is held at its sender's interface because MOVING is 1 (R22, R53). -/
  path : Option (List Nat)
  /-- It takes the escape route (R21, R26). -/
  esc : Bool
  /-- No open route led to its destination (R51, R425). -/
  lost : Bool
  /-- The physical core it left, and the one its route leads to (R366, R447). -/
  from_ : Phys
  goal : Phys
  /-- Its flits have all been sent over the first link of its path (R421). -/
  sent : Bool
  /-- How many of them have been (R420). -/
  part : Nat
  /-- The receive buffer it occupies: link and channel, as in `Link.chans` (R419). -/
  buf : Option (Nat × Nat)
  /-- Its place in the order in which bales reached the network interface of their full core and were refused (R39). -/
  turn : Option Nat
  deriving DecidableEq, Repr

/-! ### Groups, kernels, barrier instances -/

/-- State of a barrier instance (R372). -/
inductive InstSt | open_ | gathering | draining | aborted | timedout
  deriving DecidableEq, Repr, Inhabited

/-- A barrier instance (R372, R376, R381). -/
structure Inst where
  st : InstSt
  code : Nat
  group : Nat
  level : Nat
  domid : Nat
  members : List Nat
  /-- Arrivals: task, operator and contribution. -/
  arrived : List (Nat × Option (BarOp × Option Word))
  pend : Int
  next : Int
  counter : Word
  /-- Watchdog: running, and the unpaused package time counted. -/
  wdRun : Bool
  wdCount : Nat
  wdLimit : Nat
  /-- Level 4: the partial results of the pod children, and whether the arrival has gone up (R390). -/
  podKids : List (Nat × Option (BarOp × Int × Int × Nat))
  podSent : Bool
  deriving DecidableEq, Repr

/-- A line range of a read or write table (R384). -/
structure Range where
  key : Nat
  last : Nat
  deriving DecidableEq, Repr, Inhabited

/-- A group (R27). -/
structure Group where
  /-- Key of its kernel. -/
  kernel : Nat
  gidx : Nat
  top : Nat
  tasks : List Nat
  placedAt : Nat
  prio : Nat
  order : Nat
  rbcnt : Nat
  nr : Bool
  /-- A rollback in progress (R387). -/
  rolling : Bool
  reads : SMap (List Range)
  writes : SMap (List Range)
  podSeq : Option Nat
  /-- Level 4, in a rollback: pod children whose members have restored, and whether this module has said so (R387, R390). -/
  podRest : List Nat
  restSent : Bool
  complete : Bool
  killed : Bool
  deriving DecidableEq, Repr

/-- Kernel states (R339). -/
inductive KSt | waitdep | ready | running | placed | complete | killed | discarded
  deriving DecidableEq, Repr, Inhabited

/-- A patch site (R133). -/
structure Patch where
  line : Nat
  slot : Nat
  wid : Nat
  parm : Nat
  deriving DecidableEq, Repr, Inhabited

/-- A waybill entry (R334). -/
structure Waybill where
  va : Nat
  pages : Nat
  gfirst : Nat
  glast : Nat
  deriving DecidableEq, Repr, Inhabited

/-! The structures of a launch (R331, R333) -/

/-- A launch record. -/
structure LaunchRec where
  hdr : Nat
  param : Nat
  pwords : Nat
  shape : Nat
  policy : Nat
  diemask : Nat
  count : Nat
  depend : Nat
  waybill : Nat
  wayn : Nat
  /-- The reserved bits. -/
  rest : Nat
  deriving DecidableEq, Repr, Inhabited

/-- A kernel header. -/
structure KHeader where
  format : Nat
  cls : Nat
  lines : Nat
  ctentry : Nat
  caps : Nat
  patchn : Nat
  wayn : Nat
  pcol : Nat
  rest : Nat
  deriving DecidableEq, Repr, Inhabited

/-- Everything an accepted record names, with the code lines that patches name, patched (R134, R332). -/
structure Parts where
  h : KHeader
  way : List Waybill
  params : List Word
  patches : List Patch
  images : SMap (List Half)
  deriving DecidableEq, Repr, Inhabited

/-- Where a launch came from (R331). -/
inductive Source | task (t : Nat) | queue (q : Nat)
  deriving DecidableEq, Repr, Inhabited

/-- The part of the pool an entry comes from; one of a reserved share that its context keeps after it has left the place (R337). -/
inductive Share | none | reserved (place : Nat) | shared | kept (place : Nat)
  deriving DecidableEq, Repr, Inhabited

/-- A group to reissue: its index, the pod sequence number it keeps, the coordinates its packets are held for, and since when it waits (R351, R370, R390). -/
structure Again where
  gidx : Nat
  podSeq : Option Nat
  coords : List Coord
  since : Nat
  deriving DecidableEq, Repr, Inhabited

/-- A kernel (R331, R338, R339). -/
structure Kernel where
  ctx : Nat
  handle : Nat
  src : Source
  /-- For a device launch, the group of the launching task, and whether its handle is still held (R338). -/
  held : Bool
  hdr : Nat
  shape : Nat
  affine : Bool
  diemask : Nat
  count : Nat
  /-- Key of the predecessor (R343). -/
  depend : Option Nat
  bulk : Bool
  prio : Nat
  lines : Nat
  ctentry : Nat
  caps : Nat
  pcol : Option Nat
  params : List Word
  patches : List Patch
  /-- Code lines that patches name, by address, as read at acceptance and patched (R134, R332). -/
  images : SMap (List Half)
  waybill : List Waybill
  sem : Nat
  st : KSt
  /-- Acceptance order and time (R345). -/
  order : Nat
  since : Nat
  share : Share
  /-- Groups to reissue (R351). -/
  todo : List Again
  first : Nat
  done : Nat
  /-- Completion or kill, seen by dt.joink (R168). -/
  joined : Bool
  contained : Bool
  /-- The dependence of later kernels on this one has been met (R344). -/
  met : Bool
  /-- Starving groups: a group index that has waited 1,000,000 pt (R345). -/
  starving : List Nat
  deriving DecidableEq, Repr

/-! ### Contexts and queues -/

/-- Context states (R291). -/
inductive CtxSt | undefined | defined | resident | evicting | fatal | destroying
  deriving DecidableEq, Repr, Inhabited

/-- A queue-barrier instance (R324). -/
structure QBar where
  id : Nat
  n : Nat
  queues : List Nat
  deriving DecidableEq, Repr, Inhabited

/-- A context (R289, R291). -/
structure Ctx where
  st : CtxSt
  ptroot : Nat
  tqbase : Nat
  savebase : Nat
  saveframes : Nat
  caps : Nat
  classes : Nat
  priomax : Nat
  chanAsk : Bool
  podtag : Nat
  channel : Option Nat
  place : Option Nat
  qbars : List QBar
  podSeq : Nat
  nextHandle : Nat
  destroyAt : Nat
  deriving DecidableEq, Repr, Inhabited

/-- Queue states (R312). -/
inductive QSt | free | idle | active | waiting | suspended | error | halted
  deriving DecidableEq, Repr, Inhabited

/-- What the current record waits for (R317). -/
inductive QWait
  | none
  /-- Reads made, time of the first, time of the next, and since when a write has woken it (R320). -/
  | sem (addr : Nat) (cond : QCond) (val t0 k next : Nat) (woken : Option Nat)
  /-- A KLAUNCH for a pool entry, since a time, with its semaphore and the record and its parts as read at its start (R322, R337). -/
  | pool (since sem : Nat) (rec : LaunchRec) (parts : Parts)
  | qbar (id : Nat)
  /-- WAITIDLE, or a STAMP.done with its destination (R327, R328). -/
  | idle (stamp : Option Nat)
  /-- FENCEQ, or an INTR with its entry (R325, R327). -/
  | copies (intr : Option Nat)
  /-- The host link, which has failed (R426). -/
  | host
  deriving DecidableEq, Repr, Inhabited

/-- A KCOPY in flight (R323). -/
structure KCopy where
  dst : Nat
  src : Nat
  bytes : Nat
  sem : Nat
  /-- Time of the check phase, whose entries are leased from it (R397). -/
  since : Nat
  /-- Pages of both ends, by 64 KiB page of the queue address: the key of the page's first byte, and whether it is ephemeral. -/
  dpages : SMap (Nat × Bool)
  spages : SMap (Nat × Bool)
  /-- Words that have landed, and words that have a packet on the way (R418). -/
  landed : List Nat
  sent : List Nat
  /-- Its number, by which its packets name it. -/
  num : Nat
  deriving DecidableEq, Repr, Inhabited

/-- A queue (R309, R312). -/
structure Queue where
  st : QSt
  prior : QSt
  rbase : Nat
  rsize : Nat
  ctx : Nat
  prio : Nat
  bulk : Bool
  wptr : BitVec 32
  rptr : BitVec 32
  sdepth : Nat
  retstk : List Nat
  /-- The address in an indirect buffer; none: the ring at RPTR (R318). -/
  point : Option Nat
  errcode : Nat
  erraddr : Nat
  cp : Nat
  wait : QWait
  kernels : List Nat
  kcopies : List KCopy
  last : Option Nat
  destroying : Bool
  /-- The record has executed and retires. -/
  retiring : Bool
  deriving DecidableEq, Repr, Inhabited

/-! ### Management registers (R296, R314, R381, R389, R414, R424) -/

/-- Registers of the context-command block. -/
structure Mgmt where
  ctxtbase : Nat
  ctxStatus : Nat
  /-- The context commanded last, whose state CTXRES shows. -/
  ctxLast : Nat
  ctxChannel : Nat
  /-- A context command, by code and context, that waits for its context's state to end (R296). -/
  ctxPend : Option (Nat × Nat)
  fatalCtx : Nat
  fatalOvf : Nat
  fatalV : Bool
  qtbase : Nat
  qStatus : Nat
  /-- The queue commanded last, whose state QRES shows. -/
  qLast : Nat
  qCp : Nat
  qBusy : Bool
  qerrQid : Nat
  qerrCode : Nat
  qerrV : Bool
  /-- The queue each command processor served last (R316). -/
  served : SMap Nat
  barwdog : Word
  podIdx : Nat
  podCnt : Nat
  podEn : Bool
  podJob : Nat
  podDown : Bool
  /-- Level-4 arrivals are refused until EN is written 0 and then 1 (R391). -/
  podRefuse : Bool
  /-- Frames received, by sender and serial: a frame sent again acts once (R391). -/
  podSeen : List (Nat × Nat)
  deriving DecidableEq, Repr, Inhabited

/-- Residency of a TIER 1 page (R404). -/
inductive ResSt | home | staging | resident | writeback
  deriving DecidableEq, Repr, Inhabited

/-- Who holds a page from eviction (R406); none: staging that goes on after its TLOAD has completed (R407). -/
inductive Hold | none | tload (t uid : Nat) | stage (n : Nat)
  deriving DecidableEq, Repr, Inhabited

/-- A TIER 1 page; the key of the table is its LPDDR frame (R404). -/
structure Resid where
  st : ResSt
  frame : Nat
  dirty : Bool
  age : Nat
  ctx : Nat
  holds : List Hold
  /-- It leaves residency once no hold remains (R415). -/
  leaving : Bool
  /-- Its write-back makes room for a request that waits (R405). -/
  evicted : Bool
  /-- Since when it is RESIDENT (R258). -/
  since : Nat
  deriving DecidableEq, Repr, Inhabited

/-- An ephemeral page: its deadline and the words that hold data (R408, R409). -/
structure Eph where
  deadline : Nat
  good : List Nat
  deriving DecidableEq, Repr, Inhabited

/-- A pod page (R410 to R412). -/
structure PodPage where
  home : Nat
  frame : Nat
  moves : List Nat
  asks : List (Nat × Nat)
  settled : Option Nat
  /-- A granted move in progress: the module it goes to. -/
  moving : Option Nat
  deriving DecidableEq, Repr, Inhabited

/-- What a module sends to another about a pod page (R410 to R412). -/
inductive PageMsg
  /-- A copy that writes the page asks for it. -/
  | ask (page : Nat)
  /-- A word that a copy writes, at an offset of the page, with its damage. -/
  | write (page off : Nat) (w : Word) (p : Poison)
  /-- The page moves, with the times of its moves, and its bytes and damage by their offsets. -/
  | page (page : Nat) (moves : List Nat) (bytes : List Host.Cell) (bad : SMap Poison)
  /-- The page has settled. -/
  | settled (page : Nat)
  deriving DecidableEq, Repr

/-- A translation lease held by a core's instruction cache (R397). -/
structure ILease where
  phys : Phys
  ctx : Nat
  vpage : Nat
  entry : Nat
  lvl : Nat
  granted : Nat
  deriving DecidableEq, Repr, Inhabited

/-- A table entry that a gateway, a controller or a command processor holds on a lease: its context and page, the entry and its level, when it was read from the table; `dead`: a shootdown has come since, so no lease begins from it (R397, R400). -/
structure GLease where
  ctx : Nat
  vpage : Nat
  entry : Nat
  lvl : Nat
  granted : Nat
  dead : Bool
  deriving DecidableEq, Repr, Inhabited

/-- What a held semaphore write belongs to. -/
inductive HeldWhy | record | kcopy | kernel | page
  deriving DecidableEq, Repr, Inhabited

/-- A write of the queue machinery that its gateway holds while the page is staged or written back: an addition or a value, in arrival order (R321, R404). -/
structure HeldWrite where
  key : Nat
  addr : Nat
  ctx : Nat
  val : Nat
  add : Bool
  /-- The value is OR-ed in: accessed and dirty state that reaches a table (R401). -/
  orIn : Bool := false
  wakes : Bool
  queue : Nat
  why : HeldWhy
  deriving DecidableEq, Repr, Inhabited

/-- A page command in progress (R415). -/
inductive PgJob
  | shoot (ctx va pages sem t0 : Nat) (frames : List Nat)
  | stage (ctx : Nat) (frames : List Nat) (sem : Nat) (hold : Nat)
  | evict (ctx : Nat) (frames : List Nat) (sem : Nat)
  | harvest (ctx va pages sem due : Nat)
  deriving DecidableEq, Repr, Inhabited

/-- Pages and their registers (R392 to R415). -/
structure Pages where
  resid : SMap Resid
  /-- Requests that wait for a free frame, oldest first: LPDDR frame, context and holder. -/
  frameWait : List (Nat × Nat × Hold)
  eph : SMap Eph
  pod : SMap PodPage
  ileases : List ILease
  /-- Entries in the translation caches of gateways, controllers and command processors (R397). -/
  gleases : List GLease
  /-- The TIER 1 frame that a page's entry named when it was last translated, by context and page (R400). -/
  known : SMap Nat
  /-- Writes held while their page is staged or written back, oldest first (R404). -/
  held : List HeldWrite
  /-- Gathered accessed and dirty state by context and page, with who translated the page, as 16 × (key of the kernel + 1) + die (R401, R427). -/
  gathered : SMap (Bool × Bool × List Nat)
  jobs : List PgJob
  va : Nat
  cnt : Nat
  arg : Word
  status : Nat
  time : Nat
  pool : Nat
  tick : Nat
  chgsel : Nat
  settle : Nat
  serial : Nat
  deriving DecidableEq, Repr, Inhabited

/-! ### Links, dies, power, boot -/

/-- Link states (R423). -/
inductive LkSt | down | training | active | retrain | quiesced | failed
  deriving DecidableEq, Repr, Inhabited

/-- A flit kept until it is acknowledged, with the packet of which it carries a part, whether that is the last part, and how often it was resent (R420, R421). -/
structure TxFlit where
  seq : Nat
  payload : Option Packet
  last : Bool
  resent : Nat
  deriving DecidableEq, Repr

/-- One direction of a channel of a link (R421): sender and receiver sides. -/
structure Chan where
  seq : Nat
  tx : List TxFlit
  /-- Package time of the last progress. -/
  since : Nat
  exp : Nat
  /-- A NAK has been sent for the present gap. -/
  naked : Bool
  /-- By when a delivered flit must be acknowledged. -/
  due : Option Nat
  deriving DecidableEq, Repr

/-- A link (R423, R424). The key of a die link is its lower number. -/
structure Link where
  st : LkSt
  width : Nat
  repair : Bool
  cause : Nat
  attempts : Nat
  crcerr : Nat
  replay : Nat
  /-- Times of recent CRC failures and retrains. -/
  crcTimes : List Nat
  retrains : List Nat
  retrainAt : Nat
  /-- Channels by 64·direction + 32·E + CH. -/
  chans : SMap Chan
  /-- Acknowledgement flits sent, oldest first: the direction of the channel they acknowledge, and the flit (R420, R421). -/
  acks : List (Nat × BitVec 512)
  deriving DecidableEq, Repr

/-- Links and their registers. -/
structure Links where
  tab : SMap Link
  sel : Nat
  deriving DecidableEq, Repr

/-- Fences and the warm reset (R424 to R427). -/
structure Dies where
  fenced : Nat
  /-- Dies whose fence instant is due, and by when (R426). -/
  fencing : List (Nat × Nat)
  cmdDie : Nat
  phase : Nat
  busy : Bool
  warm : Option Nat
  /-- By when the present step of the warm reset must have ended (R427). -/
  stepBy : Option Nat
  /-- Frames of group and die SRAM written since admission, by die·65536 + frame of the spill layout (R427). -/
  written : List Nat
  /-- Frames copied to the spill area. -/
  spilled : List Nat
  master : Nat
  electing : Bool
  electBy : Nat
  deriving DecidableEq, Repr, Inhabited

/-- Power (R428 to R434). -/
structure Power where
  cap : Nat
  pre : Vector Nat 4
  pstep : Nat
  thermal : Nat
  thermalAt : Nat
  /-- The junction has been above WARN and not below it since (R432). -/
  hot : Bool
  step : Nat
  draw : Nat
  met : Bool
  tj : Nat
  warn : Nat
  /-- Time of the last decrease of the effective cap, if there has been one (R429). -/
  lastDecrease : Option Nat
  lastAdd : Nat
  lastRemove : Nat
  pfAddr : Nat
  pfCount : Nat
  pfDone : Bool
  pfBusy : Option Nat
  /-- Power-fail trap in progress since, and its cause (R433). -/
  trap : Option (Nat × Nat)
  pfail : Bool
  deriving DecidableEq, Repr

/-- A core-table entry (R52). -/
structure CtEntry where
  phys : Phys
  valid : Bool
  moving : Bool
  deriving DecidableEq, Repr, Inhabited

/-- The control state that a power-fail trap writes to flash (R433). -/
structure PfControl where
  /-- Bytes of the context table, with page-table roots, trap-queue indexes and TQSTATE, and of the queue table, by offset. -/
  ctxTable : List Host.Cell
  queueTable : List Host.Cell
  /-- Registers of the contexts and queues. -/
  ctxs : SMap Ctx
  queues : SMap Queue
  /-- Superstep counters and membership of each core's task. -/
  steps : List (Nat × Word × Vector Word 4 × Vector Memb 4)
  /-- Launch table. -/
  launches : SMap Kernel
  deriving DecidableEq, Repr, Inhabited

/-- A signed record of board flash: two copies with their generation numbers, none where a copy does not verify, and a copy that is being written (R435). -/
structure FlashRec (α : Type) where
  a : Option (Nat × α)
  b : Option (Nat × α)
  next : Option (Nat × α)
  deriving DecidableEq, Repr, Inhabited

/-- A firmware image and its version (R435). -/
structure Firmware where
  version : Nat
  image : List Byte
  deriving DecidableEq, Repr, Inhabited

/-- The harvest record (R15, R16, R21, R368). -/
structure Harvest where
  /-- Bad and retired positions (R15, R16). -/
  retired : List Phys
  /-- Assignments that differ from the canonical one, by logical index; VALID is 0 for a coordinate without a core (R15, R52). -/
  map : SMap CtEntry
  /-- Routers set to bypass (R21). -/
  bypass : List Phys
  deriving DecidableEq, Repr, Inhabited

/-- Board flash (R433 to R437). -/
structure Flash where
  img : Bool
  trunc : Bool
  cause : Nat
  /-- Bytes of the persist list in the image, by offset behind the control state. -/
  image : List Host.Cell
  /-- Bytes of the whole image, and of its control state. -/
  imageLen : Nat
  controlLen : Nat
  control : PfControl
  imageOk : Bool
  fwA : Option Firmware
  fwB : Option Firmware
  /-- The minimum version, the harvest record, FAILS, and the helper data of the PUF. -/
  minVer : FlashRec Nat
  harvest : FlashRec Harvest
  starts : FlashRec Nat
  helper : FlashRec (List Byte)
  /-- The vendor certificate. -/
  cert : List Byte
  /-- The PUF gives its seed with the helper data. -/
  pufOk : Bool
  deriving DecidableEq, Repr, Inhabited

/-- Boot (R436, R437). -/
structure Boot where
  minimal : Bool
  /-- Last failure. -/
  reason : Nat
  /-- Step 4 of the start is still to enable the links (R436). -/
  enable : Bool
  /-- The firmware has started and waits for BOOTOK. -/
  waiting : Bool
  okBy : Option Nat
  /-- The start failed before the firmware ran. -/
  halted : Bool
  /-- Firmware images measured in this start, A first (R435, R436). -/
  measured : List Firmware
  deriving DecidableEq, Repr, Inhabited

/-- A forwarding entry (R366). -/
structure Fwd where
  coord : Coord
  ctx : Nat
  target : Phys
  deriving DecidableEq, Repr, Inhabited

/-- A line held by a core's instruction cache, under its location and the launch whose patches it has taken (R127, R134). -/
structure ICopy where
  phys : Phys
  key : Nat
  /-- Key of the kernel plus 1 for a patched line, otherwise 0. -/
  tag : Nat
  img : List Half
  deriving DecidableEq, Repr, Inhabited

/-- A line as it was before it was written (R127). -/
structure OldLine where
  key : Nat
  cut : Nat
  bytes : List Byte
  deriving DecidableEq, Repr, Inhabited

/-- Cores as silicon: core table, forwarding, retirement (R16, R52, R366, R368). -/
structure Cores where
  /-- Entries that differ from the canonical assignment, by logical index. -/
  table : SMap CtEntry
  fwd : SMap (List Fwd)
  retired : List Phys
  /-- Routers set to bypass (R21). -/
  bypass : List Phys
  /-- Columns marked for retirement. -/
  marked : List Phys
  /-- Times and lines of errors by physical core. -/
  errs : SMap (List (Nat × Nat))
  /-- Lines held by instruction caches (R127). -/
  icopies : List ICopy
  /-- Model: cuts of code made so far by a CBAR, a FENCE.I or the start of a task, and the number of each task's latest (R127). -/
  cuts : Nat
  cutOf : SMap Nat
  /-- Model: what a line of level memory held before its first write after a cut: location key, number of cuts then, bytes (R127). -/
  oldLines : List OldLine
  deriving DecidableEq, Repr, Inhabited

/-- The module. -/
structure State where
  /-- Package time (R5). -/
  now : Nat
  mem : List Host.Cell
  poison : SMap Poison
  tasks : SMap Task
  net : List Packet
  /-- Packets sent so far. -/
  pkts : Nat
  groups : SMap Group
  kernels : SMap Kernel
  insts : SMap Inst
  ctxs : SMap Ctx
  queues : SMap Queue
  cores : Cores
  mg : Mgmt
  pg : Pages
  lk : Links
  dies : Dies
  pw : Power
  bt : Boot
  flash : Flash
  /-- Numbers given to tasks, groups and kernels so far. -/
  ids : Nat
  /-- Interrupt messages sent to the host: MSI-X entries, oldest first (R293, R319, R325). -/
  msix : List Nat
  /-- Interrupt messages held since the host link failed, oldest first (R426). -/
  msixHeld : List Nat
  /-- Frames sent to the pod and not yet acknowledged: the module they go to, sends made, and time of the last (R391). -/
  podOut : List (PodFrame × Nat × Nat × Nat)
  /-- Frames that have left the module, in order: port, traffic class, module they go to, frame (R389, R416). -/
  podTx : List (Nat × Nat × Nat × PodFrame)
  /-- Page traffic that has left the module, in order: port, traffic class, module it goes to, message (R410 to R412, R416, R417). -/
  pageTx : List (Nat × Nat × Nat × PageMsg)
  /-- Page traffic that waits for an ACTIVE port, oldest first: module, channel, message (R417). -/
  pageWait : List (Nat × Nat × PageMsg)
  /-- Frames held until their group is placed (R390). -/
  podHeld : List PodFrame
  /-- Answers given to SPDM requests (R435). -/
  spdm : List Word
  /-- Words returned to host reads of the CXL.mem window, with their damage (R416). -/
  hostReads : List (Word × Poison)
  /-- Model: the turns still to come (log 5). -/
  turns : List Turn
  /-- Model: free values drawn (log 6). -/
  free : Nat
  /-- Model: the task, slot and queue whose instruction executes (log 5). -/
  fTask : Nat
  fSlot : Nat
  fQueue : Nat
  /-- Model: bytes of the control-thread instruction in execution (log 5). -/
  fLen : Nat
  /-- Model: its bits as fetched (log 5). -/
  fWord : Nat
  stopped : Bool
  deriving DecidableEq, Repr

/-! ### Reset -/

def Ident.zero : Ident := ⟨0, ⟨0, 0, 0⟩, 0, false, false, 0, 0, 0, 0⟩

def LineSt.none : LineSt := ⟨.none, false, 1, .none, false, .none, false⟩

/-- A FREE slot; its registers read 0 (log 7). -/
def Slot.reset : Slot :=
  { st := .free, wr := .none, ind := false, m := Vector.replicate 10 0, pw := 0, q := Vector.replicate 16 0,
    pc := 0, id := Ident.zero, inbox := [], sb := [], line := LineSt.none, budget := 0, cond := .none,
    cut := none, barEnd := none, kill := none, travel := none, quiet := none, since := 0, fenced := [], part := [], far := none }

/-- Rings at reset (R263). -/
def Ring.reset : Ring := ⟨0, 1, 6, 0, false, 0, 0, 6, false, 0⟩

/-- Engines at task start (R244, R249, R263, R275, R101, R106). -/
def Eng.reset : Eng :=
  { count := 0, cmds := [], parked := Vector.replicate 4 false, sems := [], rings := Vector.replicate 8 Ring.reset,
    z := [], ezchk := false, nx := false, pal2 := .identity, pal3 := .identity, lag := none }

/-- Message state at task start (R277, R281). -/
def Msgs.reset : Msgs := ⟨[], [], [], Vector.replicate 64 .unbound, [], 0, false⟩

/-- Windows closed, counters 0 (R42, R44, R47). -/
def BarCore.reset : BarCore :=
  { open_ := Vector.replicate 4 false, step0 := 0, steps := Vector.replicate 4 0,
    memb := Vector.replicate 4 ⟨false, false, false, false, 0, 0⟩, pend := Vector.replicate 4 none,
    undo := [], undoOvf := false, undoNr := false, rbcnt := 0 }

/-- Standard CSRs before a task (log 8). -/
def SCsr.reset : SCsr :=
  ⟨0, 0, 0, 0, 0, 0, 0, 0xFFFF_FFFF_FFFF_FFFF, 0, 0, 0, false, false, false, false, false, false⟩

/-- Device CSRs at reset (R56, R155, R248, R304). -/
def DCsr.reset : DCsr :=
  { elV := false, elMore := false, elQs := 0, elQueue := 0, elCause := 0, elSeq := 0, elval := 0, mtfpend := 0,
    mtfinfo := Vector.replicate 10 0, mtfval := Vector.replicate 10 0, upPq := 0, upaddr := Vector.replicate 4 0,
    fibre := 0, sig := 0, go := 0, ecsel := 0, tqSt := 0, tqIdx := 0, lpa := Vector.replicate 16 0 }

/-- The control thread before a task (log 7). -/
def Ctl.reset : Ctl := ⟨Vector.replicate 32 0, 0, .u, SCsr.reset, DCsr.reset, none, [], .none, false, []⟩

/-- A core before a task. No slot has held the pipe yet and the spec names no `s` for the first search of R35: the model starts as if slot 9 had, so the search begins at slot 0 (log 98). -/
def Arch.reset : Arch :=
  { slots := Vector.replicate 10 Slot.reset, ctl := Ctl.reset, eng := Eng.reset, msgs := Msgs.reset,
    bar := BarCore.reset, seq := none, spawnOut := 0, holder := 9, serial := 0, triggered := false }

/-- A core with no task: the value a task number reads before a task has it. -/
def Task.blank : Task :=
  { st := .unplaced, ctx := 0, kh := 0, gidx := 0, group := 0, index := 0, coord := ⟨0, 0, 0⟩, phys := ⟨0, 0, 0⟩,
    home := ⟨0, 0, 0⟩, bulk := false, arch := Arch.reset, snap := none, halted := false, why := .none,
    frame := none, frameImg := [], landing := none, mvWhy := .trap, trapSince := none, trapAsk := 0, trapOpen := false, ezSince := none, markers := [],
    lastLaunch := none, resumedFor := none, senderSince := none, savedAt := 0, ending := false, restored := false, cutRes := none }

/-- An instance as it is created (R376). -/
def Inst.new (group level domid : Nat) (members : List Nat) : Inst :=
  { st := .open_, code := 0, group := group, level := level, domid := domid, members := members, arrived := [],
    pend := 0, next := 0, counter := 0, wdRun := false, wdCount := 0, wdLimit := 0, podKids := [], podSent := false }

def Ctx.blank : Ctx := ⟨.undefined, 0, 0, 0, 0, 0, 0, 0, false, 0, none, none, [], 0, 1, 0⟩

def Queue.blank : Queue :=
  { st := .free, prior := .idle, rbase := 0, rsize := 16, ctx := 0, prio := 0, bulk := false, wptr := 0, rptr := 0,
    sdepth := 0, retstk := [0, 0, 0], point := none, errcode := 0, erraddr := 0, cp := 0, wait := .none,
    kernels := [], kcopies := [], last := none, destroying := false, retiring := false }

/-- Registers of the context-command block at reset (R296, R314, R381, R389). -/
def Mgmt.reset : Mgmt :=
  { ctxtbase := 0, ctxStatus := 0, ctxLast := 0, ctxChannel := 0, ctxPend := none, fatalCtx := 0, fatalOvf := 0,
    fatalV := false, qtbase := 0, qStatus := 0, qLast := 0, qCp := 0, qBusy := false, qerrQid := 0, qerrCode := 0,
    qerrV := false, served := [], barwdog := 0x2710_03E8_00C8_0064, podIdx := 0, podCnt := 0, podEn := false, podJob := 0,
    podDown := false, podRefuse := false, podSeen := [] }

def Resid.blank : Resid := ⟨.home, 0, false, 0, 0, [], false, false, 0⟩
def Eph.blank : Eph := ⟨0, []⟩

def Pages.reset : Pages :=
  { resid := [], frameWait := [], eph := [], pod := [], ileases := [], gleases := [], known := [], held := [], gathered := [], jobs := [], va := 0, cnt := 0,
    arg := 0, status := 0, time := 0, pool := 0, tick := 0, chgsel := 0, settle := 0, serial := 0 }

def Chan.reset : Chan := ⟨0, [], 0, 0, false, none⟩

/-- A packet that has crossed every link: one sent within a core or a die, or at the end of its path. -/
def Packet.new (src dst : Coord) (ch ctx group : Nat) (body : Body) : Packet :=
  { src := src, dst := dst, ch := ch, ctx := ctx, group := group, body := body, old := false, held := false, heldFor := none, uid := 0,
    path := some [], esc := false, lost := false, from_ := ⟨0, 0, 0⟩, goal := ⟨0, 0, 0⟩, sent := false, part := 0, buf := none, turn := none }

/-- A link that has not been enabled (R423, R424). -/
def Link.down : Link := ⟨.down, 0, false, 0, 0, 0, 0, [], [], 0, [], []⟩
/-- A link that boot has enabled (R423, R436). -/
def Link.enabled : Link := ⟨.training, 0, false, 0, 0, 0, 0, [], [], 0, [], []⟩

/-- The neighbour across edge `e` of die `d`: a die, or none where the edge faces a gateway or nothing (R11, R12, R416). -/
def neighbour (d e : Nat) : Option Nat :=
  let x := Config.dieX d; let y := Config.dieY d
  if e = 0 then (if y = 0 then none else some (Config.dieAt x (y - 1)))
  else if e = 1 then (if x = 3 then none else some (Config.dieAt (x + 1) y))
  else if e = 2 then (if y = 3 then none else some (Config.dieAt x (y + 1)))
  else (if x = 0 then none else some (Config.dieAt (x - 1) y))

/-- The number under which a link is kept: the lower of the numbers of its ends; the end of a die link at a gateway, which R416 gives no number, has that of the die's end and 1,024 (R416, log 117). -/
def linkKey (n : Nat) : Nat :=
  if 1024 ≤ n then n - 1024
  else if 256 ≤ n then n
  else
    let d := n / 16; let e := n / 4 % 4; let m := n % 4
    match neighbour d e with
    | none => n
    | some d' => min n (16 * d' + 4 * ((e + 2) % 4) + m)

/-- Every link is DOWN before boot enables it (R423, R424). -/
def Links.reset : Links := ⟨[], 0⟩

def Dies.reset : Dies := ⟨0, [], 0, 0, false, none, none, [], [], 0, false, 0⟩

/-- Power registers at reset (R428, R432). -/
def Power.reset : Power :=
  { cap := 80, pre := Vector.replicate 4 80, pstep := 0, thermal := 80, thermalAt := 0, hot := false, step := 0, draw := 0,
    met := true, tj := 0, warn := 95, lastDecrease := none, lastAdd := 0, lastRemove := 0, pfAddr := 0, pfCount := 0,
    pfDone := false, pfBusy := none, trap := none, pfail := false }

/-- A record in its first generation (log 4). -/
def FlashRec.first {α : Type} (v : α) : FlashRec α := ⟨some (1, v), some (0, v), none⟩

/-- Board flash as the log presumes it: valid records, one start under way, no image (log 4, log 9). -/
def Flash.reset : Flash :=
  { img := false, trunc := false, cause := 0, image := [], imageLen := 0, controlLen := 0, control := ⟨[], [], [], [], [], []⟩,
    imageOk := false, fwA := some ⟨1, []⟩, fwB := some ⟨1, []⟩, minVer := FlashRec.first 0, harvest := FlashRec.first ⟨[], [], []⟩,
    starts := FlashRec.first 1, helper := FlashRec.first [], cert := [], pufOk := true }

/-- The machine right after reset: the boot has come to step 4 of R436, which enables the links as time passes, and waits for BOOTOK (log 9). -/
def State.reset : State :=
  { now := 0, mem := [], poison := [], tasks := [], net := [], pkts := 0, groups := [], kernels := [], insts := [], ctxs := [],
    queues := [], cores := ⟨[], [], [], [], [], [], [], 0, [], []⟩, mg := Mgmt.reset, pg := Pages.reset, lk := Links.reset,
    dies := Dies.reset, pw := Power.reset, bt := ⟨false, 0, true, true, none, false, [⟨1, []⟩, ⟨1, []⟩]⟩, flash := Flash.reset, ids := 0,
    msix := [], msixHeld := [], podOut := [], podTx := [], pageTx := [], pageWait := [], podHeld := [], spdm := [], hostReads := [], turns := [], free := 0, fTask := 0, fSlot := 0, fQueue := 0,
    fLen := 4, fWord := 0, stopped := false }

end Sys2Proof.Machine
end

