-- ==== Sys2Proof/Machine/Access.lean ====
section
/-! DEFINITION. The one place where each part of the state is read and written: tasks, slots, registers, control threads, engines, packets. -/
namespace Sys2Proof.Machine

/-- Entry `i` of a fixed table; `d` outside it. -/
def vget {α : Type} {n : Nat} (d : α) (v : Vector α n) (i : Nat) : α := v[i]?.getD d
/-- Write entry `i`; nothing outside the table. -/
def vset {α : Type} {n : Nat} (v : Vector α n) (i : Nat) (x : α) : Vector α n := v.setIfInBounds i x

/-! ### Tasks and slots -/

def State.task (s : State) (t : Nat) : Task := SMap.get Task.blank s.tasks t
def State.setTask (s : State) (t : Nat) (k : Task) : State := { s with tasks := SMap.put s.tasks t k }
def State.updTask (s : State) (t : Nat) (f : Task → Task) : State := s.setTask t (f (s.task t))
def Task.updArch (k : Task) (f : Arch → Arch) : Task := { k with arch := f k.arch }
def State.updArch (s : State) (t : Nat) (f : Arch → Arch) : State := s.updTask t (fun k => k.updArch f)

def Arch.slot (a : Arch) (i : Nat) : Slot := vget Slot.reset a.slots i
def Arch.setSlot (a : Arch) (i : Nat) (x : Slot) : Arch := { a with slots := vset a.slots i x }
def Arch.updSlot (a : Arch) (i : Nat) (f : Slot → Slot) : Arch := a.setSlot i (f (a.slot i))
def Arch.updCtl (a : Arch) (f : Ctl → Ctl) : Arch := { a with ctl := f a.ctl }
def Arch.updD (a : Arch) (f : DCsr → DCsr) : Arch := a.updCtl (fun c => { c with d := f c.d })
def Arch.updEng (a : Arch) (f : Eng → Eng) : Arch := { a with eng := f a.eng }
def Arch.updMsgs (a : Arch) (f : Msgs → Msgs) : Arch := { a with msgs := f a.msgs }
def Arch.updBar (a : Arch) (f : BarCore → BarCore) : Arch := { a with bar := f a.bar }

def State.arch (s : State) (t : Nat) : Arch := (s.task t).arch
def State.slot (s : State) (t i : Nat) : Slot := (s.arch t).slot i
def State.updSlot (s : State) (t i : Nat) (f : Slot → Slot) : State := s.updArch t (fun a => a.updSlot i f)
def State.ctl (s : State) (t : Nat) : Ctl := (s.arch t).ctl
def State.updCtl (s : State) (t : Nat) (f : Ctl → Ctl) : State := s.updArch t (fun a => a.updCtl f)
def State.updD (s : State) (t : Nat) (f : DCsr → DCsr) : State := s.updArch t (fun a => a.updD f)
def State.eng (s : State) (t : Nat) : Eng := (s.arch t).eng
def State.updEng (s : State) (t : Nat) (f : Eng → Eng) : State := s.updArch t (fun a => a.updEng f)
def State.updMsgs (s : State) (t : Nat) (f : Msgs → Msgs) : State := s.updArch t (fun a => a.updMsgs f)
def State.updBar (s : State) (t : Nat) (f : BarCore → BarCore) : State := s.updArch t (fun a => a.updBar f)

/-- The slot whose head executes. -/
def State.cur (s : State) : Slot := s.slot s.fTask s.fSlot
/-- The task whose instruction executes. -/
def State.me (s : State) : Task := s.task s.fTask
def State.updCur (s : State) (f : Slot → Slot) : State := s.updSlot s.fTask s.fSlot f

/-! ### Registers -/

def Slot.getM (x : Slot) (r : Reg) : Word := vget 0 x.m r.toNat
def Slot.setM (x : Slot) (r : Reg) (v : Word) : Slot := { x with m := vset x.m r.toNat v }
def Slot.getQ (x : Slot) (r : Reg) : Quad := vget 0 x.q r.toNat
def Slot.setQ (x : Slot) (r : Reg) (v : Quad) : Slot := { x with q := vset x.q r.toNat v }
def Slot.getP (x : Slot) (r : Reg) : Bool := x.pw.getLsbD r.toNat
/-- Predicate `r` := v (R194). -/
def Slot.setP (x : Slot) (r : Reg) (v : Bool) : Slot :=
  { x with pw := (x.pw &&& ~~~ (BitVec.ofNat 16 (2 ^ r.toNat))) ||| BitVec.ofNat 16 (b01 v * 2 ^ r.toNat) }

/-- Control-thread register; x0 reads 0 (R145). -/
def Ctl.getX (c : Ctl) (r : XReg) : Word := if r = 0 then 0 else vget 0 c.x r.toNat
/-- Control-thread register; x0 discards writes (R145). -/
def Ctl.setX (c : Ctl) (r : XReg) (v : Word) : Ctl := if r = 0 then c else { c with x := vset c.x r.toNat v }

/-- Address of the line a pc lies in (R117). -/
def lineOf (pc : BitVec 56) : Nat := pc.toNat / 64 * 64
/-- Head slot of a pc (R38). -/
def headOfPc (pc : BitVec 56) : Nat := pc.toNat % 64 / 2
def Slot.line_ (x : Slot) : Nat := lineOf x.pc
/-- A pc at head slot `h` of a line. -/
def pcAt (line h : Nat) : BitVec 56 := BitVec.ofNat 56 (line / 64 * 64 + 2 * (h % 32))

/-- Move on by `k` heads. -/
def Slot.skip (x : Slot) (k : Nat) : Slot :=
  let n := x.line.next + k
  { x with line := { x.line with next := n, arrived := false }, pc := if n < 32 then pcAt x.line_ n else x.pc,
           cond := .none, cut := none, barEnd := none }
/-- The head has completed (R178). -/
def Slot.advance (x : Slot) : Slot := x.skip 1

/-- The head writes its results to the slot and completes. -/
def State.retire (s : State) (f : Slot → Slot) : State := s.updCur (fun x => (f x).advance)
/-- What the slot has read ahead is given up: its later accesses come after an edge of R66. -/
def Slot.reread (x : Slot) : Slot := { x with part := [], far := none }
/-- A head that orders the slot's later accesses completes (R66, R77). -/
def State.retireOrd (s : State) (f : Slot → Slot) : State := s.retire (fun x => (f x).reread)
/-- What the slots and the copies that have not begun have read ahead is read again: their later accesses come after an edge of R66. -/
def Arch.dropAhead (a : Arch) : Arch :=
  { a with slots := a.slots.map Slot.reread
           ctl := { a.ctl with ahead := [] }
           eng := { a.eng with cmds := a.eng.cmds.map (fun c => match c.op with | .copy _ => { c with seen := [] } | _ => c) } }

/-! ### Engines -/

def Eng.sem (e : Eng) (i : Nat) : BitVec 16 := SMap.get 0 e.sems i
def Eng.setSem (e : Eng) (i : Nat) (v : BitVec 16) : Eng := { e with sems := SMap.set 0 e.sems i v }
/-- An addition to a semaphore that stops at 0xFFFF (R249). -/
def Eng.addSem (e : Eng) (i n : Nat) : Eng := e.setSem i (BitVec.ofNat 16 (min ((e.sem i).toNat + n) 0xFFFF))
def Eng.ring (e : Eng) (k : Nat) : Ring := vget Ring.reset e.rings k
def Eng.setRing (e : Eng) (k : Nat) (r : Ring) : Eng := { e with rings := vset e.rings k r }
def Eng.acc (e : Eng) (z i : Nat) : BitVec 32 := SMap.get 0 e.z (1024 * z + i)

def Cmd.out (c : Cmd) : Bool := decide (c.st = .accepted ∨ c.st = .begun)
/-- The command has begun and has not ended; one that a save or a move put back keeps its place (R71, R74, R85). -/
def Cmd.underway (c : Cmd) : Bool := decide (c.st = .begun) || (decide (c.st = .accepted) && c.again)
/-- The command's waits have ended: it has begun, though its check phase may be to come (R246, R375). -/
def Cmd.started (c : Cmd) : Bool := c.underway || (decide (c.st = .accepted) && c.met)
def Eng.find (e : Eng) (uid : Nat) : Option Cmd := e.cmds.find? (fun c => c.uid = uid)
def Eng.updCmd (e : Eng) (uid : Nat) (f : Cmd → Cmd) : Eng :=
  { e with cmds := e.cmds.map (fun c => if c.uid = uid then f c else c) }
/-- Commands of a queue that are neither completed nor discarded, oldest first. -/
def Eng.queue (e : Eng) (q : Nat) : List Cmd := e.cmds.filter (fun c => c.out && decide (c.queue = q))
def Eng.parkedQ (e : Eng) (q : Nat) : Bool := vget false e.parked q

/-! ### Keyed tables -/

def State.ctx (s : State) (c : Nat) : Ctx := SMap.get Ctx.blank s.ctxs c
def State.setCtx (s : State) (c : Nat) (x : Ctx) : State := { s with ctxs := SMap.put s.ctxs c x }
def State.updCtx (s : State) (c : Nat) (f : Ctx → Ctx) : State := s.setCtx c (f (s.ctx c))
def State.queue (s : State) (q : Nat) : Queue := SMap.get Queue.blank s.queues q
def State.link (s : State) (n : Nat) : Link := SMap.get Link.down s.lk.tab (linkKey n)
def State.setLink (s : State) (n : Nat) (l : Link) : State :=
  { s with lk := { s.lk with tab := SMap.put s.lk.tab (linkKey n) l } }
def State.updLink (s : State) (n : Nat) (f : Link → Link) : State := s.setLink n (f (s.link n))
def State.updGroup (s : State) (g : Nat) (f : Group → Group) : State := { s with groups := SMap.upd s.groups g f }
def State.updKernel (s : State) (k : Nat) (f : Kernel → Kernel) : State := { s with kernels := SMap.upd s.kernels k f }
def State.updInst (s : State) (k : Nat) (f : Inst → Inst) : State := { s with insts := SMap.upd s.insts k f }
/-- Key of the instance of a group's level in a domain (R371). -/
def instKey (g l dom : Nat) : Nat := g * 0x10_0000 + l * 0x1_0000 + dom
/-- A free value is drawn. -/
def State.draw (s : State) : State := { s with free := s.free + 1 }

/-! ### Coordinates and the core table (R15, R52) -/

/-- ID layout of a coordinate: [4:0] die, [10:5] row, [16:11] column (R213). -/
def Coord.code (c : Coord) : Nat := c.d % 32 + c.y % 64 * 32 + c.x % 64 * 2048
def Coord.ofCode (n : Nat) : Coord := ⟨bits n 4 0, bits n 10 5, bits n 16 11⟩
/-- Index of a coordinate in the table of all dies. -/
def Coord.index (c : Coord) : Nat := c.d * 2048 + c.y * 64 + c.x
/-- Logical tile group of a coordinate (R15). -/
def Coord.tile (c : Coord) : Nat := c.y / 8 * (Config.width c.d / 16) + c.x / 16
def Coord.exists (c : Coord) : Bool := decide (c.d < 16 ∧ c.y < 32 ∧ c.x < Config.width c.d)
/-- Core-table layout of a physical core (R52). -/
def Phys.code (p : Phys) : Nat := p.d % 32 + p.r % 32 * 32 + p.p % 128 * 1024
def Phys.ofCode (n : Nat) : Phys := ⟨bits n 4 0, bits n 9 5, bits n 16 10⟩
def Phys.index (p : Phys) : Nat := (p.d * 32 + p.r) * 128 + p.p
/-- Region of a physical position (R15). -/
def Phys.region (p : Phys) : Nat := p.r / 8 * (Config.physWidth p.d / 17) + p.p / 17
def Phys.exists (p : Phys) : Bool := decide (p.d < 16 ∧ p.r < 32 ∧ p.p < Config.physWidth p.d)

/-- The canonical assignment of R15. -/
def canonical (c : Coord) : CtEntry := ⟨⟨c.d, c.y, 17 * (c.x / 16) + c.x % 16⟩, true, false⟩
/-- The core-table entry of a coordinate (R52). -/
def State.entry (s : State) (c : Coord) : CtEntry := (SMap.find s.cores.table c.index).getD (canonical c)
def State.setEntry (s : State) (c : Coord) (e : CtEntry) : State :=
  { s with cores := { s.cores with table := SMap.put s.cores.table c.index e } }
def State.fencedDie (s : State) (d : Nat) : Bool := s.dies.fenced.testBit d
/-- The entry is VALID: its core works and its die is not fenced (R52, R426). -/
def State.validCoord (s : State) (c : Coord) : Bool := (s.entry c).valid && !s.fencedDie c.d

/-! ### Finding tasks -/

/-- A task that has been placed and has not ended. -/
def Task.live (k : Task) : Bool :=
  decide (k.st = .running ∨ k.st = .quiesceSave ∨ k.st = .quiesceMove ∨ k.st = .saving ∨ k.st = .saved ∨ k.st = .moving)
/-- A task that runs on its core now. -/
def Task.onCore (k : Task) : Bool := decide (k.st = .running ∨ k.st = .quiesceSave ∨ k.st = .quiesceMove)
/-- A task whose core may act: on its core and not halted. -/
def Task.active (k : Task) : Bool := k.onCore && !k.halted
/-- The live task of a context at a coordinate: one that runs there before one that is saved (R41, R352). -/
def State.taskAt (s : State) (ctx : Nat) (c : Coord) : Option Nat :=
  let here : Nat × Task → Bool := fun e => e.2.live && decide (e.2.ctx = ctx ∧ e.2.coord = c)
  match s.tasks.find? (fun e => here e && decide (e.2.st ≠ .saved)) with
  | some e => some e.1
  | none => (s.tasks.find? here).map (·.1)
/-- The live task at a coordinate that runs there, whatever its context. -/
def State.runningAt (s : State) (c : Coord) : Option Nat :=
  (s.tasks.find? (fun e => e.2.live && decide (e.2.st ≠ .saved) && decide (e.2.coord = c))).map (·.1)
/-- The task whose core is a physical core. -/
def State.onPhys (s : State) (p : Phys) : Option Nat :=
  (s.tasks.find? (fun e => e.2.live && decide (e.2.st ≠ .saved) && decide (e.2.phys = p))).map (·.1)
/-- Kernels and groups of tasks. -/
def State.groupOf (s : State) (t : Nat) : Option Group := SMap.find s.groups (s.task t).group
def State.kernelOf (s : State) (t : Nat) : Option Kernel :=
  match s.groupOf t with
  | none => none
  | some g => SMap.find s.kernels g.kernel
/-- The executing core is Vegaken (R9). -/
def State.onVega (s : State) (t : Nat) : Bool := Config.vegaken (s.task t).phys.d
/-- The instance of the task's own domain at level `l` (R371). -/
def State.myInst (s : State) (t l : Nat) : Nat :=
  instKey (s.task t).group l (vget ⟨false, false, false, false, 0, 0⟩ (s.arch t).bar.memb (l - 1)).domid

/-- Apply `f` to every number of a list in turn. -/
def forAll {α : Type} (l : List α) (f : State → α → State) (s : State) : State := l.foldl f s

end Sys2Proof.Machine
end

