-- ==== Sys2Proof/Machine/Route.lean ====
section
/-! DEFINITION. Routes on the dies and between them, gateways, credits of the links, and packets on their way (R12, R20 to R26, R53, R366, R416 to R421). -/
namespace Sys2Proof.Machine

/-! ### Die-to-die walks (R22, R26) -/

/-- The dies a packet visits after `a`, X first; with `yx`, Y first (R22, R26). -/
def walk (yx : Bool) : Nat → Nat → Nat → List Nat
  | 0, _, _ => []
  | k + 1, a, b =>
    let ax := Config.dieX a; let ay := Config.dieY a; let bx := Config.dieX b; let by' := Config.dieY b
    let nx := Config.dieAt (if ax < bx then ax + 1 else ax - 1) ay
    let ny := Config.dieAt ax (if ay < by' then ay + 1 else ay - 1)
    if a = b then []
    else
      let n := if (yx && ay ≠ by') || ax = bx then ny else nx
      n :: walk yx k n b

/-- The open path between two dies: whether it is the escape path, and the dies after the first; none where both cross a fenced die, or the far die is fenced (R22, R26, R425). -/
def State.dieWalk (s : State) (a b : Nat) : Option (Bool × List Nat) :=
  let p := walk false 8 a b; let e := walk true 8 a b
  if s.fencedDie b then none
  else if !(p.dropLast).any (fun d => s.fencedDie d) then some (false, p)
  else if !(e.dropLast).any (fun d => s.fencedDie d) then some (true, e)
  else none

/-- A die can be reached (R26, R425). -/
def State.reachable (s : State) (a b : Nat) : Bool := (s.dieWalk a b).isSome

/-! ### Gateways (R12, R13, R23) -/

/-- The edge of its attach dies that faces a gateway: two gateways to a side (R12). -/
def gatewayEdge (g : Nat) : Nat := g / 2
/-- The gateway that an outward edge of a die faces (R12). -/
def gatewayAt (d e : Nat) : Option Nat :=
  (List.range 8).find? (fun g => decide (gatewayEdge g = e ∧ ((Config.attach g).1 = d ∨ (Config.attach g).2 = d)))

/-- The attach die through which die `a` and gateway `g` exchange packets: of those not fenced, the one with fewer crossings, the lower number on a tie (R23, R425). -/
def State.attachFor (s : State) (a g : Nat) : Option Nat :=
  let x := (Config.attach g).1; let y := (Config.attach g).2
  if s.fencedDie x then (if s.fencedDie y then none else some y)
  else if s.fencedDie y then some x
  else
    let cx := Config.crossings a x; let cy := Config.crossings a y
    some (if cx < cy ∨ (cx = cy ∧ x < y) then x else y)

/-- A gateway can be reached from a die: the path to the attach die chosen is open (R23, R26, R425). -/
def State.gatewayReachable (s : State) (a g : Nat) : Bool :=
  match s.attachFor a g with
  | some d => s.reachable a d
  | none => false

/-- A gateway as a point that packets leave from and go to: past the compute dies' numbers (R12). -/
def gatePoint (g : Nat) : Phys := ⟨32 + g, 0, 0⟩

/-- The attach die through which gateway `h` sends to another gateway: R23 chooses one between a compute die and a gateway, so of the two ends here the model takes it for each by the same rule, the sending gateway's being the open one from which the way to the other gateway has fewer crossings, the lower number on a tie (DESIGN CHOICE, log 117). -/
def State.attachBetween (s : State) (h g : Nat) : Option Nat :=
  let cost (x : Nat) : Option (Nat × Nat) :=
    if s.fencedDie x then none
    else match s.attachFor x g with
      | some y => if s.reachable x y then some (Config.crossings x y, x) else none
      | none => none
  match cost (Config.attach h).1, cost (Config.attach h).2 with
  | some a, some b => some (if a.1 < b.1 ∨ (a.1 = b.1 ∧ a.2 < b.2) then a.2 else b.2)
  | some a, none => some a.2
  | none, b => b.map (·.2)

/-- A gateway can be reached from a gateway: itself, or through compute dies (R23, R26). -/
def State.gatewaysMeet (s : State) (h g : Nat) : Bool := decide (h = g) || (s.attachBetween h g).isSome

/-- The gateway of a command-processor hart, and of an Ethernet port by its link number (R13, R308, R416). -/
def hartGateway (h : Nat) : Nat := h / 2
/-- The gateway of the command processor that a queue is bound to (R308). -/
def Queue.gate (x : Queue) : Nat := hartGateway x.cp
def portGateway (n : Nat) : Nat := (n - 256) / 2

/-! ### Links and routers on a path (R20 to R22, R416) -/

/-- The edge of die `a` that faces die `b` (R416). -/
def edgeTo (a b : Nat) : Nat := ((List.range 4).find? (fun e => neighbour a e = some b)).getD 0
/-- The UCIe module a source position uses on an edge (R22). -/
def moduleOf (p : Phys) (e : Nat) : Nat :=
  if e % 2 = 1 then p.r / 8
  else if p.d ≤ 11 then p.p / 17
  else if p.p ≤ 8 then 0 else if p.p ≤ 16 then 1 else if p.p ≤ 25 then 2 else 3

/-- The router of a die at which module `m` of edge `e` stands, as position and row: the first one of the module's span (log 107). -/
def portRouter (d e m : Nat) : Nat × Nat :=
  let x := if d ≤ 11 then 17 * m else [0, 9, 17, 26].getD m 0
  if e = 0 then (x, 0) else if e = 2 then (x, 31) else if e = 1 then (Config.physWidth d - 1, 8 * m) else (0, 8 * m)

/-- The router at which an X-then-Y route on a die turns, if it turns (R20). -/
def turnAt (d : Nat) (a b : Nat × Nat) : List Phys := if a.1 = b.1 ∨ a.2 = b.2 then [] else [⟨d, a.2, b.1⟩]

/-- The routers at which the packets of source `p` turn, from point `a` of die `d` along the dies `l` to point `z` of the last one (R20, R22). -/
def turnsOn (p : Phys) (z : Nat × Nat) : Nat × Nat → Nat → List Nat → List Phys
  | a, d, [] => turnAt d a z
  | a, d, b :: l =>
    let e := edgeTo d b; let m := moduleOf p e
    turnAt d a (portRouter d e m) ++ turnsOn p z (portRouter b ((e + 2) % 4) m) b l

/-- The link numbers, at the sending end, along a path of the source `p` (R22, R416). -/
def linksOn (p : Phys) : Nat → List Nat → List Nat
  | _, [] => []
  | a, b :: rest => (16 * a + 4 * edgeTo a b + moduleOf p (edgeTo a b)) :: linksOn p b rest

/-- A route: the links it crosses, and whether it is the escape route (R21, R22, R26). -/
structure Route where
  links : List Nat
  esc : Bool
  deriving DecidableEq, Repr

/-- The route of the packets of source `p` from point `a` of die `d` to point `z` of die `b`: Y before X on the escape channel where a bypassed router would have to turn (R21) or a fenced die lies on the way (R26). -/
def State.routeFrom (s : State) (p : Phys) (d : Nat) (a : Nat × Nat) (b : Nat) (z : Nat × Nat) : Option Route :=
  match s.dieWalk d b with
  | none => none
  | some w => some ⟨linksOn p d w.2, w.1 || (turnsOn p z a d w.2).any (fun r => s.cores.bypass.contains r)⟩

/-- The route from point `a` of die `d` to a gateway, of packets whose modules `p` chooses: to the attach die, and over its edge that faces the gateway (R12, R23). -/
def State.toGateway (s : State) (p : Phys) (d : Nat) (a : Nat × Nat) (g : Nat) : Option Route :=
  match s.attachFor d g with
  | none => none
  | some x =>
    let e := gatewayEdge g; let m := moduleOf p e
    (s.routeFrom p d a x (portRouter x e m)).map (fun r => { r with links := r.links ++ [16 * x + 4 * e + m] })

/-- The position that chooses the modules of a packet: that of the core which sent it; for one that a gateway sends to a die, where R22 knows no source position, that of its destination, and between gateways the first (R22, R23, log 117). -/
def moduleAt (src q : Phys) : Phys := if src.d < 16 then src else if q.d < 16 then q else ⟨0, 0, 0⟩

/-- The route from the point `p` to the point `q`, each on a die or a gateway, of a packet sent from `src` (R20 to R23, R26). -/
def State.way (s : State) (src p q : Phys) : Option Route :=
  let m := moduleAt src q
  if p.d < 16 then
    if q.d < 16 then s.routeFrom m p.d (p.p, p.r) q.d (q.p, q.r) else s.toGateway m p.d (p.p, p.r) (q.d - 32)
  else if p.d = q.d then some ⟨[], false⟩
  else
    match (if q.d < 16 then s.attachFor q.d (p.d - 32) else s.attachBetween (p.d - 32) (q.d - 32)) with
    | none => none
    | some x =>
      let e := gatewayEdge (p.d - 32); let k := moduleOf m e; let a := portRouter x e k
      (if q.d < 16 then s.routeFrom m x a q.d (q.p, q.r) else s.toGateway m x a (q.d - 32)).map
        (fun r => { r with links := (1024 + 16 * x + 4 * e + k) :: r.links })

/-- The route between two points, of a packet that the first sends (R20 to R23). -/
def State.route (s : State) (p q : Phys) : Option Route := s.way p p q

/-- The route from a physical core to a gateway (R12, R23). -/
def State.gatewayRoute (s : State) (p : Phys) (g : Nat) : Option Route := s.route p (gatePoint g)

/-- The die that sends on a link by its number there; none for a gateway, the host or the network. -/
def sendDie (n : Nat) : Option Nat := if 256 ≤ n then none else some (n / 16)
/-- The die that receives what is sent on a link under this number; none for a gateway, the host or the network. -/
def recvDie (n : Nat) : Option Nat :=
  if 1024 ≤ n then some ((n - 1024) / 16) else if 256 ≤ n then none else neighbour (n / 16) (n / 4 % 4)
/-- The point at which a packet stands that is to enter a link: the router of its module, or the gateway. -/
def endPoint (n : Nat) : Phys :=
  if 1024 ≤ n then gatePoint ((gatewayAt ((n - 1024) / 16) ((n - 1024) / 4 % 4)).getD 0)
  else
    let a := portRouter (n / 16) (n / 4 % 4) (n % 4)
    ⟨n / 16, a.2, a.1⟩

/-! ### Flits and credits (R418, R419, R421) -/

/-- A channel of a link, by the number of the link at its sending end: the key of the link, and the key among its channels. -/
def chanOf (n ch : Nat) (esc : Bool) : Nat × Nat := (linkKey n, 64 * b01 (decide (linkKey n ≠ n)) + 32 * b01 esc + ch)

/-- The sender side of a channel takes one more flit (R421). `n` is the link's number at the sending end. -/
def State.pushFlit (s : State) (n ch : Nat) (esc : Bool) (p : Option Packet) (last : Bool) : State :=
  let k := (chanOf n ch esc).2
  s.updLink n (fun l =>
    let c := SMap.get Chan.reset l.chans k
    let c' : Chan := { c with seq := (c.seq + 1) % 4096, tx := c.tx ++ [⟨c.seq, p, last, 0⟩],
                              since := if c.tx.isEmpty then s.now else c.since }
    { l with chans := SMap.put l.chans k c' })

/-- Flits of 52 bytes that a packet fills: three for the 128 bytes of a bale, one for any other (R38, R420, log 13). -/
def Packet.flits (p : Packet) : Nat :=
  match p.body with
  | .bale _ => 3
  | .retBale _ _ => 3
  | _ => 1

/-- Flits of a channel's receive buffer that are taken: those of packets in it, and those sent of packets on their way into it (R419). -/
def State.buffered (s : State) (c : Nat × Nat) : Nat :=
  ((s.net.filter (fun q => decide (q.buf = some c))).map (fun q => if 0 < q.part then q.part else q.flits)).sum

/-- Receive buffers of a channel and pool, in flits (R419). -/
def creditsOf (ch : Nat) : Nat := if ch < 16 then 16 else 64

/-- The link whose channel a packet waits to enter. -/
def Packet.wants (p : Packet) : Option Nat :=
  match p.path with
  | some (l :: _) => if p.sent then none else some l
  | _ => none

/-- Packet `n` may send a flit: its link is ACTIVE, no earlier packet waits for the channel, and the channel has credit and room in its replay buffer (R419, R421, R423). -/
def State.maySend (s : State) (n : Nat) (p : Packet) (l : Nat) : Bool :=
  let c := chanOf l p.ch p.esc
  decide ((s.link l).st = .active) && !(s.net.take n).any (fun q => decide (q.wants = some l ∧ q.ch = p.ch ∧ q.esc = p.esc)) &&
    decide (s.buffered c < creditsOf p.ch) &&
    decide ((SMap.get Chan.reset (s.link l).chans c.2).tx.length < 1024)

/-- Packet `n` sends its next flit where it may; it takes a place of the receive buffer beyond the link (R419). -/
def State.sendOne (s : State) (n : Nat) : State :=
  match s.net[n]? with
  | none => s
  | some p =>
    match p.wants with
    | none => s
    | some l =>
      if s.maySend n p l then
        let p : Packet := { p with part := p.part + 1, sent := decide (p.flits ≤ p.part + 1), buf := some (chanOf l p.ch p.esc) }
        ({ s with net := s.net.set n p } : State).pushFlit l p.ch p.esc (some p) p.sent
      else s

/-- Packet `n` sends its flits where it may (R419, R420). -/
def State.sendFlit (s : State) (n : Nat) : State := ((s.sendOne n).sendOne n).sendOne n

/-! ### Sending (R22, R24, R53) -/

/-- The root of a barrier level, as a destination on the barrier channel. -/
def rootCoord (l : Nat) : Coord := ⟨31, 0, l⟩

/-- A packet enters the network. -/
def State.send (s : State) (p : Packet) : State := { s with net := s.net ++ [{ p with uid := s.pkts }], pkts := s.pkts + 1 }

/-- A packet on a route from the core `a` to the core `b`, or without one. -/
def Packet.on (p : Packet) (a b : Phys) (r : Option Route) : Packet :=
  match r with
  | none => { p with path := some [], lost := true, from_ := a, goal := a }
  | some r => { p with path := some r.links, esc := r.esc, from_ := a, goal := b }

/-- A packet resolved at the core `a` against the core table: a coordinate that is not VALID is one on a fenced die (R51 to R53). -/
def State.routed (s : State) (a : Phys) (p : Packet) : Packet :=
  let e := s.entry p.dst
  p.on a e.phys (if s.validCoord p.dst then s.route a e.phys else none)

/-- A packet leaves the core `a` for another core; while MOVING is 1 it is held at its sender's interface (R22, R53). -/
def State.sendFrom (s : State) (a : Phys) (p : Packet) : State :=
  if (s.entry p.dst).moving then s.send { p with path := none, from_ := a }
  else (s.send (s.routed a p)).sendFlit s.net.length

/-- A packet of the barrier channel goes from task `t` to the root of a level: within its region or die, from a visitor along the die links to its tile group and die, or along them to gateway 0 (R13, R25, R365). -/
def State.sendRoot (s : State) (t level : Nat) (b : Body) : State :=
  let k := s.task t
  let p := Packet.new k.coord (rootCoord level) 18 k.ctx k.group b
  if level ≤ 2 ∧ k.phys.d = k.coord.d then s.send { p with from_ := k.phys, goal := k.phys }
  else if level ≤ 2 then (s.send (p.on k.phys k.home (s.route k.phys k.home))).sendFlit s.net.length
  else (s.send (p.on k.phys (gatePoint 0) (s.gatewayRoute k.phys 0))).sendFlit s.net.length

/-- Where the answer to a packet starts: where the packet stands, or, on a die that has been fenced, back at the live end (R425, R427, R445). -/
def State.answerPoint (s : State) (p : Packet) : Phys := if s.fencedDie p.goal.d then p.from_ else p.goal
/-- A request that gets the error reply 0x15: it found no route, or stands on a die that has been fenced (R425, R427, R445). -/
def State.unserved (s : State) (p : Packet) : Bool := p.lost || s.fencedDie p.goal.d

/-- A packet leaves the point `a` for the point `b` (R22, R23). -/
def State.sendTo (s : State) (a b : Phys) (p : Packet) : State := (s.send (p.on a b (s.route a b))).sendFlit s.net.length

/-! ### Packets on their way (R53, R360, R366, R419, R423) -/

/-- Forwarding entries of a physical core (R366). -/
def State.fwdOf (s : State) (p : Phys) : List Fwd := SMap.get [] s.cores.fwd p.index

/-- A packet at its goal; a core that holds a forwarding entry for its coordinate passes it on, and a reply is sunk at once (R366, R419). -/
def State.atGoal (s : State) (p : Packet) : Packet :=
  match (s.fwdOf p.goal).find? (fun f => decide (f.coord = p.dst ∧ f.ctx = p.ctx)) with
  | some f => { (p.on p.goal f.target (s.route p.goal f.target)) with from_ := p.from_ }
  | none => if p.ch = 19 then { p with buf := none } else p

/-- A packet has crossed the first link of its path. -/
def State.crossed (s : State) (p : Packet) : Packet :=
  match p.path with
  | some (_ :: r) =>
    let p := { p with path := some r, sent := false, part := 0 }
    if r.isEmpty then s.atGoal p else p
  | _ => p

/-- The die at the sending end of a link is fenced and sends no more: only one that is quiescing for its own warm reset still does (R426, R427). -/
def State.endClosed (s : State) (n : Nat) : Bool :=
  match sendDie n with
  | some d => s.fencedDie d && !(decide (s.dies.warm = some d) && decide ((s.link n).st = .active ∨ (s.link n).st = .retrain))
  | none => false

/-- A fence has closed a link, at its far end or its near one (R26, R425, R427). -/
def State.linkClosed (s : State) (n : Nat) : Bool :=
  (match recvDie n with | some d => s.fencedDie d | none => false) || s.endClosed n

/-- A link of a die in its warm reset, closed by its fence (R427, R445). -/
def State.resetClosed (s : State) (n : Nat) : Bool :=
  s.linkClosed n && s.dies.warm.any (fun d => decide (recvDie n = some d ∨ sendDie n = some d))

/-- A packet that waits takes another route where a fence has closed its own, or none; a request routed across a link of a die in its warm reset gets no other, nor does what stands on a fenced die; one held at its sender is resolved when MOVING has cleared (R26, R53, R445). -/
def State.reroute (s : State) (p : Packet) : Packet :=
  match p.path with
  | none => if (s.entry p.dst).moving then p else s.routed p.from_ p
  | some (l :: r) =>
    if decide (0 < p.part) || !(l :: r).any (fun n => s.linkClosed n) then p
    else
      match (if s.endClosed l || (decide (p.ch ≠ 19) && (l :: r).any (fun n => s.resetClosed n)) then none
             else s.way p.from_ (endPoint l) p.goal) with
      | some w => { p with path := some w.links, esc := w.esc }
      | none => { p with path := some [], lost := true, goal := endPoint l }
  | some [] => p

/-- Waiting packets of some channels send their flits, in their order. -/
def State.pumpOf (s : State) (f : Nat → Bool) : State :=
  (List.range s.net.length).foldl (fun (s : State) n =>
    match s.net[n]? with
    | some p => if f p.ch then s.sendFlit n else s
    | none => s) s

/-- Every channel that has a flit and credit sends: barrier flits first, then system flits, then the others. All that have both send, so the turn among the others shows in no state (R419). -/
def State.pump (s : State) : State :=
  let s : State := { s with net := s.net.map s.reroute }
  ((s.pumpOf (fun c => c == 18)).pumpOf (fun c => c == 17)).pumpOf (fun c => c != 18 && c != 17)

/-! ### Packets in order (R24, R77) -/

/-- Two packets that keep their order: of one source, destination and channel; a class channel serves every context, but a packet that a distributor holds is in no channel (R24, R354, R419). -/
def Packet.follows (p q : Packet) : Bool :=
  decide (q.src = p.src ∧ q.dst = p.dst ∧ q.ch = p.ch) && (decide (q.ctx = p.ctx) || (decide (16 ≤ p.ch) && !q.held))

/-- Packet `n` of the network, at the end of its path, where no earlier packet that it follows is still to come, nor one that a distributor held for its receiver (R24, R354). -/
def State.nextPacket (s : State) (n : Nat) : Option Packet :=
  match s.net[n]? with
  | none => none
  | some p =>
    if decide (p.path ≠ some []) || (s.net.take n).any (fun q => p.follows q || decide (q.held ∧ q.dst = p.dst ∧ q.ctx = p.ctx)) then none else some p
/-- Packet `n` is held by the distributor of its receiver's die, or a word by the gateway of a page that takes no write now, outside every channel buffer (R40, R354, R404, R447). -/
def State.holdPacket (s : State) (n : Nat) : State := { s with net := s.net.modify n (fun p => { p with held := true, buf := none }) }
/-- Packet `n` leaves the network. -/
def State.takePacket (s : State) (n : Nat) : State := { s with net := s.net.eraseIdx n }

/-- The packet of a word that has come to the end of its path, in its order, with its place in the network; one that a gateway holds is passed (R24, R404, R418). -/
def State.wordPacket (s : State) (o : WordOwner) (idx : Nat) : Option (Nat × Packet × WordKind) :=
  s.net.zipIdx.findSome? (fun e =>
    match e.1.body with
    | .word o' i k =>
      if o' = o ∧ i = idx ∧ e.1.path = some [] ∧ !(s.net.take e.2).any (fun q => e.1.follows q && !q.held) then some (e.2, e.1, k) else none
    | _ => none)

/-- The packets of the words of a copy or a KCOPY, and error replies to a copy, are gone: it has ended, or begins again. -/
def State.dropWords (s : State) (o : WordOwner) : State :=
  { s with net := s.net.filter (fun p =>
      match p.body with
      | .word o' _ _ => decide (o' ≠ o)
      | _ => true) }

/-- A point as an end of the order of packets: of a memory or a gateway, beside the coordinates of the cores (R24). -/
def Phys.asEnd (p : Phys) : Coord := ⟨32 + p.d, p.r, p.p⟩

end Sys2Proof.Machine
end

