-- ==== Sys2Proof/Machine/Memory.lean ====
section
/-! DEFINITION. Memory: location keys, reading and writing bytes and words, poison, ephemeral words, landing in a column with its undo log, and local protection (R54 to R65, R199, R383, R392, R404, R409). -/
namespace Sys2Proof.Machine

/-- What a byte reads as that nothing has written (log 3). -/
def unlisted : Byte := 0

/-- The canonical form of memory. -/
def Memory.wf (m : List Host.Cell) : Bool := SMap.wf unlisted m

/-- Keys of the memories: physical HBM and LPDDR addresses stand for themselves. -/
def hostKey (a : Nat) : Nat := 2 ^ 53 + a
def groupKey (d g off : Nat) : Nat := 2 ^ 54 + (d * 16 + g) * 2 ^ 27 + off
def dieKey (d off : Nat) : Nat := 2 ^ 55 + d * 2 ^ 31 + off
def columnKey (p : Phys) (off : Nat) : Nat := 2 ^ 56 + p.index * 2 ^ 22 + off
/-- Key of a byte of a pod page; the pod directory says where it lies at the time of each access (R410). -/
def podKey (page off : Nat) : Nat := 2 ^ 58 + page * 65536 + off
def isPod (k : Nat) : Bool := decide (2 ^ 58 ≤ k)
/-- The pod page of such a key. -/
def podPageOf (k : Nat) : Nat := (k - 2 ^ 58) / 65536

def State.readByte (s : State) (k : Nat) : Byte := SMap.get unlisted s.mem k
def State.writeByte (s : State) (k : Nat) (b : Byte) : State := { s with mem := SMap.set unlisted s.mem k b }

/-- `n` bytes from key `k`, little-endian (R3). -/
def State.read (s : State) (k : Nat) : Nat → Nat
  | 0 => 0
  | n + 1 => (s.readByte k).toNat + (s.read (k + 1) n) * 256
/-- Write `n` bytes at key `k`, little-endian (R3). -/
def State.write (s : State) (k v : Nat) : Nat → State
  | 0 => s
  | n + 1 => (s.writeByte k (BitVec.ofNat 8 v)).write (k + 1) (v / 256) n

/-- The location a key lies in (R64). -/
def locOf (k : Nat) : Nat := k / 8 * 8
def State.poisonOf (s : State) (k : Nat) : Poison := SMap.get .none s.poison (locOf k)
def State.setPoison (s : State) (k : Nat) (p : Poison) : State :=
  { s with poison := SMap.set .none s.poison (locOf k) p }
/-- The first damaged location among `n` bytes from `k` (R199). -/
def State.firstPoison (s : State) (k n : Nat) : Option (Nat × Poison) :=
  ((List.range ((k + n + 7) / 8 - k / 8)).map (fun i => locOf k + 8 * i)).findSome?
    (fun l => if s.poisonOf l = .none then none else some (l, s.poisonOf l))

/-! ### Residency and ephemeral pages (R404, R409) -/

def lpddrBase : Nat := 0x0400_0000_0000
def hbmEnd : Nat := 0x0200_0000_0000
def lpddrEnd : Nat := 0x0700_0000_0000
def isLpddr (k : Nat) : Bool := decide (lpddrBase ≤ k ∧ k < lpddrEnd)
def State.resid (s : State) (frame : Nat) : Resid := SMap.get Resid.blank s.pg.resid frame
def State.setResid (s : State) (frame : Nat) (r : Resid) : State :=
  { s with pg := { s.pg with resid := SMap.set Resid.blank s.pg.resid frame r } }
/-- The HBM frame of a pod page whose home is this module (R410). -/
def State.podFrame (s : State) (page : Nat) : Option Nat :=
  match SMap.find s.pg.pod page with
  | some p => if p.home = s.mg.podIdx then some p.frame else none
  | none => none
/-- A byte of a pod page whose home is another module (R410). -/
def State.isRemote (s : State) (k : Nat) : Bool := isPod k && (s.podFrame (podPageOf k)).isNone
/-- Where an address is served: LPDDR in its HBM frame while resident or being written back, a pod page in its frame while its home is here (R404, R410). -/
def State.served (s : State) (k : Nat) : Nat :=
  if isLpddr k then
    match (s.resid (k / 65536)).st with
    | .resident => (s.resid (k / 65536)).frame * 65536 + k % 65536
    | .writeback => (s.resid (k / 65536)).frame * 65536 + k % 65536
    | _ => k
  else if isPod k then
    match s.podFrame (podPageOf k) with
    | some f => f * 65536 + k % 65536
    | none => k
  else k
/-- A write must wait while its page is staged or written back (R404). -/
def State.writeHeld (s : State) (k : Nat) : Bool :=
  isLpddr k && decide ((s.resid (k / 65536)).st = .staging ∨ (s.resid (k / 65536)).st = .writeback)

def State.ephOf (s : State) (frame : Nat) : Eph := SMap.get Eph.blank s.pg.eph frame
def State.setEph (s : State) (frame : Nat) (e : Eph) : State :=
  { s with pg := { s.pg with eph := SMap.set Eph.blank s.pg.eph frame e } }
/-- A word of an ephemeral page holds data now (R409). -/
def State.ephLive (s : State) (k : Nat) : Bool :=
  decide (s.now < (s.ephOf (k / 65536)).deadline) && (s.ephOf (k / 65536)).good.contains (k % 65536 / 8)

/-- Read a location of level memory: its value and its damage (R199, R409). -/
def State.readWord (s : State) (k : Nat) (eph : Bool) : Word × Poison :=
  let k' := s.served k
  (BitVec.ofNat 64 (s.read k' 8), if eph && !s.ephLive k then .expired else s.poisonOf k')

/-- Die and group SRAM frames written since admission (R427). -/
def State.noteSram (s : State) (k : Nat) : State :=
  let f : Option Nat :=
    if 2 ^ 55 ≤ k ∧ k < 2 ^ 56 then
      let d := (k - 2 ^ 55) / 2 ^ 31; some (d * 65536 + (k - 2 ^ 55) % 2 ^ 31 / 65536)
    else if 2 ^ 54 ≤ k ∧ k < 2 ^ 55 then
      let u := (k - 2 ^ 54) / 2 ^ 27
      some (u / 16 * 65536 + Config.dieSram (u / 16) / 65536 + u % 16 * 1536 + (k - 2 ^ 54) % 2 ^ 27 / 65536)
    else none
  match f with
  | none => s
  | some f => if s.dies.written.contains f then s else { s with dies := { s.dies with written := f :: s.dies.written } }

/-- The bytes of a key, in order. -/
def State.bytesAt (s : State) (k n : Nat) : List Byte := (List.range n).map (fun i => s.readByte (k + i))

/-- Before the first write of a line after a cut of code, what it held is kept for the cores whose cut was earlier (R127). -/
def State.noteLine (s : State) (k : Nat) : State :=
  let l := k / 64 * 64
  if s.cores.oldLines.any (fun o => decide (o.key = l ∧ o.cut = s.cores.cuts)) then s
  else { s with cores := { s.cores with oldLines := s.cores.oldLines ++ [⟨l, s.cores.cuts, s.bytesAt (s.served l) 64⟩] } }

/-- Write a location of level memory whole, with the damage it receives (R127, R255, R404, R409). -/
def State.writeWord (s : State) (k : Nat) (eph : Bool) (v : Word) (p : Poison) : State :=
  let s := s.noteLine k
  if eph then
    let e := s.ephOf (k / 65536)
    if e.deadline ≤ s.now then s
    else
      let w := k % 65536 / 8
      let good := if p = .expired then e.good.filter (· ≠ w) else if e.good.contains w then e.good else w :: e.good
      ((s.write k v.toNat 8).setPoison k (if p = .expired then .none else p)).setEph (k / 65536) { e with good := good }
  else
    let k' := s.served k
    let s := ((s.write k' v.toNat 8).setPoison k' p).noteSram k
    if isLpddr k && decide ((s.resid (k / 65536)).st = .resident) then
      s.setResid (k / 65536) { s.resid (k / 65536) with dirty := true }
    else s

/-! ### The column (R54 to R57) -/

/-- Key of a byte of a task's column. -/
def State.colKey (s : State) (t off : Nat) : Nat := columnKey (s.task t).phys off

/-- Bytes of a tile by format code and sparsity (R264). -/
def fmtStride (code : Nat) (sparse : Bool) : Nat :=
  if sparse then [896, 1152, 1152, 1408, 1280, 768, 2304, 2304].getD code 0
  else [576, 832, 832, 1088, 1024, 512, 2048, 2048, 4096, 8192].getD code 0
def Ring.stride (r : Ring) : Nat := fmtStride r.fmt r.sparse

/-- The core knows its superstep to be non-restartable (R373, R383). -/
def BarCore.markNr (b : BarCore) : BarCore :=
  { b with undoNr := true, memb := b.memb.map (fun m => if m.top then { m with nr := true } else m) }

/-- A core marks its superstep non-restartable; the mark goes to the root ahead of later arrivals (R385). -/
def State.markNr (s : State) (t : Nat) : State :=
  if (s.arch t).bar.undoNr then s
  else
    let top := match s.groupOf t with | none => 0 | some g => g.top
    (s.updBar t BarCore.markNr).sendRoot t top (.nrMark (s.task t).group t)

/-- Copy one location with its damage. -/
def State.copyLoc (s : State) (src dst : Nat) : State := (s.write dst (s.read src 8) 8).setPoison dst (s.poisonOf src)
/-- Copy the 64 bytes of a line with their damage. -/
def State.copyLine (s : State) (src dst : Nat) : State :=
  (List.range 8).foldl (fun (s : State) i => s.copyLoc (src + 8 * i) (dst + 8 * i)) s
/-- Copy the 64 bytes of line `l` of a column into the log at place `i` (R383). -/
def State.logLine (s : State) (t l i : Nat) : State := s.copyLine (s.colKey t l) (s.colKey t (Config.undoBase + 64 * i))

/-- The undo log before a write lands at `off` (R383). -/
def State.undoLog (s : State) (t off : Nat) : State :=
  let b := (s.arch t).bar; let l := off / 64 * 64
  if Config.undoBase ≤ off ∨ b.undoOvf ∨ b.undo.contains l then s
  else if Config.undoLines ≤ b.undo.length then (s.updBar t (fun b => { b with undoOvf := true })).markNr t
  else (s.logLine t l b.undo.length).updBar t (fun b => { b with undo := b.undo ++ [l] })

/-- Effects of a write on the reservation and on the rings of the core (R72, R149). -/
def Arch.touched (a : Arch) (off : Nat) : Arch :=
  let a := a.updCtl (fun c =>
    match c.resv with
    | some r => if r / 64 = off / 64 then { c with resv := none } else c
    | none => c)
  a.updEng (fun e => { e with rings := e.rings.map (fun r =>
    if r.base ≤ off ∧ off < r.base + r.cap * r.stride then { r with gen := r.gen + 1 } else r) })

/-- A write of `n` bytes, all in one location, lands in a task's column (R65, R383). -/
def State.landColumn (s : State) (t off n v : Nat) : State :=
  let s := s.undoLog t off
  let s := s.write (s.colKey t off) v n
  let s := if n = 8 then s.setPoison (s.colKey t off) .none else s
  s.updArch t (fun a => a.touched off)

/-- A copied word lands in a task's column with its damage (R255). -/
def State.landWord (s : State) (t off : Nat) (v : Word) (p : Poison) : State :=
  let s := s.landColumn t off 8 v.toNat
  s.setPoison (s.colKey t off) p

/-! ### Local protection (R56, R57) -/

inductive Need | rd | wr | rw | ex deriving DecidableEq, Repr

/-- The lowest enabled area that contains block `b`. -/
def areaOf (lpa : Vector Word 16) (b : Nat) : Option Word :=
  lpa.toList.find? (fun w => bit w.toNat 63 && decide (bits w.toNat 9 0 ≤ b ∧ b ≤ bits w.toNat 25 16))

/-- Whether an access of mode `sMode` (S-mode control thread) to block `b` is permitted (R57). -/
def permits (lpa : Vector Word 16) (sMode : Bool) (need : Need) (b : Nat) : Bool :=
  match areaOf lpa b with
  | none => sMode
  | some w =>
    let u := w.toNat
    (sMode || !bit u 35) &&
    (match need with
     | .rd => bit u 32
     | .wr => bit u 33
     | .rw => bit u 32 && bit u 33
     | .ex => bit u 34)

/-- The first offset of `off .. off+n−1` that is denied (R57). -/
def firstDenied (lpa : Vector Word 16) (sMode : Bool) (need : Need) (off n : Nat) : Option Nat :=
  if n = 0 then none
  else (List.range ((off + n - 1) / 4096 - off / 4096 + 1)).findSome? (fun i =>
    if permits lpa sMode need (off / 4096 + i) then none else some (max off ((off / 4096 + i) * 4096)))

/-- The areas in force for the line in execution, or for a command that begins (R57). -/
def Arch.lineLpa (a : Arch) : Vector Word 16 :=
  match a.eng.lag with
  | some l => l.lpa
  | none => a.ctl.d.lpa
def Arch.lineNx (a : Arch) : Bool :=
  match a.eng.lag with
  | some l => l.nx
  | none => a.eng.nx
def Arch.linePal2 (a : Arch) : Palette :=
  match a.eng.lag with
  | some l => l.pal2
  | none => a.eng.pal2
def Arch.linePal3 (a : Arch) : Palette :=
  match a.eng.lag with
  | some l => l.pal3
  | none => a.eng.pal3

/-- Before a change of NX, a palette or an area: the line in execution keeps the old values until its end or stop point (R57, R103, R106). -/
def Arch.keepLag (a : Arch) : Arch :=
  if a.eng.lag.isNone && a.slots.toList.any (fun x => decide (x.st = .running) && x.line.entered) then
    a.updEng (fun e => { e with lag := some ⟨e.nx, e.pal2, e.pal3, a.ctl.d.lpa⟩ })
  else a
def Arch.dropLag (a : Arch) : Arch := a.updEng (fun e => { e with lag := none })

/-! ### Store buffers (R65, R68, R198) -/

/-- A byte as the owner of a store buffer reads it: its latest store, or memory. -/
def sbByte (sb : List SbEntry) (mem : Byte) (off : Nat) : Byte :=
  sb.foldl (fun acc e => if e.off ≤ off ∧ off < e.off + e.n then BitVec.ofNat 8 (e.val >>> (8 * (off - e.off))) else acc) mem

/-- `n` bytes of a task's column as the owner of store buffer `sb` reads them. -/
def State.readSb (s : State) (t : Nat) (sb : List SbEntry) (off : Nat) : Nat → Nat
  | 0 => 0
  | n + 1 => (sbByte sb (s.readByte (s.colKey t off)) off).toNat + (s.readSb t sb (off + 1) n) * 256

/-- Store-buffer entries of a whole location hide its poison. -/
def sbCovers (sb : List SbEntry) (l : Nat) : Bool := sb.any (fun e => decide (e.off = l ∧ e.n = 8))

/-- The first damaged location that a read of the column would consume (R199). -/
def State.colPoison (s : State) (t : Nat) (sb : List SbEntry) (off n : Nat) : Option (Nat × Poison) :=
  ((List.range ((off + n + 7) / 8 - off / 8)).map (fun i => off / 8 * 8 + 8 * i)).findSome? (fun l =>
    if s.poisonOf (s.colKey t l) = .none || sbCovers sb l then none else some (l, s.poisonOf (s.colKey t l)))

/-- Land every entry of a list in order. -/
def State.landAll (s : State) (t : Nat) (sb : List SbEntry) : State :=
  sb.foldl (fun s e => s.landColumn t e.off e.n e.val) s
/-- Empty the store buffer of a slot (R68, R70). -/
def State.flushSlot (s : State) (t i : Nat) : State :=
  (s.landAll t (s.slot t i).sb).updSlot t i (fun x => { x with sb := [] })
/-- Empty the control thread's store buffer. -/
def State.flushCtl (s : State) (t : Nat) : State :=
  (s.landAll t (s.ctl t).sb).updCtl t (fun c => { c with sb := [] })
/-- Empty every store buffer of a task (R85, R341). -/
def State.flushTask (s : State) (t : Nat) : State :=
  ((List.range 10).foldl (fun s i => s.flushSlot t i) s).flushCtl t

end Sys2Proof.Machine
end

