-- ==== Sys2Proof/Machine/Ops.lean ====
section
/-! DEFINITION. The shared operations: packets and routes, faults of a slot, late faults, taking an exception of the control thread and returning from one, stop points, kills, and the migrate trap. -/
namespace Sys2Proof.Machine

/-! ### Sending of a task (R40, R297, R385) -/

/-- The channel of a context's packets (R297). -/
def State.ctxCh (s : State) (c : Nat) : Nat := ((s.ctx c).channel).getD 0
/-- The context has a message channel (R297). -/
def State.hasCh (s : State) (c : Nat) : Bool := (s.ctx c).channel.isSome

/-- A coordinate holds a task of the group of task `t`. -/
def State.inGroup (s : State) (t : Nat) (c : Coord) : Bool :=
  match s.groupOf t with
  | none => false
  | some g => g.tasks.any (fun u => decide ((s.task u).coord = c))

/-- A task sends a packet to a coordinate on its context's channel; leaving the group marks the superstep (R385). -/
def State.emit (s : State) (t : Nat) (dst : Coord) (b : Body) : State :=
  let k := s.task t
  let s := if s.inGroup t dst then s else s.markNr t
  s.sendFrom k.phys (Packet.new k.coord dst (s.ctxCh k.ctx) k.ctx k.group b)

/-- A spawn credit returns to a microthread's home core on the reply class (R40). -/
def State.credit (s : State) (t : Nat) (i : Ident) : State :=
  let k := s.task t
  s.sendFrom k.phys (Packet.new k.coord i.home 19 k.ctx k.group (.credit i.hkh i.hgrp))

/-! ### Rollback triggers (R162, R386) -/

/-- The rollback set: 0x09, 0x0B, 0x0C. -/
def rollbackSet (c : Nat) : Bool := decide (c = 0x09 ∨ c = 0x0B ∨ c = 0x0C)

/-- An error of a column that causes rollback is noted for retirement (R368). -/
def State.noteError (s : State) (p : Phys) : State :=
  let old := SMap.get [] s.cores.errs p.index
  let recent := old.filter (fun e => decide (s.now < e.1 + 1_000_000_000 ∧ e.2 = 0))
  let s := { s with cores := { s.cores with errs := SMap.put s.cores.errs p.index ((s.now, 0) :: old) } }
  if recent.isEmpty || s.cores.marked.contains p then s
  else { s with cores := { s.cores with marked := p :: s.cores.marked } }

/-- A rollback-set fault of task `t` sends its trigger to the group's root (R386). -/
def State.trigger (s : State) (t cause : Nat) : State :=
  if rollbackSet cause then
    let top := match s.groupOf t with | none => 0 | some g => g.top
    (s.noteError (s.task t).phys).sendRoot t top (.rbTrigger (s.task t).group t cause)
  else s

/-! ### Stop points, kills and faults of a slot (R31, R151) -/

/-- A slot becomes FREE: a spawn credit returns if SP is 1, MTFPEND is cleared, an active sequence is discarded; `keep` keeps its stores for landing (R31, R160, R242, R341). -/
def State.freeSlot (s : State) (t i : Nat) (keep : Bool) : State :=
  let x := s.slot t i
  let s := if x.id.sp then s.credit t x.id else s
  s.updArch t (fun a =>
    let a := a.setSlot i { Slot.reset with sb := if keep then x.sb else [] }
    let a := a.updD (fun d => { d with mtfpend := d.mtfpend &&& ~~~ (BitVec.ofNat 10 (2 ^ i)) })
    match a.seq with
    | some q => if q.slot = i then { a with seq := none } else a
    | none => a)

/-- A slot other than `i` is inside a line. -/
def Arch.otherInLine (a : Arch) (i : Nat) : Bool :=
  (List.range 10).any (fun j => decide (j ≠ i) && decide ((a.slot j).st = .running) && (a.slot j).line.entered)

/-- At a line end or stop point of slot `i`: the values that lag take effect unless another slot is inside a line, a cut of dt.cbar is fixed, and a kill that waited takes effect, even where the head would travel (R31, R57, R163). -/
def State.settle (s : State) (t i : Nat) : State :=
  let s := s.updArch t (fun a =>
    let a := if a.otherInLine i then a else a.dropLag
    a.updCtl (fun c =>
      match c.wait with
      | .cbar n (some j) _ l => if j = i then { c with wait := .cbar n none a.serial l } else c
      | _ => c))
  match (s.slot t i).kill with
  | some keep => s.freeSlot t i keep
  | none => s

/-- MTFINFO of a cause and a pc (R155). -/
def mtfinfoOf (pc : BitVec 56) (cause : Nat) : Word := BitVec.ofNat 64 (pc.toNat + cause % 256 * 2 ^ 56)

/-- A slot faults: it is FAULTED at the head, MTFINFO, MTFVAL and MTFPEND are set (R31, R151). -/
def State.slotFault (s : State) (t i cause val : Nat) : State :=
  let pc := (s.slot t i).pc
  let s := s.updArch t (fun a =>
    (a.updSlot i (fun x => { x with st := .faulted, wr := .none, cond := .none, cut := none, barEnd := none, part := [], far := none })).updD
      (fun d => { d with mtfinfo := vset d.mtfinfo i (mtfinfoOf pc cause), mtfval := vset d.mtfval i (BitVec.ofNat 64 val),
                         mtfpend := d.mtfpend ||| BitVec.ofNat 10 (2 ^ i) }))
  (s.trigger t cause).settle t i

/-- The head of the current slot faults. -/
def State.fault (s : State) (cause val : Nat) : State := s.slotFault s.fTask s.fSlot cause val

/-- The head of the current slot would wait: the line stops at it (R33). -/
def State.waitAt (s : State) (w : Wr) (c : Cond) : State :=
  (s.updCur (fun x => { x with st := .waiting, wr := w, cond := c, since := s.now })).settle s.fTask s.fSlot

/-- The current slot begins to wait for a message: a member of its group that runs for waiting members notes the time (R439). -/
def State.noteMsgWait (s : State) : State :=
  { s with tasks := s.tasks.map (fun e =>
      if e.2.group = s.me.group then (e.1, { e.2 with resumedFor := e.2.resumedFor.map (fun _ => s.now) }) else e) }

/-- The guard of the head holds (R124). -/
def Slot.holds (x : Slot) : Guard → Bool
  | .on p => x.getP p
  | _ => true

/-- A guarded head: without its predicate it has no effect (R124). -/
def guarded (g : Guard) (k : State → State) (s : State) : Host.Outcome State Fault Refusal :=
  .next (if s.cur.holds g then k s else s.retire id)

/-! ### The migrate trap (R357 to R362) -/

/-- No slot is held at a SAFEPT line end any more (R187, R299). -/
def Arch.unquiet (a : Arch) : Arch := { a with slots := a.slots.map (fun x => { x with quiet := none }) }
/-- A quiescence ends with no save or move (R187, R299). -/
def Task.unquiet (k : Task) : Task := { k with arch := k.arch.unquiet }

/-- A visitor runs on a core of the other generation than its home (R363). -/
def Task.visitor (k : Task) : Bool := Config.vegaken k.phys.d != Config.vegaken k.home.d

/-- The core asks for a landing place of the needed generation; a visitor takes its home core at once (R358, R362). -/
def State.landingRequest (s : State) (t : Nat) (vega : Bool) : State :=
  s.updTask t (fun k =>
    if k.st ≠ .running then k
    else if k.visitor && (Config.vegaken k.home.d == vega) then { k with st := .quiesceMove, landing := some k.home, mvWhy := .trap }
    else if k.trapSince.isSome then k
    else { k with trapSince := some s.now, trapAsk := s.now, trapOpen := true })

/-- Cause 0x02 at the head of the current slot: it waits with reason 8 (R31, R357). -/
def State.migrate (s : State) (vega : Bool) : State :=
  (s.waitAt .migrate (.generation vega s.now)).landingRequest s.fTask vega

/-- Availability letter of a form (R9). -/
inductive Letter | fv | f | v deriving DecidableEq, Repr

/-- The generation a head lacks on this core, if any: true for Vegaken. -/
def State.lacks (s : State) (l : Letter) : Option Bool :=
  match l with
  | .fv => none
  | .f => if s.onVega s.fTask then some false else none
  | .v => if s.onVega s.fTask then none else some true

/-- A guarded head with an availability letter: step 3, then step 4 of R126, then its effect. -/
def head (g : Guard) (l : Letter) (k : State → State) (s : State) : Host.Outcome State Fault Refusal :=
  guarded g (fun s => match s.lacks l with | some v => s.migrate v | none => k s) s

/-! ### Pending bytes of barrier instances (R376) -/

/-- Change the counter of an instance, or what is kept for its next one. -/
def State.pendAdd (s : State) (c : Option (Nat × Bool)) (n : Int) : State :=
  match c with
  | none => s
  | some (k, later) =>
    s.updInst k (fun i =>
      if later then { i with next := i.next + n } else { i with pend := i.pend + n })

/-- Bytes of a copy. -/
def CopyD.words (d : CopyD) : Nat := if d.rowb = 0 then 0 else d.rows * (d.rowb / 8)
/-- Words of a command that have not landed. -/
def Cmd.unlanded (c : Cmd) : Nat :=
  match c.op with
  | .copy d => d.words - c.landed.length
  | _ => 0

/-! ### Exceptions of the control thread (R145, R150) -/

/-- sstatus as software reads it. -/
def SCsr.sstatus (c : SCsr) : Word :=
  BitVec.ofNat 64 (b01 c.stSie * 2 + b01 c.stSpie * 32 + b01 c.stSpp * 256 + b01 c.stSum * 2 ^ 18 + b01 c.stMxr * 2 ^ 19
    + 2 * 2 ^ 32)

/-- Where a trap goes: the base of stvec, or base + 4 × code for an interrupt in vectored mode. -/
def trapPc (stvec : Word) (intr : Bool) (code : Nat) : Word :=
  let base := stvec.toNat / 4 * 4
  BitVec.ofNat 64 (if intr && stvec.toNat % 4 == 1 then base + 4 * code else base)

/-- Taking an exception or interrupt in S-mode: sepc, scause and stval are written, SPIE takes SIE, SIE is cleared, SPP takes the mode, the reservation is lost and the pc goes to stvec (R145, R149, R150). -/
def Ctl.trap (c : Ctl) (intr : Bool) (code : Nat) (val : Word) : Ctl :=
  { c with
    s := { c.s with sepc := c.pc, scause := BitVec.ofNat 64 (code + b01 intr * 2 ^ 63), stval := val,
                    stSpie := c.s.stSie, stSie := false, stSpp := decide (c.mode = .s) },
    mode := .s, pc := trapPc c.s.stvec intr code, resv := none, wait := .none, ahead := [] }

/-- Return from an exception: SIE takes SPIE, SPIE is set, the mode is SPP and SPP becomes U; the pc is sepc. -/
def Ctl.sret (c : Ctl) : Ctl :=
  { c with
    s := { c.s with stSie := c.s.stSpie, stSpie := true, stSpp := false },
    mode := if c.s.stSpp then .s else .u, pc := c.s.sepc }

/-- Exception codes of RISC-V, and 24 for poison (R147). -/
def excIllegal : Nat := 2
def excPoison : Nat := 24
def excLoadAccess : Nat := 5
def excStoreAccess : Nat := 7
def excLoadAlign : Nat := 4
def excStoreAlign : Nat := 6

/-- The control thread of task `t` takes an exception; a poison exception is a rollback trigger (R147). -/
def State.ctTrap (s : State) (t code : Nat) (val : Word) : State :=
  let s := s.updCtl t (fun c => c.trap false code val)
  if code = excPoison then s.trigger t 0x09 else s

/-- The control thread completes an instruction of `n` bytes after the change `f`. -/
def State.ctNext (s : State) (t n : Nat) (f : Ctl → Ctl) : State :=
  s.updCtl t (fun c =>
    let c' := f c
    { c' with pc := c.pc + BitVec.ofNat 64 n, ahead := [], s := { c'.s with instret := c'.s.instret + 1 } })

/-- A slot that dt.mtwait does not wait for (R161). -/
def Slot.idle (x : Slot) : Bool := decide (x.st = .free ∨ x.st = .stopped ∨ x.st = .faulted ∨ (x.st = .waiting ∧ x.wr = .broadcast))
/-- A microthread is created in a slot (R31): registers, inbox and line state cleared. -/
def Slot.fresh (ind : Bool) (pc : BitVec 56) (id : Ident) : Slot :=
  { Slot.reset with st := .ready, ind := ind, pc := pc, id := id }

end Sys2Proof.Machine
end

