-- ==== Sys2Proof/Machine/Translate.lean ====
section
/-! DEFINITION. Translation: page tables, places, leases of the instruction path, gathered accessed and dirty state, line fetch with patches, control-thread fetch, and queue addresses (R127, R134, R310, R392 to R401). -/
namespace Sys2Proof.Machine

/-! ### Physical addresses (R392, R403) -/

def isHbm (a : Nat) : Bool := decide (a < hbmEnd)
/-- Bytes of LPDDR of one gateway. -/
def lpddrPart : Nat := 0x60_0000_0000
/-- An LPDDR address in a spill area (R427). -/
def isSpill (a : Nat) : Bool := isLpddr a && decide (lpddrPart - 0x1_8000_0000 ≤ (a - lpddrBase) % lpddrPart)
/-- A frame of the residency pool (R403). -/
def State.isPool (s : State) (a : Nat) : Bool := isHbm a && decide (2 ^ 22 - s.pg.pool ≤ a % 2 ^ 38 / 65536)
/-- Memory that can hold tables (R393). -/
def physOk (a : Nat) : Bool := isHbm a || (isLpddr a && !isSpill a)
/-- Gateway that owns a physical address. -/
def gatewayOf (a : Nat) : Nat := if isHbm a then a / 2 ^ 38 else (a - lpddrBase) / lpddrPart

/-! ### The walk (R393 to R395) -/

/-- Why a translation fails: 0x07, 0x08, 0x09. -/
inductive Miss | absent | bad | poison deriving DecidableEq, Repr

def Miss.cause : Miss → Nat
  | .absent => 0x07
  | .bad => 0x08
  | .poison => 0x09

/-- A leaf entry and its level. -/
structure Leaf where
  entry : Nat
  lvl : Nat
  deriving DecidableEq, Repr

/-- Index of an address at a level (R393). -/
def vaIdx (va lvl : Nat) : Nat :=
  if lvl = 4 then bits va 55 39 else if lvl = 3 then bits va 38 30 else if lvl = 2 then bits va 29 21 else bits va 20 16

/-- Reserved bits of a non-leaf entry (R393). -/
def reservedTable (e : Nat) : Bool := decide (bits e 7 1 ≠ 0 ∨ bits e 63 52 ≠ 0)
/-- Reserved bits of a leaf (R394). -/
def reservedLeaf (e : Nat) : Bool :=
  bit e 4 || decide (bits e 15 12 ≠ 0 ∨ bits e 63 52 ≠ 0) || (bit e 11 && decide (bits e 9 8 ≠ 3))

/-- The walk from the table at `t` of level `k` (R395). -/
def State.leafFrom (s : State) (va : Nat) : Nat → Nat → Except Miss Leaf
  | 0, _ => .error .bad
  | k + 1, t =>
    let a := t + 8 * vaIdx va (k + 1)
    if !physOk a then .error .bad
    else if s.poisonOf (s.served a) ≠ .none then .error .poison
    else
      let e := s.read (s.served a) 8
      if !bit e 0 then .error .bad
      else if bits e 3 1 ≠ 0 then (if reservedLeaf e then .error .bad else .ok ⟨e, k + 1⟩)
      else if reservedTable e || decide (k = 0) then .error .bad
      else
        let t' := bits e 51 8 * 256
        if k ≠ 1 ∧ t' % 4096 ≠ 0 then .error .bad else s.leafFrom va k t'

/-- The leaf of an address in a context (R395). -/
def State.leafOf (s : State) (c va : Nat) : Except Miss Leaf := s.leafFrom va 4 (s.ctx c).ptroot

/-- Where an access goes: a key of memory, the tier, and whether the page is ephemeral. -/
structure Place where
  key : Nat
  tier : Nat
  eph : Bool
  deriving DecidableEq, Repr

/-- Permission bits of a leaf: R, W, X. -/
inductive Perm | r | w | x deriving DecidableEq, Repr
def Perm.bitNo : Perm → Nat
  | .r => 1
  | .w => 2
  | .x => 3

/-- Scope of a leaf (R395). -/
def leafScope (e : Nat) : Nat :=
  if bits e 9 8 ≤ 1 then 3 else if bits e 9 8 = 2 then 4 else if bit e 11 then 1 else 2

/-- The 64 KiB frame of the leaf that holds the address. -/
def Leaf.frame (l : Leaf) (va : Nat) : Nat :=
  bits l.entry 51 16 + (if l.lvl = 2 then bits va 20 16 else if l.lvl = 3 then bits va 29 16 else 0)

/-- The frame lies in a memory of its tier (R392, R395, R403, R410); `d` is the task's logical die. -/
def State.frameOk (s : State) (d : Nat) (e f : Nat) : Bool :=
  if bits e 9 8 = 0 then isHbm (f * 65536) && !s.isPool (f * 65536)
  else if bits e 9 8 = 1 then isLpddr (f * 65536) && !isSpill (f * 65536)
  else if bits e 9 8 = 2 then (SMap.find s.pg.pod f).isSome
  else decide (f < (if bit e 11 then 1536 else Config.dieSram d / 65536))

/-- Key of an address whose leaf has passed every check. -/
def placeKey (d g : Nat) (e f va : Nat) : Nat :=
  if bits e 9 8 ≤ 1 then f * 65536 + va % 65536
  else if bits e 9 8 = 2 then podKey f (va % 65536)
  else if bit e 11 then groupKey d g (f * 65536 + va % 65536)
  else dieKey d (f * 65536 + va % 65536)

/-- The checks of R395 on a leaf, for scope `scope` (0: any, as for a fetch, log 16), from a task of logical die `d` and tile group `g`. -/
def State.judge (s : State) (d g scope : Nat) (need : Perm) (va : Nat) (l : Leaf) : Except Miss Place :=
  let e := l.entry; let f := l.frame va; let tier := bits e 9 8
  if l.lvl = 4 then .error .bad
  else if 1 < l.lvl ∧ (tier = 1 ∨ tier = 2) then .error .bad
  else if (l.lvl = 2 ∧ bits e 20 16 ≠ 0) ∨ (l.lvl = 3 ∧ bits e 29 16 ≠ 0) then .error .bad
  else if scope ≠ 0 ∧ leafScope e ≠ scope then .error .bad
  else if bit e 10 ∧ tier ≠ 0 then .error .bad
  else if !s.frameOk d e f then .error .bad
  else if !bit e need.bitNo then .error .bad
  else if !bit e 7 then .error .absent
  else .ok ⟨placeKey d g e f va, tier, bit e 10⟩

/-- The entry for a page that a gateway, a controller or a command processor holds on an unexpired lease from which a new lease may begin (R397, R400). -/
def State.cachedLeaf (s : State) (c va : Nat) : Option GLease :=
  s.pg.gleases.find? (fun l => decide (l.ctx = c ∧ l.vpage = va / 65536 ∧ s.now < l.granted + Config.leaseLen) && !l.dead)

/-- Pages of a context are translated: not before it is created, and no more from the start of its DESTROYING (R295, R297). -/
def State.maps (s : State) (c : Nat) : Bool := decide ((s.ctx c).st ≠ .undefined ∧ (s.ctx c).st ≠ .destroying)

/-- The leaf that a translation uses, and when it was read from the table: an entry on a lease, or the table, where both may be used (R297, R397, R398, log 19). -/
def State.leafVia (s : State) (c va : Nat) : Except Miss (Leaf × Nat) :=
  if !s.maps c then .error .bad
  else
  let table : Except Miss (Leaf × Nat) :=
    match s.leafOf c va with
    | .error m => .error m
    | .ok l => .ok (l, s.now)
  match s.cachedLeaf c va with
  | some l =>
    let old : Leaf × Nat := (⟨l.entry, l.lvl⟩, l.granted)
    if table.toOption = some old ∨ Config.oldEntry s.free (va / 65536) = false then table else .ok old
  | none => table

/-- Translation of a virtual address of a context (R395, R397). -/
def State.translate (s : State) (c d g scope : Nat) (need : Perm) (va : Nat) : Except Miss Place :=
  match s.leafVia c va with
  | .error m => .error m
  | .ok l => s.judge d g scope need va l.1

/-- When the entry that a translation of an address uses was read from the table (R397). -/
def State.grantedAt (s : State) (c va : Nat) : Nat :=
  match s.leafVia c va with
  | .error _ => s.now
  | .ok l => l.2

/-- Translation for a task: its context, logical die and tile group (R58). -/
def State.taskTranslate (s : State) (t scope : Nat) (need : Perm) (va : Nat) : Except Miss Place :=
  let k := s.task t
  s.translate k.ctx k.coord.d k.coord.tile scope need va

/-! ### Accessed and dirty state (R401) -/

/-- Key of a page in the gathered state. -/
def gatherKey (c va : Nat) : Nat := c * 2 ^ 40 + va / 65536
/-- A use of an entry is gathered; a write gathers D as well. -/
def State.gather (s : State) (c va : Nat) (write : Bool) (ker : Nat) : State :=
  let g := SMap.get (false, false, []) s.pg.gathered (gatherKey c va)
  let ks := if ker = 0 ∨ g.2.2.contains ker then g.2.2 else ker :: g.2.2
  { s with pg := { s.pg with gathered := SMap.put s.pg.gathered (gatherKey c va) (true, g.2.1 || write, ks) } }

/-- The translators that served an access keep its entry on the lease it was read under, and the TIER 1 frame that it names is known for the page (R397, R400). -/
def State.keepLease (s : State) (c va : Nat) : State :=
  match s.leafVia c va with
  | .error _ => s.draw
  | .ok (l, n) =>
    let live : GLease → Bool := fun x => decide (s.now < x.granted + Config.leaseLen ∧ ¬ (x.ctx = c ∧ x.vpage = va / 65536 ∧ x.dead = false))
    let pg := if bit l.entry 7 then { s.pg with gleases := ⟨c, va / 65536, l.entry, l.lvl, n, false⟩ :: s.pg.gleases.filter live } else s.pg
    let pg := if bits l.entry 9 8 = 1 then { pg with known := SMap.put pg.known (gatherKey c va) (l.frame va) } else pg
    ({ s with pg := pg } : State).draw

/-- Who translates for a task: its kernel, as key plus 1, and its die; 0 for none. -/
def State.kerKey (s : State) (t : Nat) : Nat := match s.groupOf t with | none => 0 | some g => (g.kernel + 1) * 16 + (s.task t).phys.d % 16

/-- The physical address of a page's leaf entry, where the walk reaches one; an entry whose V has been cleared still takes A and D (R393, R401). -/
def State.leafAddr (s : State) (va : Nat) : Nat → Nat → Option Nat
  | 0, _ => none
  | k + 1, t =>
    let a := t + 8 * vaIdx va (k + 1)
    if !physOk a || decide (s.poisonOf (s.served a) ≠ .none) then none
    else
      let e := s.read (s.served a) 8
      if bits e 3 1 ≠ 0 ∨ k = 0 then some a
      else if !bit e 0 then none
      else s.leafAddr va k (bits e 51 8 * 256)

/-- Bits are OR-ed into a word of a table, as a write of its page: held while the page is staged or written back, and one that makes a resident copy dirty (R401, R404). -/
def State.orWord (s : State) (a v : Nat) : State :=
  if s.writeHeld a then
    { s with pg := { s.pg with held := s.pg.held ++
      [{ key := a, addr := 2 ^ 63, ctx := 0, val := v, add := false, orIn := true, wakes := false, queue := 1024, why := .page }] } }
  else
    let r := s.readWord a false
    s.writeWord a false (r.1 ||| BitVec.ofNat 64 v) r.2

/-- The gathered state of one page reaches the tables: an indivisible OR into A and D (R401). -/
def State.harvestPage (s : State) (c page : Nat) : State :=
  match SMap.find s.pg.gathered (c * 2 ^ 40 + page) with
  | none => s
  | some g =>
    let s := match s.leafAddr (page * 65536) 4 (s.ctx c).ptroot with
      | none => s
      | some a => s.orWord a (b01 g.1 * 32 + b01 g.2.1 * 64)
    { s with pg := { s.pg with gathered := SMap.erase s.pg.gathered (c * 2 ^ 40 + page) } }

/-- Pages of a context whose gathered state shows an access, within a range. -/
def State.gatheredIn (s : State) (c page n : Nat) : List Nat :=
  (s.pg.gathered.filter (fun e => decide (c * 2 ^ 40 + page ≤ e.1 ∧ e.1 < c * 2 ^ 40 + page + n ∧ e.1 / 2 ^ 40 = c))).map
    (fun e => e.1 % 2 ^ 40)

/-- The TIER 1 frame that a page's entry names now, its V cleared or not, and the one it named when the page was last translated (R400, R402, log 33). -/
def State.framesOf (s : State) (c page : Nat) : List Nat :=
  let now_ := match s.leafAddr (page * 65536) 4 (s.ctx c).ptroot with
    | none => []
    | some a =>
      let e := s.read (s.served a) 8
      if bits e 9 8 = 1 then [bits e 51 16] else []
  (now_ ++ (SMap.find s.pg.known (c * 2 ^ 40 + page)).toList).eraseDups

/-- Frames of a page that are in HBM, whichever context staged them: resident, or still being written back (R400, R404, R407). -/
def State.residentOf (s : State) (c page : Nat) : List Nat :=
  (s.framesOf c page).filter (fun f => decide ((s.resid f).st = .resident ∨ (s.resid f).st = .writeback))

/-- An event of R401: PGTICK rises, ages saturate, and every resident page whose gathered state shows an access takes the new tick (R402). -/
def State.harvestTick (s : State) : State :=
  let tick := (s.pg.tick + 1) % 2 ^ 32
  let used := (s.pg.gathered.filter (fun e => e.2.1)).flatMap (fun e => s.framesOf (e.1 / 2 ^ 40) (e.1 % 2 ^ 40))
  { s with pg := { s.pg with
    tick := tick
    resid := s.pg.resid.map (fun e =>
      if e.2.st = .resident then
        if used.contains e.1 then (e.1, { e.2 with age := tick })
        else if 2 ^ 31 ≤ (tick + 2 ^ 32 - e.2.age) % 2 ^ 32 then (e.1, { e.2 with age := (e.2.age + 1) % 2 ^ 32 })
        else e
      else e) } }

/-- The gathered state of some pages of a context reaches the tables (R401). -/
def State.harvestPages (s : State) (c : Nat) (pages : List Nat) : State := pages.foldl (fun s p => s.harvestPage c p) s

/-! ### Reading level memory -/

/-- One location of level memory at a place; a pod page of another module gives a free word (log 18). -/
def State.placeWord (s : State) (p : Place) : State × Word × Poison :=
  if s.isRemote p.key then (s.draw, Config.freeWord s.free, .none)
  else
    let r := s.readWord (locOf p.key) p.eph
    (s, r.1, r.2)

/-- Bytes that lie in one page, read location by location, and the cause that the first damaged location gives: 0x09 or 0x0A; 0 for none (R199, R409). -/
def State.placeRaw (s : State) (p : Place) (n : Nat) : State × List Byte × Nat :=
  let locs := (List.range ((p.key + n + 7) / 8 - p.key / 8)).map (fun i => locOf p.key + 8 * i)
  let r := locs.foldl (fun (acc : State × List Byte × Option Nat) k =>
    let w := acc.1.placeWord { p with key := k }
    (w.1, acc.2.1 ++ bytesLE w.2.1.toNat 8,
      match acc.2.2 with
      | some c => some c
      | none => if w.2.2 = .poisoned then some 0x09 else if w.2.2 = .expired then some 0x0A else none)) (s, [], none)
  (r.1, (r.2.1.drop (p.key % 8)).take n, r.2.2.getD 0)

/-- Bytes that lie in one page; damage is an error (R199, R409). -/
def State.placeBytes (s : State) (p : Place) (n : Nat) : State × Except Nat (List Byte) :=
  let r := s.placeRaw p n
  (r.1, if r.2.2 = 0 then .ok r.2.1 else .error r.2.2)

/-! ### The instruction path (R127, R134, R181, R397) -/

/-- The task's leases that end or are replaced. -/
def State.putILease (s : State) (l : ILease) : State :=
  { s with pg := { s.pg with
      ileases := l :: s.pg.ileases.filter (fun o => decide (¬ (o.phys = l.phys ∧ o.ctx = l.ctx ∧ o.vpage = l.vpage))) } }

/-- An unexpired lease of the task's core on the page (R397). -/
def State.ilease (s : State) (t va : Nat) : Option ILease :=
  s.pg.ileases.find? (fun l => decide (l.phys = (s.task t).phys ∧ l.ctx = (s.task t).ctx ∧ l.vpage = va / 65536) &&
    decide (s.now < l.granted + Config.leaseLen))

/-- Translation of a fetch: the leased entry or the table, where both may be used (R397, R398, log 19). -/
def State.fetchPlace (s : State) (t va : Nat) : State × Except Miss Place :=
  let k := s.task t
  let fresh : State → State × Except Miss Place := fun s =>
    match s.leafVia k.ctx va with
    | .error m => (s, .error m)
    | .ok l =>
      let r := s.judge k.coord.d k.coord.tile 0 .x va l.1
      ((if bit l.1.entry 7 then s.putILease ⟨k.phys, k.ctx, va / 65536, l.1.entry, l.1.lvl, l.2⟩ else s).keepLease k.ctx va, r)
  match s.ilease t va with
  | none => fresh s
  | some l =>
    if Config.freeBool s.free then (s.draw, s.judge k.coord.d k.coord.tile 0 .x va ⟨l.entry, l.lvl⟩) else fresh s.draw

/-- Halfwords of a list of bytes. -/
def halvesOf : List Byte → List Half
  | a :: b :: r => BitVec.ofNat 16 (a.toNat + 256 * b.toNat) :: halvesOf r
  | _ => []

/-- Patches of a kernel on the line at `va` (R134). -/
def Kernel.patchesAt (k : Kernel) (va : Nat) : List Patch :=
  k.patches.filter (fun p => decide (k.hdr + 128 + 64 * p.line = va))

/-- A line with one patch applied: the low 16 or 32 bits of the parameter word replace the immediate above the R half of the tail (R134). -/
def patchLine (params : List Word) (img : List Half) (p : Patch) : List Half :=
  let v := (params.getD p.parm 0).toNat
  let img := img.set (p.slot + 1) (BitVec.ofNat 16 v)
  if p.wid = 1 then img.set (p.slot + 2) (BitVec.ofNat 16 (v / 65536)) else img

/-- The bytes of a line as a task fetches them whose latest cut came before the line was written: none where it has not been written since. A move or a save makes no cut and takes none away (R86, R127). -/
def State.lineBefore (s : State) (t : Nat) (key : Nat) : Option (List Byte) :=
  (s.cores.oldLines.find? (fun o => decide (o.key = key ∧ SMap.get 0 s.cores.cutOf t ≤ o.cut))).map (·.bytes)

/-- A line enters the instruction cache of a core. -/
def State.keepCopy (s : State) (c : ICopy) : State :=
  { s with cores := { s.cores with
      icopies := c :: s.cores.icopies.filter (fun o => decide (¬ (o.phys = c.phys ∧ o.key = c.key ∧ o.tag = c.tag))) } }

/-- A core fetches the line at a place: a patched line as the kernel took it at acceptance, else the copy it holds, else the line as it was at the task's latest cut; with the cause its damage gives, 0 for none (R127, R134, R332). -/
def State.readLine (s : State) (t va : Nat) (p : Place) : State × List Half × Nat :=
  let phys := (s.task t).phys
  match (s.kernelOf t).bind (fun k => SMap.find k.images va) with
  | some img => (s.keepCopy ⟨phys, p.key, match s.groupOf t with | none => 0 | some g => g.kernel + 1, img⟩, img, 0)
  | none =>
    match s.cores.icopies.find? (fun c => decide (c.phys = phys ∧ c.key = p.key ∧ c.tag = 0)) with
    | some c => (s, c.img, 0)
    | none =>
      let r := s.placeRaw p 64
      let img := halvesOf ((s.lineBefore t p.key).getD r.2.1)
      (if r.2.2 = 0 then r.1.keepCopy ⟨phys, p.key, 0, img⟩ else r.1, img, r.2.2)

/-- The die or gateway that holds a location can be reached from a die (R23, R26, R425). -/
def State.memReachable (s : State) (d k : Nat) : Bool :=
  if 2 ^ 55 ≤ k ∧ k < 2 ^ 56 then s.reachable d ((k - 2 ^ 55) / 2 ^ 31)
  else if 2 ^ 54 ≤ k ∧ k < 2 ^ 55 then s.reachable d ((k - 2 ^ 54) / 2 ^ 31)
  else s.gatewayReachable d (if k < lpddrEnd then gatewayOf k else 0)

/-- A core reads the line at `va`: translation, then the line, with the cause its damage gives. The error is a cause of the translation, or 0x15 where the memory cannot be reached (R127, R181, R425). -/
def State.fetchImage (s : State) (t va : Nat) : State × Except Nat (List Half × Nat) :=
  let r := s.fetchPlace t va
  match r.2 with
  | .error m => (r.1, .error m.cause)
  | .ok p =>
    if !s.memReachable (s.task t).phys.d p.key then (r.1, .error 0x15)
    else
    let q := (r.1.gather (s.task t).ctx va false (s.kerKey t)).readLine t va p
    (q.1, .ok q.2)

/-- A core fetches the line at `va`; damage is an error: 0x09, or 0x0A for an expired line (R181, R199, R409, log 97). -/
def State.fetchLine (s : State) (t va : Nat) : State × Except Nat (List Half) :=
  let r := s.fetchImage t va
  match r.2 with
  | .error c => (r.1, .error c)
  | .ok q => (r.1, if q.2 = 0 then .ok q.1 else .error q.2)

/-- A core drops the copies of lines it holds: another task takes it. -/
def State.dropICopies (s : State) (p : Phys) : State :=
  { s with cores := { s.cores with icopies := s.cores.icopies.filter (fun c => decide (c.phys ≠ p)) } }

/-- A cut of code by a task: a CBAR, a FENCE.I or its start. The copies of lines its core holds are dropped, and later fetches see every earlier write (R127). -/
def State.cutCode (s : State) (t : Nat) : State :=
  let s := s.dropICopies (s.task t).phys
  { s with cores := { s.cores with cuts := s.cores.cuts + 1, cutOf := SMap.put s.cores.cutOf t (s.cores.cuts + 1) } }

/-- One halfword of code for the control thread. -/
def State.fetchHalf (s : State) (t va : Nat) : State × Except Nat Half :=
  let r := s.fetchLine t (va / 64 * 64)
  match r.2 with
  | .error c => (r.1, .error c)
  | .ok img => (r.1, .ok (img.getD (va % 64 / 2) 0))

/-- The exception of a control-thread fetch that fails with a cause: instruction page fault for 0x07, poison exception for 0x09, access fault otherwise (R147, R148, R395, log 20). -/
def fetchExc (cause : Nat) : Nat := if cause = 0x07 then 12 else if cause = 0x09 then excPoison else 1

/-- The word at the control thread's pc: a compressed instruction in 16 bits, any other in 32; both halves come from one read of the line where they lie in one. The error is an exception code and its address. A pc with a bit above 55 names no 56-bit virtual address: the model raises the instruction page fault (log 104). -/
def State.ctFetch (s : State) (t : Nat) : State × Except (Nat × Nat) Nat :=
  let pc := (s.ctl t).pc.toNat
  if 2 ^ 56 ≤ pc then (s, .error (12, pc))
  else
    let r := s.fetchLine t (pc / 64 * 64)
    match r.2 with
    | .error c => (r.1, .error (fetchExc c, pc))
    | .ok img =>
      let h := img.getD (pc % 64 / 2) 0
      if h.toNat % 4 ≠ 3 then (r.1, .ok h.toNat)
      else if pc % 64 < 62 then (r.1, .ok (h.toNat + 65536 * (img.getD (pc % 64 / 2 + 1) 0).toNat))
      else
        let q := r.1.fetchHalf t ((pc + 2) % 2 ^ 56)
        match q.2 with
        | .error c => (q.1, .error (fetchExc c, pc + 2))
        | .ok h' => (q.1, .ok (h.toNat + 65536 * h'.toNat))

/-! ### Queue addresses (R310) -/

/-- A location can be reached from gateway `h`: in HBM and LPDDR its own gateway, the host and other modules through gateway 0 (R13, R23, R26). -/
def State.gateReaches (s : State) (h k : Nat) : Bool := s.gatewaysMeet h (if k < lpddrEnd then gatewayOf k else 0)

/-- A location that a command processor on gateway `h` reaches; otherwise cause 0x15 (R308, R425). -/
def State.reachedFrom (s : State) (h : Nat) (r : Except Nat (Nat × Bool)) : Except Nat (Nat × Bool) :=
  match r with
  | .ok p => if s.gateReaches h p.1 then .ok p else .error 0x15
  | e => e

/-- Where a queue address of context `c` lies for a command processor on gateway `h`: a key and whether its page is ephemeral, or a cause (R310, R409). -/
def State.queueSpot (s : State) (h c : Nat) (need : Perm) (a : Nat) : Except Nat (Nat × Bool) :=
  s.reachedFrom h <|
    if bit a 63 then (if bits a 62 52 ≠ 0 then .error 0x08 else .ok (hostKey (bits a 51 0), false))
    else if bits a 62 56 ≠ 0 then .error 0x08
    else
      match s.translate c 0 0 3 need a with
      | .error m => .error m.cause
      | .ok p => .ok (p.key, p.eph)

/-- A queue address in a page that is not ephemeral; records, descriptors and semaphores may not be ephemeral (R409). -/
def State.queueFixed (s : State) (h c : Nat) (need : Perm) (a : Nat) : Except Nat Nat :=
  match s.queueSpot h c need a with
  | .error e => .error e
  | .ok p => if p.2 then .error 0x08 else .ok p.1

/-- A word at a queue address: its value or a cause (R319). -/
def State.queueWord (s : State) (h c a : Nat) : Except Nat Word :=
  match s.queueFixed h c .r a with
  | .error e => .error e
  | .ok k =>
    let r := s.readWord (locOf k) false
    if r.2 ≠ .none then .error 0x09 else .ok r.1

/-- An access at a queue address is gathered under the entry that is held for it (R401). -/
def State.gatherAt (s : State) (c a : Nat) (write : Bool) : State := if bit a 63 then s else s.gather c a write 0

/-- A use of a context-virtual queue address is gathered, and the command processor holds the entry (R397, R401). -/
def State.queueGather (s : State) (c a : Nat) (write : Bool) : State := if bit a 63 then s else (s.keepLease c a).gather c a write 0

end Sys2Proof.Machine
end

