-- ==== Sys2Proof/Machine/Sign.lean ====
section
/-! DEFINITION. Lines: the descriptor, heads with their tails, the checks of line entry, and the signature of signed lines (R118 to R120, R126 step 1, R128 to R130, R179, R218, R243). -/
namespace Sys2Proof.Machine

/-! ### Lines (R118 to R120) -/

def slotOf (img : List Half) (k : Nat) : Nat := (img.getD k 0).toNat
def lineType (img : List Half) : Nat := bits (slotOf img 0) 15 12
def lineHeads (img : List Half) : Nat := bits (slotOf img 0) 11 7
def linePT (img : List Half) : Bool := bit (slotOf img 0) 6
def lineSP (img : List Half) : Bool := bit (slotOf img 0) 5
/-- Types 4 and 5 are signed (R119). -/
def lineSigned (img : List Half) : Bool := decide (lineType img = 4 ∨ lineType img = 5)
/-- Top tail slot (R119). -/
def lineTop (img : List Half) : Nat := if lineSigned img then 29 else 31
/-- Tail length of head `i` in halfwords (R121). -/
def tailLen (img : List Half) (i : Nat) : Nat := bits (slotOf img i) 8 7
/-- S of R120: tail halfwords of the heads before head `i`. -/
def tailSum (img : List Half) : Nat → Nat
  | 0 => 0
  | 1 => 0
  | i + 2 => tailSum img (i + 1) + tailLen img (i + 1)
/-- The tail of head `i` (R120). -/
def tailAt (img : List Half) (i : Nat) : Nat :=
  let t := tailLen img i
  let lo := lineTop img + 1 - tailSum img i - t
  (List.range t).foldl (fun acc k => acc + slotOf img (lo + k) * 2 ^ (16 * k)) 0

/-- The instruction of head `i` (R126 step 2), as far as the head and its tail decide. -/
def headInstr (img : List Half) (i : Nat) : Except Decode.Reject Instr :=
  Decode.decodeHead (slotOf img i) (tailAt img i)

def headNumbers (img : List Half) : List Nat := (List.range (lineHeads img)).map (· + 1)

/-- Step 1 of R126. -/
def lineOk (img : List Half) : Bool :=
  let n := lineHeads img
  let used := n + tailSum img (n + 1)
  decide (lineType img = 0 ∨ lineType img = 1 ∨ lineType img = 4 ∨ lineType img = 5) &&
  decide (1 ≤ n ∧ n ≤ lineTop img) && decide (bits (slotOf img 0) 4 0 = 0) && decide (used ≤ lineTop img) &&
  (List.range (lineTop img - used)).all (fun k => slotOf img (n + 1 + k) == 0) &&
  (!lineSP img || (headNumbers img).any (fun i => bits (slotOf img i) 15 9 == 0x09))

/-- Terminators (R125). -/
def isTerminator : Instr → Bool
  | .br .. | .brx .. | .call .. | .callx .. | .loop .. | .fetch .. | .fetchReg .. | .stop .. => true
  | _ => false

/-! ### The signature (R129) -/

/-- A register of a file: 1 m, 2 q, 3 p. -/
abbrev SigReg := Nat × Nat

/-- What a head contributes: its recorded destination, a second destination, and the registers of A, B, and C or a D that is read. -/
structure SigUse where
  dest : Option SigReg := none
  also : Option SigReg := none
  a : Option SigReg := none
  b : Option SigReg := none
  c : Option SigReg := none
  /-- It writes every predicate (R179). -/
  allP : Bool := false

def sm (r : Reg) : Option SigReg := some (1, r.toNat)
def sq (r : Reg) : Option SigReg := some (2, r.toNat)
def sp (r : Reg) : Option SigReg := some (3, r.toNat)

/-- Destinations and sources of a head (R129, R179, R218, R243). -/
def sigUse : Instr → SigUse
  | .brx d _ => { c := sm d }
  | .call d _ _ => { dest := sm d }
  | .callx d a _ => { dest := sm d, a := sm a }
  | .loop d _ _ => { dest := sm d, c := sm d }
  | .fetchReg a _ => { a := sm a }
  | .rdsys d _ _ | .id _ d _ | .pmov d _ | .movi d _ _ | .lrecv d _ | .lpeek d _ | .ldl _ d _ _ _ => { dest := sm d }
  | .plog _ d a b _ => { dest := sp d, a := sp a, b := sp b }
  | .pmovPw a _ => { dest := some (3, 0), a := sm a, allP := true }
  | .pset _ d _ => { dest := sp d }
  | .alu _ d a b _ | .shf _ d a b _ | .mul _ d a b _ | .div _ d a b _ | .minmax _ d a b _ | .bextReg d a b _
  | .mkadr d a b _ | .mkrel d a b _ | .ldx _ d a b _ | .aadd _ _ d a b _ | .alog _ _ _ d a b _ | .amm _ _ _ d a b _
  | .aswp _ _ d a b _ | .spawn d a b _ => { dest := sm d, a := sm a, b := sm b }
  | .bitc _ d a _ | .bext d a _ _ _ | .addi d a _ _ | .alui _ d a _ _ | .shfi _ d a _ _ | .ld _ d a _ _
  | .lsend d a _ _ => { dest := sm d, a := sm a }
  | .bins d a _ _ _ => { dest := sm d, a := sm a, c := sm d }
  | .binsReg d a b _ => { dest := sm d, a := sm a, b := sm b, c := sm d }
  | .movhi d _ _ => { dest := sm d, c := sm d }
  | .sel d c a b _ => { dest := sm d, a := sm a, b := sm b, c := sp c }
  | .cmp _ d a b _ => { dest := sp d, a := sm a, b := sm b }
  | .cmpi _ d a _ _ => { dest := sp d, a := sm a }
  | .st _ d a _ _ => { a := sm a, c := sm d }
  | .stx _ d a b _ => { a := sm a, b := sm b, c := sm d }
  | .stp d a _ _ => { a := sm a, c := sm d }
  | .ldp d a _ _ => { dest := sm d, also := some (1, d.toNat + 1), a := sm a }
  | .acas _ _ d a b c _ => { dest := sm d, a := sm a, b := sm b, c := sm c }
  | .go a _ => { a := sm a }
  | .post _ _ d a b _ _ => { dest := sm d, a := sm a, b := sm b }
  | .recv _ nw d t b _ =>
    { dest := sm d, also := if nw then sp b else none, a := (match t with | .reg a => sm a | .imm _ => none), b := if nw then sp b else none }
  | .bind d a _ _ => { dest := sm d, a := sm a }
  | .unbind d _ _ | .rebind d _ _ => { dest := sm d }
  | .barx _ _ d a _ => { dest := sm d, a := sm a }
  | .barxNc _ _ d _ => { dest := sm d }
  | .bara _ a _ => { a := sm a }
  | .vadd _ _ d a b _ | .vsub _ _ d a b _ | .vmul _ _ d a b _ | .vmin _ _ d a b _ | .vmax _ _ d a b _
  | .vcmp _ _ d a b _ | .vdiv _ d a b _ | .vmulh _ _ d a b _ | .vavg _ _ d a b _ | .vshuf _ d a b _
  | .vzip _ _ d a b _ => { dest := sq d, a := sq a, b := sq b }
  | .vfma _ d a b c _ => { dest := sq d, a := sq a, b := sq b, c := sq c }
  | .vabs _ _ d a _ | .vneg _ _ d a _ | .vsqrt _ d a _ | .pdec _ _ d a _ | .penc _ _ d a _ | .vrot _ d a _ _
  | .vred _ _ d a _ | .vmov d a _ | .vpack _ d a _ | .vunpk _ d a _ => { dest := sq d, a := sq a }
  | .vlog f d a b _ => { dest := sq d, a := sq a, b := if f = .not then none else sq b }
  | .vsh _ _ d a n _ => { dest := sq d, a := sq a, b := match n with | .reg b => sq b | .imm _ => none }
  | .vsel d c a b _ => { dest := sq d, a := sq a, b := sq b, c := sp c }
  | .vcvt _ _ d a _ _ => { dest := sq d, a := sq a, c := sq d }
  | .pload _ a _ => { a := sm a }
  | .vdot _ d a b _ => { dest := sq d, a := sq a, b := sq b, c := sq d }
  | .vld d a _ _ => { dest := sq d, a := sm a }
  | .vst d a _ _ => { a := sm a, c := sq d }
  | .vmovQm d a _ | .vsplat _ d a _ => { dest := sq d, a := sm a }
  | .vmovMq d a _ => { dest := sm d, a := sq a }
  | .vlaneExt _ d a _ _ => { dest := sm d, a := sq a }
  | .vlaneIns _ d a _ _ => { dest := sq d, a := sm a, c := sq d }
  | .ezring _ a _ _ | .ezzld _ a _ _ | .ezzst _ a _ _ _ | .copy2 _ a _ _ | .tload _ a _ _ _ => { a := sm a }
  | .copy _ a b c _ _ => { a := sm a, b := sm b, c := sm c }
  | .semw d _ _ | .sems d _ _ => { c := sm d }
  | .semini d a _ => { a := sm a, c := sm d }
  | .semrd d a _ => { dest := sm d, a := sm a }
  | .cqst d _ | .ezqry d _ _ => { dest := sm d }
  | _ => {}

/-- The use writes register `r`. -/
def SigUse.writes (u : SigUse) (r : SigReg) : Bool :=
  u.dest == some r || u.also == some r || (u.allP && r.1 == 3)

/-- The producer of a register: the index of the latest earlier head that writes it, or 0 (R129). `earlier` holds the uses of heads k, k−1, …, 1. -/
def producer (r : SigReg) : List SigUse → Nat
  | [] => 0
  | u :: rest => if u.writes r then rest.length + 1 else producer r rest

def producerOf (r : Option SigReg) (earlier : List SigUse) : Nat :=
  match r with
  | none => 0
  | some r => producer r earlier

/-- The guard's predicate of a head (R122). -/
def sigGuard (tail : Nat) : Option SigReg := if bit tail 7 then some (3, bits tail 6 3) else none

/-- The six bytes of a head (R129). -/
def headBytes (h : Nat) (u : SigUse) (g : Option SigReg) (earlier : List SigUse) : List Nat :=
  [h, (match u.dest with | none => 0 | some r => r.1 * 64 + r.2), producerOf u.a earlier, producerOf u.b earlier,
   producerOf u.c earlier, producerOf g earlier]

/-- The last two bytes of the stream (R129). -/
def branchWord : Instr → Nat
  | .br i _ | .call _ i _ | .fetch i _ => (Decode.immVal i) % 65536
  | .loop _ i _ => i.toNat
  | .brx .. | .callx .. | .fetchReg .. => 0xFFFF
  | _ => 0

/-- The byte stream of heads k, k+1, …, from the uses before them. -/
def sigStream (img : List Half) : Nat → Nat → List SigUse → Nat → List Nat
  | 0, _, _, last => [last % 256, last / 256]
  | n + 1, k, earlier, _ =>
    let i := match headInstr img k with | .ok i => i | .error _ => .nop
    let u := sigUse i
    headBytes k u (if tailLen img k = 0 then none else sigGuard (tailAt img k)) earlier
      ++ sigStream img n (k + 1) (u :: earlier) (branchWord i)

/-- One step of the reflected CRC-32C. -/
def crcBit (c : Nat) : Nat := if c % 2 = 1 then (c / 2) ^^^ 0x82F6_3B78 else c / 2
def crcByte (c b : Nat) : Nat :=
  crcBit (crcBit (crcBit (crcBit (crcBit (crcBit (crcBit (crcBit (c ^^^ b))))))))
/-- CRC-32C as RFC 3720 defines it. -/
def crc32c (bs : List Nat) : Nat := (bs.foldl crcByte 0xFFFF_FFFF) ^^^ 0xFFFF_FFFF

/-- The signature computed from the line's encoding (R129). -/
def signature (img : List Half) : Nat := crc32c (sigStream img (lineHeads img) 1 [] 0)
/-- The line's trailer agrees, where it has one (R128). -/
def sigOk (img : List Half) : Bool :=
  !lineSigned img || signature img == slotOf img 30 + 65536 * slotOf img 31

/-- The line of a slot is checked at its end and its signature differs (R130). -/
def Slot.sigBad (x : Slot) : Bool :=
  match x.line.img with
  | none => false
  | some img => !x.line.unchecked && !sigOk img

end Sys2Proof.Machine
end

