-- ==== Sys2Proof/Machine/Operands.lean ====
section
/-! DEFINITION. Operand forms: immediates, line deltas, widths, address resolution, references to local memory, loads, stores and atomics on the own column (R50, R56, R57, R68, R196 to R203). -/
namespace Sys2Proof.Machine

/-! ### Immediates -/

/-- The sign-extended immediate; 0 for tail class 1 (R196). -/
def immInt : Imm → Int
  | .none => 0
  | .i16 v => v.toInt
  | .i32 v => v.toInt
def immWord (i : Imm) : Word := BitVec.ofInt 64 (immInt i)

/-- A code address moved by a line delta (R181). -/
def deltaLine (line : Nat) (d : Int) : BitVec 56 := BitVec.ofInt 56 ((line : Int) + 64 * d)

/-- Width in bytes and sign extension of a load (R195). -/
def ldBytes : LdW → Nat
  | .b => 1 | .h => 2 | .w => 4 | .d => 8 | .bs => 1 | .hs => 2 | .ws => 4
def ldSigned : LdW → Bool
  | .bs => true | .hs => true | .ws => true | _ => false
def stBytes : StW → Nat
  | .b => 1 | .h => 2 | .w => 4 | .d => 8
/-- The register value of a load of `n` bytes. -/
def extend (f : LdW) (v : Nat) : Word := if ldSigned f then sextW v (8 * ldBytes f) else BitVec.ofNat 64 v

/-! ### Address resolution (R50) -/

/-- Where a reference goes. -/
inductive Target
  | fault (cause val : Nat)
  | here (off : Nat)
  | there (c : Coord)
  deriving DecidableEq, Repr

/-- A coordinate in range (R50). -/
def coordIn (d y x : Int) : Option Coord :=
  if 0 ≤ d ∧ d ≤ 15 ∧ 0 ≤ y ∧ y ≤ 31 ∧ 0 ≤ x ∧ x < Config.width d.toNat then some ⟨d.toNat, y.toNat, x.toNat⟩ else none

/-- The coordinate of an address; none where R50 raises 0x08. -/
def coordOf (me : Coord) (a : Nat) : Option Coord :=
  let form := bits a 63 62
  if form = 3 then none
  else if form = 0 then (if bits a 61 22 ≠ 0 then none else some me)
  else if bits a 44 22 ≠ 0 then none
  else if form = 1 then coordIn (bits a 61 57) (bits a 56 51) (bits a 50 45)
  else coordIn ((me.d : Int) + sx (bits a 61 57) 5) ((me.y : Int) + sx (bits a 56 51) 6) ((me.x : Int) + sx (bits a 50 45) 6)

/-- R50: the effective address `a` of an access of `size` bytes from the coordinate `me`. -/
def resolve (me : Coord) (a size : Nat) : Target :=
  match coordOf me a with
  | none => .fault 0x08 a
  | some c =>
    if bits a 21 0 % size ≠ 0 then .fault 0x05 a
    else if c = me then .here (bits a 21 0)
    else .there c

/-- The target of the current head's reference; a head that has arrived by travel is not resolved again (R50, R203). -/
def State.target (s : State) (ea size : Nat) : Target :=
  if s.cur.line.arrived then (if bits ea 21 0 % size ≠ 0 then .fault 0x05 ea else .here (bits ea 21 0))
  else resolve s.me.coord ea size

/-- The slot stops at the head and travels (R37, R203); its bale leaves when its stores have landed. Its active sequence is discarded (R242). -/
def State.depart (s : State) (c : Coord) (ea : Nat) : State :=
  let s := s.updArch s.fTask (fun a =>
    match a.seq with
    | some q => if q.slot = s.fSlot then { a with seq := none } else a
    | none => a)
  (s.updCur (fun x => { x with st := .travelling, travel := some (c, ea) })).settle s.fTask s.fSlot

/-- Whether an access of `n` bytes at `off` in U-mode is denied (R54, R57). -/
def Arch.denied (a : Arch) (need : Need) (off n : Nat) : Bool :=
  decide (Config.undoBase < off + n) || (firstDenied a.lineLpa false need off n).isSome

/-! ### Copies that a FENCE.CORE orders (R66, R70) -/

/-- First byte of row `r`. -/
def rowAt (off : Nat) (stride : Int) (r : Nat) : Int := (off : Int) + stride * r

/-- A copy that a FENCE.CORE of the slot orders before its later accesses is outstanding: the head stalls, for the fence itself does not wait for copies (R66, R70, log 105). -/
def Arch.fenceStalls (a : Arch) (x : Slot) : Bool := a.eng.cmds.any (fun c => c.out && x.fenced.contains c.uid)

/-- A reference of the current head to `n` bytes: it faults, travels, stalls behind a fenced copy, or acts with `k` at an offset of the own column (R37, R50, R57, R70, R297). -/
def State.reference (s : State) (ea n : Nat) (need : Need) (k : Nat → State) : State :=
  match s.target ea n with
  | .fault c v => s.fault c v
  | .there c => if s.hasCh s.me.ctx then s.depart c ea else s.fault 0x03 0
  | .here off =>
    if s.me.arch.denied need off n then s.fault 0x04 ea
    else if s.me.arch.fenceStalls s.cur then s
    else k off

/-- The cause of consuming damage (R199, R409). -/
def poisonCause : Poison → Nat
  | .expired => 0x0A
  | _ => 0x09

/-! ### Loads and stores of a slot (R196, R198) -/

/-- The location at an offset has been read ahead of the current head. -/
def Slot.ahead (x : Slot) (o : Nat) : Bool := (SMap.find x.part o).isSome
/-- A location among `n` bytes has been read ahead. -/
def Slot.aheadIn (x : Slot) (off n : Nat) : Bool := x.part.any (fun e => decide (off ≤ e.1 ∧ e.1 < off + n))
/-- What has been read ahead of `n` bytes is read again by the heads after this one (R67). -/
def Slot.drop (x : Slot) (off n : Nat) : Slot := { x with part := x.part.filter (fun e => decide (¬ (off ≤ e.1 ∧ e.1 < off + n))) }
def State.spent (s : State) (off n : Nat) : State := s.updCur (fun x => x.drop off n)

/-- Read `n` bytes of one location of the own column, as read ahead or as the current slot sees them now, then go on (R64, R77). -/
def State.loadBytes (s : State) (ea off n : Nat) (k : Nat → State) : State :=
  match SMap.find s.cur.part (off / 8 * 8) with
  | some w => (k (w.toNat / 256 ^ (off % 8) % 256 ^ n)).spent (off / 8 * 8) 8
  | none =>
    match s.colPoison s.fTask s.cur.sb off n with
    | some p => s.fault (poisonCause p.2) ea
    | none => k (s.readSb s.fTask s.cur.sb off n)

/-- A location of a head of several: as read ahead, or as the current slot sees it now (R64). -/
def State.halfOf (s : State) (o : Nat) : Nat :=
  match SMap.find s.cur.part o with
  | some w => w.toNat
  | none => s.readSb s.fTask s.cur.sb o 8
/-- The damage of a location that has not been read ahead. -/
def State.halfPoison (s : State) (o : Nat) : Option (Nat × Poison) :=
  if s.cur.ahead o then none else s.colPoison s.fTask s.cur.sb o 8

/-- Read two locations of the own column, each for itself, then go on (R64). -/
def State.loadPair (s : State) (ea off : Nat) (k : Nat → State) : State :=
  match [off, off + 8].findSome? s.halfPoison with
  | some p => s.fault (poisonCause p.2) ea
  | none =>
    let t := k (s.halfOf off + s.halfOf (off + 8) * 2 ^ 64)
    if s.cur.aheadIn off 16 then t.spent off 16 else t

/-- `n` bytes of whole locations, each for itself (R64). -/
def State.seeLocs (s : State) (off n : Nat) : Nat :=
  if s.cur.aheadIn off n then (List.range (n / 8)).foldr (fun i v => s.halfOf (off + 8 * i) + 2 ^ 64 * v) 0
  else s.readSb s.fTask s.cur.sb off n
/-- The lowest damaged one of whole locations that are read now. -/
def State.locsPoison (s : State) (off n : Nat) : Option (Nat × Poison) :=
  if s.cur.aheadIn off n then (List.range (n / 8)).findSome? (fun i => s.halfPoison (off + 8 * i))
  else s.colPoison s.fTask s.cur.sb off n

/-- A location of the own column is read ahead, where an access to `n` bytes at `off`, the location `o` among them, may act now. -/
def State.readLoc (s : State) (off n o : Nat) : State :=
  if s.cur.ahead o || s.me.arch.denied .rd off n || s.me.arch.fenceStalls s.cur || (s.halfPoison o).isSome then s
  else s.updCur (fun x => { x with part := SMap.put x.part o (BitVec.ofNat 64 (s.halfOf o)) })

/-- One location of a head of `n` bytes at an address is read ahead of the others, by a free choice of none or which (R64). -/
def State.readAhead (s : State) (ea n : Nat) : State :=
  let i := (Config.freeWord s.free).toNat % (n / 8 + 1)
  let s := s.draw
  match s.target ea (min n 64) with
  | .here off => if i = 0 then s else s.readLoc off n (off + 8 * (i - 1))
  | _ => s

/-- A location of the own column is read ahead of a RECV, by a free choice of whether and which: a message gives it no order unless a POST.REL sent it and a RECV.ACQ takes it (R77, R79, R90). -/
def State.readAheadAny (s : State) : State :=
  let i := (Config.freeWord s.free).toNat % (Config.undoBase / 8 + 1)
  let s := s.draw
  if i = 0 then s else s.readLoc (8 * (i - 1)) 8 (8 * (i - 1))

/-- A location of level memory is read ahead of a RECV in the same way; the slot's next copy may return that value (R77, R93, log 94). -/
def State.readFar (s : State) : State :=
  let n := (Config.freeWord s.free).toNat
  let s := s.draw
  let k := 8 * (n / 2 % 2 ^ 53)
  if n % 2 = 0 || s.cur.far.isSome || !(decide (k < lpddrEnd) || decide (2 ^ 54 ≤ k ∧ k < 2 ^ 56)) || s.isRemote k || s.poisonOf (s.served k) ≠ .none then s
  else s.updCur (fun x => { x with far := some (k, (s.readWord k false).1) })

/-- One store-buffer entry of the current slot; a location that has been read ahead is its own write from now on (R68). -/
def State.storeEntry (s : State) (off n v : Nat) : State :=
  let k := (s.arch s.fTask).serial
  (s.updCur (fun x => { x with sb := x.sb ++ [⟨off, n, v, k⟩], part := (x.drop (off / 8 * 8) 8).part })).updArch s.fTask (fun a => { a with serial := k + 1 })

/-- A store of at most 8 bytes, then on; a narrower store into damage faults (R199). -/
def State.storeBytes (s : State) (ea off n v : Nat) (k : State → State) : State :=
  if n < 8 then
    match s.colPoison s.fTask s.cur.sb off n with
    | some p => s.fault (poisonCause p.2) ea
    | none => k (s.storeEntry off n (v % 2 ^ (8 * n)))
  else k (s.storeEntry off n (v % 2 ^ 64))

/-- A store of two locations. -/
def State.storePair (s : State) (off v : Nat) : State :=
  (s.storeEntry off 8 (v % 2 ^ 64)).storeEntry (off + 8) 8 (v / 2 ^ 64 % 2 ^ 64)

/-! ### Atomics (R70, R201, R202) -/

/-- Land the entries of the current slot that lie in one location. -/
def State.flushLoc (s : State) (t i loc : Nat) : State :=
  let sb := (s.slot t i).sb
  (s.landAll t (sb.filter (fun e => decide (e.off / 8 * 8 = loc)))).updSlot t i
    (fun x => { x with sb := x.sb.filter (fun e => decide (e.off / 8 * 8 ≠ loc)) })

/-- An atomic carries a release (R70). -/
def ordRel : AOrd → Bool
  | .rel => true
  | .ar => true
  | _ => false

/-- An atomic carries an acquire (R70). -/
def ordAcq : AOrd → Bool
  | .acq => true
  | .ar => true
  | _ => false

/-- An atomic of the current head at m[A]: `f` gives the new value from the old one, none for no write; the old value goes to m[D] (R201). -/
def State.atomic (s : State) (o : AOrd) (w4 : Bool) (d a : Reg) (f : Nat → Option Nat) : State :=
  let n := if w4 then 4 else 8
  let ea := (s.cur.getM a).toNat
  s.reference ea n .rw (fun off =>
    match s.colPoison s.fTask s.cur.sb off n with
    | some p => s.fault (poisonCause p.2) ea
    | none =>
      let s := if ordRel o then s.flushSlot s.fTask s.fSlot else s.flushLoc s.fTask s.fSlot (off / 8 * 8)
      let old := s.read (s.colKey s.fTask off) n
      let s := match f old with
        | none => s
        | some v => s.landColumn s.fTask off n (v % 2 ^ (8 * n))
      s.retire (fun x =>
        let x := (x.setM d (BitVec.ofNat 64 old)).drop (off / 8 * 8) 8
        if ordAcq o then x.reread else x))

/-- Minimum and maximum of two `n`-bit values (R201). -/
def minmaxN (f : MmOp) (n a b : Nat) : Nat :=
  match f with
  | .min => if sx a n ≤ sx b n then a else b
  | .max => if sx a n ≤ sx b n then b else a
  | .minu => min a b
  | .maxu => max a b

end Sys2Proof.Machine
end

