-- ==== Sys2Proof/Machine/CtMem.lean ====
section
/-! DEFINITION. Data accesses of the control thread to its own column, with their exceptions, and its store buffer (R57, R65, R70, R71, R147, R149). -/
namespace Sys2Proof.Machine

/-- The access and misaligned exceptions of R147, in the order of its table: code and stval. `store`: a store, an SC or an AMO. -/
def Ctl.accessFault (c : Ctl) (need : Need) (store : Bool) (a n : Nat) : Option (Nat × Nat) :=
  if Config.undoBase ≤ a ∨ (firstDenied c.d.lpa (decide (c.mode = .s)) need a n).isSome then
    some (if store then excStoreAccess else excLoadAccess, a)
  else if a % n ≠ 0 then some (if store then excStoreAlign else excLoadAlign, a)
  else none

/-- The exception of an access that `consumes` the bytes it names: access, then alignment, then poison with the location's address (R147). -/
def State.ctFault (s : State) (t : Nat) (need : Need) (store consumes : Bool) (a n : Nat) : Option (Nat × Nat) :=
  match (s.ctl t).accessFault need store a n with
  | some e => some e
  | none =>
    if consumes then
      match s.colPoison t (s.ctl t).sb a n with
      | some p => some (excPoison, p.1)
      | none => none
    else none

/-- The control thread takes the exception of a data access; expired poison triggers no rollback (R147, R409). -/
def State.ctRaise (s : State) (t : Nat) (e : Nat × Nat) : State :=
  if e.1 = excPoison ∧ s.poisonOf (s.colKey t e.2) = .expired then
    s.updCtl t (fun c => c.trap false e.1 (BitVec.ofNat 64 e.2))
  else s.ctTrap t e.1 (BitVec.ofNat 64 e.2)

/-- An access that faults, or `k`. -/
def State.ctAccess (s : State) (t : Nat) (need : Need) (store consumes : Bool) (a n : Nat) (k : State) : State :=
  match s.ctFault t need store consumes a n with
  | some e => s.ctRaise t e
  | none => k

/-- `n` bytes as the control thread reads them: its own stores before memory. -/
def State.ctRead (s : State) (t a n : Nat) : Nat := s.readSb t (s.ctl t).sb a n

/-- A store of the control thread enters its store buffer (R65). -/
def State.ctStore (s : State) (t a n v : Nat) : State :=
  let k := (s.arch t).serial
  (s.updCtl t (fun c => { c with sb := c.sb ++ [⟨a, n, v % 2 ^ (8 * n), k⟩] })).updArch t (fun a => { a with serial := k + 1 })

/-- Entries of the control thread's store buffer that lie in one location land (R68). -/
def State.flushCtlLoc (s : State) (t loc : Nat) : State :=
  let sb := (s.ctl t).sb
  (s.landAll t (sb.filter (fun e => decide (e.off / 8 * 8 = loc)))).updCtl t
    (fun c => { c with sb := c.sb.filter (fun e => decide (e.off / 8 * 8 ≠ loc)) })

/-- What an atomic access of the control thread lands first: with `rl` every store, otherwise the stores to its location (R70, R71). -/
def State.flushFor (s : State) (t a : Nat) (rl : Bool) : State := if rl then s.flushCtl t else s.flushCtlLoc t (a / 8 * 8)

/-- A location of a record in the column: as it has been read ahead of the others, or as the control thread sees it now (R64). -/
def State.ctLoc (s : State) (t a : Nat) : Word :=
  match SMap.find (s.ctl t).ahead a with
  | some w => w
  | none => BitVec.ofNat 64 (s.ctRead t a 8)
/-- Words of the column as a control-thread instruction reads them: eight bytes each, each location for itself (R64, R165, R304). -/
def State.ctWords (s : State) (t a : Nat) : Nat → List Word
  | 0 => []
  | n + 1 => s.ctLoc t a :: s.ctWords t (a + 8) n

/-- The exception of a read of `n` words at an aligned offset, word by word (R147). -/
def State.ctReadFault (s : State) (t a : Nat) : Nat → Option (Nat × Nat)
  | 0 => none
  | n + 1 =>
    match s.ctFault t .rd false true a 8 with
    | some e => some e
    | none => s.ctReadFault t (a + 8) n

end Sys2Proof.Machine
end

