-- ==== Sys2Proof/Machine/Csr.lean ====
section
/-! DEFINITION. Registers that microthreads and control threads read: the execution-model CSRs, counters, CORECOORD, NXSTAT and the identity word (R38, R46, R47, R106, R146, R154, R155, R212). -/
namespace Sys2Proof.Machine

def SlotSt.code : SlotSt → Nat
  | .free => 0 | .ready => 1 | .running => 2 | .waiting => 3 | .travelling => 4 | .faulted => 5 | .stopped => 6
def Wr.code : Wr → Nat
  | .none => 0 | .broadcast => 1 | .message => 2 | .levelCopy => 3 | .engineSem => 4 | .barrier => 5 | .linkInbox => 6
  | .ctSync => 7 | .migrate => 8

/-- SLOTSTATE (R47). -/
def Arch.slotState (a : Arch) : Nat :=
  (List.range 10).foldl (fun acc i => acc + ((a.slot i).st.code + 8 * b01 (a.slot i).ind) * 16 ^ i) 0
/-- WAITREASON (R47). -/
def Arch.waitReason (a : Arch) : Nat := (List.range 10).foldl (fun acc i => acc + (a.slot i).wr.code * 16 ^ i) 0
/-- Entries the arrival queue and the caravanserai hold together (R39). -/
def arrivalRoom : Nat := 16 + 256
/-- ARRIVALS; BP shows that a bale was refused and no entry has become free since (R39, R47, log 120). -/
def Msgs.arrivalsCsr (m : Msgs) : Nat :=
  min m.arrivals.length 16 + (m.arrivals.length - 16) * 2 ^ 16 + b01 m.refuses * 2 ^ 32
/-- MEMBL; `priv` shows the fields of view P (R47, R373). -/
def Memb.csr (m : Memb) (priv : Bool) : Nat :=
  b01 m.mem + 2 * b01 m.top + 4 * b01 m.arr + 8 * b01 (m.top && m.nr) +
    (if priv then m.domsize % 2 ^ 15 * 2 ^ 16 + m.domid % 2 ^ 16 * 2 ^ 32 else 0)

def Memb.blank : Memb := ⟨false, false, false, false, 0, 0⟩
def BarCore.membOf (b : BarCore) (l : Nat) : Memb := vget Memb.blank b.memb (l - 1)

/-- CORECOORD; `priv` shows the fields of view P (R155). -/
def Task.coreCoord (k : Task) (priv : Bool) : Nat :=
  k.coord.code + b01 (Config.vegaken k.phys.d) * 2 ^ 24 +
    (if priv then (k.phys.d % 32 + k.phys.r % 32 * 32 + k.phys.p % 128 * 1024) * 2 ^ 32 else 0)

/-- The IDENT word of a microthread (R38). -/
def Ident.word (i : Ident) : Nat :=
  i.home.code + i.homeSlot % 16 * 2 ^ 17 + b01 i.nx * 2 ^ 21 + b01 i.sp * 2 ^ 22

/-- The read-only CSRs of both views, by number (R46, R106, R154). -/
def State.userCsr (s : State) (t : Nat) (n : Nat) (priv : Bool) : Option Word :=
  let k := s.task t; let a := k.arch
  let w : Nat → Option Word := fun v => some (BitVec.ofNat 64 v)
  if n = 0x0C00 then some a.ctl.s.cycle
  else if n = 0x0C01 then w s.now
  else if n = 0x0C02 then some a.ctl.s.instret
  else if n = 0x0CC0 then w Config.runBudget
  else if n = 0x0CC1 then w a.slotState
  else if n = 0x0CC2 then w a.waitReason
  else if n = 0x0CC3 then w (a.spawnOut + Config.spawnLimit * 256)
  else if n = 0x0CC4 then w a.msgs.arrivalsCsr
  else if n = 0x0CC8 then some a.bar.step0
  else if 0x0CC9 ≤ n ∧ n ≤ 0x0CCC then some (vget 0 a.bar.steps (n - 0x0CC9))
  else if 0x0CCD ≤ n ∧ n ≤ 0x0CD0 then w ((a.bar.membOf (n - 0x0CCC)).csr priv)
  else if n = 0x0CD1 then w (b01 a.eng.nx)
  else if n = 0x0CD2 then w (k.coreCoord priv)
  else none

/-- The counter is enabled for U-mode by scounteren (R146). -/
def Ctl.counterOk (c : Ctl) (n : Nat) : Bool := !decide (0x0C00 ≤ n ∧ n ≤ 0x0C02) || bit c.s.scounteren.toNat (n - 0x0C00)

/-- The identity of a microthread that START or BCAST creates in slot `i` of task `t` (R38). -/
def State.newIdent (s : State) (t i : Nat) (sp : Bool) : Ident :=
  let k := s.task t
  { hops := 0, home := k.coord, homeSlot := i, nx := k.arch.eng.nx, sp := sp, hkh := k.kh, hgrp := k.gidx,
    skh := k.kh, sgrp := k.gidx }

end Sys2Proof.Machine
end

