-- ==== Sys2Proof/Machine/LocalMem.lean ====
section
/-! DEFINITION. Loads, stores and atomics of microthreads (R195 to R202). -/
namespace Sys2Proof.Machine

/-- Effective address of an offset form (R196). -/
def Slot.ea (x : Slot) (a : Reg) (imm : Imm) : Nat := (x.getM a + immWord imm).toNat
/-- Effective address of an indexed form (R196). -/
def Slot.eax (x : Slot) (a b : Reg) (n : Nat) : Nat := (x.getM a + x.getM b * BitVec.ofNat 64 n).toNat

/-- A load of the current head (R196, R199). -/
def State.load (s : State) (f : LdW) (d : Reg) (ea : Nat) : State :=
  s.reference ea (ldBytes f) .rd (fun off =>
    s.loadBytes ea off (ldBytes f) (fun v => s.retire (fun x => x.setM d (extend f v))))

/-- A store of the current head (R196, R199). -/
def State.store (s : State) (f : StW) (v : Word) (ea : Nat) : State :=
  s.reference ea (stBytes f) .wr (fun off =>
    s.storeBytes ea off (stBytes f) v.toNat (fun s => s.retire id))

/-- LD (R196). -/
def execLd (f : LdW) (d a : Reg) (imm : Imm) (g : Guard) (s : State) : Host.Outcome State Fault Refusal :=
  guarded g (fun s => s.load f d (s.cur.ea a imm)) s

/-- ST (R196). -/
def execSt (f : StW) (d a : Reg) (imm : Imm) (g : Guard) (s : State) : Host.Outcome State Fault Refusal :=
  guarded g (fun s => s.store f (s.cur.getM d) (s.cur.ea a imm)) s

/-- The bytes of a literal pool line (R197). -/
def poolValue (img : List Half) (b n : Nat) : Nat :=
  ofBytesLE (((img.flatMap (fun h => bytesLE h.toNat 2)).drop b).take n)

/-- LDL (R132, R197). -/
def execLdl (f : LdW) (d : Reg) (delta : BitVec 10) (off : BitVec 6) (g : Guard) (s : State) :
    Host.Outcome State Fault Refusal :=
  guarded g (fun s =>
    let b := off.toNat; let n := ldBytes f
    if b < 2 ∨ 64 < b + n then s.fault 0x01 0
    else
      let a := (deltaLine s.cur.line_ delta.toInt).toNat
      let r := s.fetchImage s.fTask a
      match r.2 with
      | .error c => r.1.fault c a
      | .ok (img, c) =>
        if lineType img ≠ 2 then r.1.fault 0x01 0
        else if c ≠ 0 then r.1.fault c a
        else r.1.retire (fun x => x.setM d (extend f (poolValue img b n)))) s

/-- LDP: two words (R196). -/
def execLdp (d a : Reg) (imm : Imm) (g : Guard) (s : State) : Host.Outcome State Fault Refusal :=
  guarded g (fun s =>
    let ea := s.cur.ea a imm
    s.reference ea 16 .rd (fun off => s.loadPair ea off (fun v =>
      s.retire (fun x => (x.setM d (BitVec.ofNat 64 v)).setM (d + 1) (BitVec.ofNat 64 (v / 2 ^ 64)))))) s

/-- STP: two words (R196). -/
def execStp (d a : Reg) (imm : Imm) (g : Guard) (s : State) : Host.Outcome State Fault Refusal :=
  guarded g (fun s =>
    let ea := s.cur.ea a imm
    s.reference ea 16 .wr (fun off =>
      (s.storePair off ((s.cur.getM d).toNat + (s.cur.getM (d + 1)).toNat * 2 ^ 64)).retire id)) s

/-- LDX (R196). -/
def execLdx (f : LdW) (d a b : Reg) (g : Guard) (s : State) : Host.Outcome State Fault Refusal :=
  guarded g (fun s => s.load f d (s.cur.eax a b (ldBytes f))) s

/-- STX (R196). -/
def execStx (f : StW) (d a b : Reg) (g : Guard) (s : State) : Host.Outcome State Fault Refusal :=
  guarded g (fun s => s.store f (s.cur.getM d) (s.cur.eax a b (stBytes f))) s

/-- AADD (R201). -/
def execAadd (o : AOrd) (w4 : Bool) (d a b : Reg) (g : Guard) (s : State) : Host.Outcome State Fault Refusal :=
  guarded g (fun s => s.atomic o w4 d a (fun old => some (old + (s.cur.getM b).toNat))) s

/-- AAND, AOR, AXOR (R201). -/
def execAlog (f : ALogOp) (o : AOrd) (w4 : Bool) (d a b : Reg) (g : Guard) (s : State) :
    Host.Outcome State Fault Refusal :=
  guarded g (fun s =>
    let v := (s.cur.getM b).toNat
    s.atomic o w4 d a (fun old => some (match f with
      | .and => old &&& v
      | .or => old ||| v
      | .xor => old ^^^ v))) s

/-- AMIN, AMAX, AMINU, AMAXU on the bytes of the access (R201). -/
def execAmm (f : MmOp) (o : AOrd) (w4 : Bool) (d a b : Reg) (g : Guard) (s : State) :
    Host.Outcome State Fault Refusal :=
  guarded g (fun s =>
    let n := if w4 then 32 else 64
    let v := (s.cur.getM b).toNat % 2 ^ n
    s.atomic o w4 d a (fun old => some (minmaxN f n old v))) s

/-- ASWP (R201). -/
def execAswp (o : AOrd) (w4 : Bool) (d a b : Reg) (g : Guard) (s : State) : Host.Outcome State Fault Refusal :=
  guarded g (fun s => s.atomic o w4 d a (fun _ => some (s.cur.getM b).toNat)) s

/-- ACAS: nothing is written where the comparison fails (R201, R202). -/
def execAcas (o : AOrd) (w4 : Bool) (d a b c : Reg) (g : Guard) (s : State) : Host.Outcome State Fault Refusal :=
  guarded g (fun s =>
    let n := if w4 then 32 else 64
    s.atomic o w4 d a (fun old =>
      if old = (s.cur.getM c).toNat % 2 ^ n then some (s.cur.getM b).toNat else none)) s

end Sys2Proof.Machine
end

