-- ==== Sys2Proof/Machine/Travel.lean ====
section
/-! DEFINITION. Bales, the arrival path, travel, spawning, register links and control-thread sync (R37 to R41, R203 to R210, R356). -/
namespace Sys2Proof.Machine

/-! ### Bales and arrivals (R38, R39, R356) -/

/-- The 128 bytes of a bale as a number (R38). -/
def baleImage (m : List Word) (pc pw hops ident ctx : Nat) (i : Ident) : Nat :=
  (m.foldr (fun w acc => w.toNat + acc * 2 ^ 64) 0) % 2 ^ 640 + pc % 2 ^ 56 * 2 ^ 640 + pw % 2 ^ 16 * 2 ^ 704
    + hops % 2 ^ 16 * 2 ^ 720 + ident % 2 ^ 32 * 2 ^ 736 + ctx % 2 ^ 12 * 2 ^ 768
    + i.hkh % 2 ^ 32 * 2 ^ 800 + i.hgrp % 2 ^ 32 * 2 ^ 832 + i.skh % 2 ^ 32 * 2 ^ 864 + i.sgrp % 2 ^ 32 * 2 ^ 896

/-- The caravanserai record of an arrival; a triggered message holds its payload, sender, tag and NX in bale layout (R356). -/
def Arrival.image : Arrival → Nat
  | .bale b => baleImage b.m.toList b.pc.toNat b.pw.toNat b.id.hops b.id.word b.ctx b.id
  | .returned b _ => baleImage b.m.toList b.pc.toNat b.pw.toNat b.id.hops b.id.word b.ctx b.id
  | .handler m _ =>
    baleImage [m.payload, BitVec.ofNat 64 m.src.code, BitVec.ofNat 64 m.tag] 0 0 0 (b01 m.nx * 2 ^ 21) 0 Ident.zero

/-- The core can take one more arrival (R39). -/
def Msgs.room (m : Msgs) : Bool := decide (m.arrivals.length < arrivalRoom)

/-- A bale or a local spawn that the full core refused waits at the network interface of task `t`, before the one whose own place there is `turn`, or before one that comes only now (R39). -/
def State.waitsBefore (s : State) (t : Nat) (turn : Option Nat) : Bool :=
  let k := s.task t
  s.net.any (fun p => decide (p.dst = k.coord ∧ p.ctx = k.ctx ∧ p.path = some []) &&
    (match p.turn, turn with | some i, some j => decide (i < j) | some _, none => true | none, _ => false))
/-- The core takes an arrival at its network interface: it has room, and nothing that came there earlier waits (R39). -/
def State.takesArrival (s : State) (t : Nat) (turn : Option Nat) : Bool := (s.arch t).msgs.room && !s.waitsBefore t turn

/-- The core of task `t` refuses a packet of uid `u`, which keeps the place it then has (R39, R47, log 120). -/
def State.refuse (s : State) (t u : Nat) : State :=
  ({ s with pkts := s.pkts + 1
            net := s.net.map (fun p => if p.uid = u ∧ p.turn.isNone then { p with turn := some s.pkts } else p) } : State).updMsgs t
    (fun m => { m with refuses := true })

/-- An arrival enters the arrival queue, or the caravanserai when the queue is full (R39, R356). -/
def State.enterArrival (s : State) (t : Nat) (x : Arrival) : State :=
  let m := (s.arch t).msgs
  if m.arrivals.length < 16 then s.updMsgs t (fun m => { m with arrivals := m.arrivals ++ [x] })
  else
    (s.write (s.colKey t (Config.caravanBase + 128 * m.caravan)) x.image 128).updMsgs t
      (fun m => { m with arrivals := m.arrivals ++ [x], caravan := (m.caravan + 1) % 256
                         refuses := decide (arrivalRoom ≤ m.arrivals.length + 1) && s.waitsBefore t none })

/-- The bale of slot `i`, packed at departure (R38, R203). -/
def State.packBale (s : State) (t i : Nat) : Bale :=
  let x := s.slot t i; let k := s.task t
  { m := x.m, pw := x.pw, pc := x.pc, ctx := k.ctx, arrived := true, ea := (x.travel.map (·.2)).getD 0,
    id := { x.id with hops := min (x.id.hops + 1) 0xFFFF, nx := k.arch.eng.nx, skh := k.kh, sgrp := k.gidx } }

/-! ### GO, HOME and SPAWN (R206, R207) -/

/-- Travel without an access: faults and the channel check as for a load of one byte (R206, R297). -/
def State.goTo (s : State) (ea : Nat) : State :=
  match s.target ea 1 with
  | .fault c v => s.fault c v
  | .there c => if s.hasCh s.me.ctx then s.depart c ea else s.fault 0x03 0
  | .here _ => s.retire id

/-- GO (R206). -/
def execGo (a : Reg) (g : Guard) (s : State) : Host.Outcome State Fault Refusal :=
  guarded g (fun s => s.goTo (s.cur.getM a).toNat) s

/-- HOME: GO with the column-form address of the home coordinate (R206). -/
def execHome (g : Guard) (s : State) : Host.Outcome State Fault Refusal :=
  guarded g (fun s =>
    let h := s.cur.id.home
    s.goTo (2 ^ 62 + h.d * 2 ^ 57 + h.y * 2 ^ 51 + h.x * 2 ^ 45)) s

/-- The bale of a child (R207). -/
def State.childBale (s : State) (c : Coord) (e : Nat) : Bale :=
  let x := s.cur
  { m := x.m, pw := x.pw, pc := pcAt e 1, ctx := s.me.ctx, arrived := false, ea := 2 ^ 62 + c.d * 2 ^ 57 + c.y * 2 ^ 51 + c.x * 2 ^ 45,
    id := { s.newIdent s.fTask s.fSlot true with hops := if c = s.me.coord then 0 else 1 } }

/-- A child is created: counted, and entered in the own arrival queue, where nothing waits to enter it, or at the interface behind what waits, or sent (R39, R207). -/
def State.spawnChild (s : State) (c : Coord) (e : Nat) : State :=
  let t := s.fTask; let b := s.childBale c e; let k := s.me
  let s := s.updArch t (fun a => { a with spawnOut := a.spawnOut + 1 })
  if c = k.coord then
    if s.takesArrival t none then s.enterArrival t (.bale b)
    else (s.send { Packet.new k.coord k.coord (s.ctxCh k.ctx) k.ctx k.group (.bale b) with from_ := k.phys, goal := k.phys }).refuse t s.pkts
  else s.emit t c (.bale b)

/-- SPAWN: status 3, 2, 1 or 0 in m[D] (R207, R297). -/
def execSpawn (d a b : Reg) (g : Guard) (s : State) : Host.Outcome State Fault Refusal :=
  guarded g (fun s =>
    let e := (s.cur.getM b).toNat
    let status : Word → State := fun v => s.retire (fun x => x.setM d v)
    match coordOf s.me.coord (s.cur.getM a).toNat with
    | none => status 3
    | some c =>
      if bits e 63 56 ≠ 0 ∨ bits e 5 0 ≠ 0 then status 2
      else if Config.spawnLimit ≤ s.me.arch.spawnOut then status 1
      else if c ≠ s.me.coord ∧ !s.hasCh s.me.ctx then s.fault 0x03 0
      else (s.spawnChild c e).retire (fun x => x.setM d 0)) s

/-! ### Register links (R208, R209) -/

/-- LSEND (R209). -/
def execLsend (d a : Reg) (slot : BitVec 4) (g : Guard) (s : State) : Host.Outcome State Fault Refusal :=
  guarded g (fun s =>
    let y := s.slot s.fTask slot.toNat
    let v := s.cur.getM a
    if y.st = .free ∨ y.st = .stopped ∨ y.st = .travelling then s.retire (fun x => x.setM d 2)
    else if 4 ≤ y.inbox.length then s.retire (fun x => x.setM d 1)
    else (s.updSlot s.fTask slot.toNat (fun y => { y with inbox := y.inbox ++ [v] })).retire (fun x => x.setM d 0)) s

/-- LRECV: waits while the inbox is empty (R209). -/
def execLrecv (d : Reg) (g : Guard) (s : State) : Host.Outcome State Fault Refusal :=
  guarded g (fun s =>
    match s.cur.inbox with
    | [] => s.waitAt .linkInbox .inbox
    | v :: rest => s.retire (fun x => ({ x with inbox := rest }).setM d v)) s

/-- LPEEK (R209). -/
def execLpeek (d : Reg) (g : Guard) (s : State) : Host.Outcome State Fault Refusal :=
  guarded g (fun s => s.retire (fun x => x.setM d (BitVec.ofNat 64 x.inbox.length))) s

/-! ### Control-thread sync (R210) -/

/-- CSYNC signal: bit s of CTSYNC.SIG (R210). -/
def execCsyncSig (g : Guard) (s : State) : Host.Outcome State Fault Refusal :=
  guarded g (fun s =>
    (s.updD s.fTask (fun d => { d with sig := d.sig ||| BitVec.ofNat 10 (2 ^ s.fSlot) })).retire id) s

/-- CSYNC wait: consumes bit s of CTSYNC.GO, or waits for it (R210). -/
def execCsyncWait (g : Guard) (s : State) : Host.Outcome State Fault Refusal :=
  guarded g (fun s =>
    if (s.ctl s.fTask).d.go.getLsbD s.fSlot then
      (s.updD s.fTask (fun d => { d with go := d.go &&& ~~~ (BitVec.ofNat 10 (2 ^ s.fSlot)) })).retire id
    else s.waitAt .ctSync .go) s

end Sys2Proof.Machine
end

