-- ==== Sys2Proof/Machine/Messages.lean ====
section
/-! DEFINITION. Paths of copies, POST, RECV, handler tags, exchange windows and the arrivals of barriers (R42, R43, R78, R82, R277 to R288). -/
namespace Sys2Proof.Machine

/-! ### Windows and paths of a copy (R60, R74, R82) -/

/-- The smallest level that encloses two coordinates: 0, 1, 2 or 3. -/
def enclosing (a b : Coord) : Nat :=
  if a = b then 0 else if a.d ≠ b.d then 3 else if a.tile = b.tile then 1 else 2

/-- The window an end needs; 0 for the own column (R60). -/
def CEnd.window (me : Coord) : CEnd → Nat
  | .own => 0
  | .col c => enclosing me c
  | .level l => l

/-- The window set (R60). -/
def CopyD.windows (me : Coord) (d : CopyD) : List Nat := [d.dEnd.window me, d.sEnd.window me].filter (· ≠ 0)
/-- The window level (R74). -/
def CopyD.level (me : Coord) (d : CopyD) : Nat := max (d.dEnd.window me) (d.sEnd.window me)

/-- A copy whose destination could not be read or names no end. -/
def CopyD.blank : CopyD := ⟨0, 0, 0, 0, 0, 0, .own, .own⟩

/-- Paths a copy may still be on, none where it has no destination: 0 local, 1 group, 2 die, 3 module, 4 LPDDR, 5 pod (R82). -/
def Cmd.paths (me : Coord) (c : Cmd) : List Nat :=
  match c.op with
  | .copy d =>
    if c.fault.isSome && decide (d = .blank) then []
    else
    match d.dEnd with
    | .own => [0]
    | .col k => [enclosing me k]
    | .level 3 => match c.path with | some p => [p] | none => [3, 4]
    | .level 4 => [5]
    | .level l => [l]
  | _ => []

/-- Outstanding copies of a core. -/
def Eng.copies (e : Eng) : List Cmd :=
  e.cmds.filter (fun c => c.out && (match c.op with | .copy _ => true | _ => false))

/-- Numbers of the copies outstanding now. -/
def Eng.copyUids (e : Eng) : List Nat := e.copies.map (·.uid)

/-- Paths covered by the scope of a POST.REL (R78). -/
def coveredPaths (scope : Nat) : List Nat :=
  if scope = 0 then [0] else if scope = 1 then [0, 1] else if scope = 2 then [0, 1, 2] else [0, 1, 2, 3, 4]

/-- Every copy of the list on one of the paths has landed or ended (R78, R261). -/
def Eng.pathsClear (e : Eng) (me : Coord) (uids paths : List Nat) : Bool :=
  e.copies.all (fun c => !uids.contains c.uid || !(c.paths me).any paths.contains)

/-! ### POST and RECV (R278, R279) -/

/-- POST (R78, R278, R297). -/
def execPost (rel trig : Bool) (d a b : Reg) (tag : BitVec 6) (g : Guard) (s : State) :
    Host.Outcome State Fault Refusal :=
  guarded g (fun s =>
    let k := s.me; let ea := (s.cur.getM a).toNat
    match coordOf k.coord ea with
    | none => s.fault 0x08 ea
    | some c =>
      if c ≠ k.coord ∧ !s.hasCh k.ctx then s.fault 0x03 0
      else if 16 ≤ k.arch.msgs.sendb.length then s.retire (fun x => x.setM d 1)
      else
        let m : Msg := { payload := s.cur.getM b, tag := tag.toNat, trig := trig, src := k.coord, kh := k.kh,
                         grp := k.gidx, nx := k.arch.eng.nx, ctx := k.ctx, rel := rel }
        let hold := if rel then some (k.arch.serial, k.arch.eng.copyUids) else none
        (s.updMsgs s.fTask (fun q => { q with sendb := q.sendb ++ [⟨m, c, s.fSlot, hold⟩] })).retire
          (fun x => x.setM d 0)) s

/-- The tag of RECV (R279). -/
def Slot.tagOf (x : Slot) : TagSrc → Nat
  | .reg a => bits (x.getM a).toNat 5 0
  | .imm t => t.toNat

/-- RECV: the oldest message of the tag, or no message (R279). A location may have been read before the message was taken: only a RECV.ACQ that takes a message of a POST.REL gives such a reading up (R66, R77, R79, R90, R93, log 94). -/
def execRecv (acq nw : Bool) (d : Reg) (tag : TagSrc) (b : Reg) (g : Guard) (s : State) :
    Host.Outcome State Fault Refusal :=
  guarded g (fun s =>
    let t := s.cur.tagOf tag; let box := s.me.arch.msgs.mailbox
    match box.find? (fun m => m.tag = t) with
    | none =>
      if nw then s.retire (fun x => (x.setM d 0).setP b false) else (s.waitAt .message (.message t)).noteMsgWait
    | some m =>
      let s := s.updMsgs s.fTask (fun q => { q with mailbox := box.eraseP (fun m => m.tag = t) })
      if t ≠ 63 ∧ m.nx ≠ s.me.arch.eng.nx then s.fault 0x0D 0
      else
        s.retire (fun x =>
          let x := x.setM d m.payload
          let x := if nw then x.setP b true else x
          if acq && m.rel then x.reread else x)) s

/-! ### Handler tags (R280, R281) -/

def TagSt.code : TagSt → Nat
  | .unbound => 0
  | .bound _ => 1
  | .rebinding => 2
def Msgs.tag (m : Msgs) (i : Nat) : TagSt := vget .unbound m.tags i

/-- Parked messages whose tag is bound enter the arrival path in their arrival order, while it has room (R281). -/
def State.unpark (s : State) (t : Nat) : State :=
  let step : State → Msg → State := fun s m =>
    match (s.arch t).msgs.tag m.tag with
    | .bound line =>
      if (s.arch t).msgs.room then s.enterArrival t (.handler m line)
      else s.updMsgs t (fun q => { q with parking := q.parking ++ [m] })
    | _ => s.updMsgs t (fun q => { q with parking := q.parking ++ [m] })
  let old := (s.arch t).msgs.parking
  old.foldl step (s.updMsgs t (fun q => { q with parking := [] }))

/-- A tag takes a state and its previous state goes to m[D] (R280). -/
def State.setTag (s : State) (d : Reg) (i : Nat) (v : TagSt) : State :=
  let old := s.me.arch.msgs.tag i
  let s := s.updMsgs s.fTask (fun q => { q with tags := vset q.tags i v })
  (s.unpark s.fTask).retire (fun x => x.setM d (BitVec.ofNat 64 old.code))

/-- BIND (R280, R281). -/
def execBind (d a : Reg) (tag : BitVec 6) (g : Guard) (s : State) : Host.Outcome State Fault Refusal :=
  guarded g (fun s =>
    let v := s.cur.getM a
    if bits v.toNat 63 56 ≠ 0 then s.fault 0x08 v.toNat
    else if bits v.toNat 5 0 ≠ 0 then s.fault 0x05 v.toNat
    else s.setTag d tag.toNat (.bound v)) s

/-- UNBIND (R280, R281). -/
def execUnbind (d : Reg) (tag : BitVec 6) (g : Guard) (s : State) : Host.Outcome State Fault Refusal :=
  guarded g (fun s => s.setTag d tag.toNat .unbound) s

/-- REBIND: only a BOUND tag becomes REBINDING (R281). -/
def execRebind (d : Reg) (tag : BitVec 6) (g : Guard) (s : State) : Host.Outcome State Fault Refusal :=
  guarded g (fun s =>
    let old := s.me.arch.msgs.tag tag.toNat
    s.setTag d tag.toNat (match old with | .bound _ => .rebinding | v => v)) s

/-! ### Exchange windows and barriers (R42, R43, R284 to R288) -/

/-- Level `l` is a level of the group and the task is its member (R43). -/
def State.memberAt (s : State) (t l : Nat) : Bool := ((s.arch t).bar.membOf l).mem
/-- A window below `l` is open (R43). -/
def BarCore.lowerOpen (b : BarCore) (l : Nat) : Bool :=
  (List.range (l - 1)).any (fun i => vget false b.open_ i)
def BarCore.setOpen (b : BarCore) (l : Nat) (v : Bool) : BarCore := { b with open_ := vset b.open_ (l - 1) v }
def BarCore.updMemb (b : BarCore) (l : Nat) (f : Memb → Memb) : BarCore :=
  { b with memb := vset b.memb (l - 1) (f (b.membOf l)) }
def BarCore.pendOf (b : BarCore) (l : Nat) : Option PendArr := vget none b.pend (l - 1)
def BarCore.setPend (b : BarCore) (l : Nat) (p : Option PendArr) : BarCore := { b with pend := vset b.pend (l - 1) p }

/-- The state of the instance of the task's own domain (R372). -/
def State.instState (s : State) (t l : Nat) : InstSt :=
  match SMap.find s.insts (s.myInst t l) with
  | some i => i.st
  | none => .open_

/-- The windows of a command are open (R60). -/
def Arch.windowsOpen (a : Arch) (me : Coord) (c : Cmd) : Bool :=
  match c.op with
  | .copy d => (d.windows me).all (fun l => vget false a.bar.open_ (l - 1))
  | _ => true

/-- The semaphore condition of a command holds (R246). -/
def Eng.semHolds (e : Eng) (c : Cmd) : Bool := !c.sync.wen || decide (c.sync.wthr ≤ (e.sem c.sync.wsem).toNat)

/-- Commands at the heads of their queues evaluate their conditions: one whose semaphore and windows hold at this instant waits no longer, and a window that closes does not hold it back (R42, R60, R246, R249, log 116). -/
def Arch.judge (a : Arch) (me : Coord) : Arch :=
  if a.ctl.d.elV then a
  else a.updEng (fun e => { e with cmds := e.cmds.map (fun c =>
    if c.st = .accepted && c.fault.isNone && !e.parkedQ c.queue && decide ((e.queue c.queue).head?.map (·.uid) = some c.uid) &&
        e.semHolds c && a.windowsOpen me c then { c with met := true } else c) })

/-- Slots that wait on a semaphore whose threshold is reached are READY (R31, R249, R251). -/
def Arch.wakeSems (a : Arch) : Arch :=
  { a with slots := a.slots.map (fun x =>
      match x.cond with
      | .sem i thr => if x.st = .waiting ∧ thr ≤ (a.eng.sem i).toNat then { x with st := .ready, wr := .none, cond := .none } else x
      | _ => x) }

/-- What waits on a semaphore of a running task evaluates its condition (R246, R249). -/
def State.semsMoved (s : State) (t : Nat) : State :=
  if decide ((s.task t).st = .running) && !(s.task t).halted then s.updArch t (fun a => a.wakeSems.judge (s.task t).coord) else s

/-- Copies of a window level that `p` holds of, which have begun and are outstanding, those that a save or a move has put back too (R74, R85, R375). -/
def Arch.startedCopies (a : Arch) (me : Coord) (p : Nat → Bool) : List Nat :=
  (a.eng.copies.filter (fun c => c.started && (match c.op with | .copy d => p (d.level me) | _ => false))).map (·.uid)

/-- Copies of the window level that have begun and whose check phase is still to come (R375). -/
def Arch.uncheckedCopies (a : Arch) (me : Coord) (l : Nat) : List Nat :=
  (a.startedCopies me (· == l)).filter (fun u => match a.eng.find u with | some c => !c.underway | none => false)

/-- The core's arrival is made, or a later BARA adds its code to one that is still held back (R285, R287). -/
def State.arrive (s : State) (l : Nat) (op : Option (BarOp × Option Word)) (code : Option Nat) : State :=
  let k := s.me; let b := k.arch.bar
  if !(b.membOf l).arr then
    s.updBar s.fTask (fun b =>
      (b.setPend l (some ⟨op, code, k.arch.uncheckedCopies k.coord l, k.arch.startedCopies k.coord (fun i => decide (i < l))⟩)).updMemb l (fun m => { m with arr := true }))
  else
    match code, b.pendOf l with
    | some _, some p => s.updBar s.fTask (fun b => b.setPend l (some { p with code := if p.code.isSome then p.code else code }))
    | _, _ => s

/-- The result of an operator with no contribution (R286). -/
def noContribution : BarOp → Word
  | .fadd => 0
  | .add => 0
  | .min => 0x7FFF_FFFF_FFFF_FFFF
  | .max => 0x8000_0000_0000_0000
  | .minu => 0xFFFF_FFFF_FFFF_FFFF
  | .maxu => 0
  | .and => 0xFFFF_FFFF_FFFF_FFFF
  | .or => 0

end Sys2Proof.Machine
end

