-- ==== Sys2Proof/Machine/Residency.lean ====
section
/-! DEFINITION. Residency of TIER 1 pages: frames of the pool, staging, eviction, write-back and holds (R403 to R407). -/
namespace Sys2Proof.Machine

/-- The cells of a table within a range, moved from `src` to `dst`; what the table held there is replaced. -/
def SMap.copyRange {α : Type} (m : SMap α) (src dst n : Nat) : SMap α :=
  let part := (m.filter (fun e => decide (src ≤ e.1 ∧ e.1 < src + n))).map (fun e => (e.1 - src + dst, e.2))
  m.filter (fun e => decide (e.1 < dst)) ++ part ++ m.filter (fun e => decide (dst + n ≤ e.1))

/-- Copy `n` bytes of memory with their damage. -/
def State.copyMem (s : State) (src dst n : Nat) : State :=
  { s with mem := SMap.copyRange s.mem src dst n, poison := SMap.copyRange s.poison src dst n }

/-- Bytes of memory that read as unlisted again, without damage. -/
def State.clearMem (s : State) (k n : Nat) : State :=
  { s with mem := s.mem.filter (fun e => decide (e.1 < k ∨ k + n ≤ e.1)),
           poison := s.poison.filter (fun e => decide (e.1 < k ∨ k + n ≤ e.1)) }

/-- Gateway of an LPDDR frame. -/
def homeOf (frame : Nat) : Nat := gatewayOf (frame * 65536)
/-- Pages of a gateway that hold a pool frame. -/
def State.framed (s : State) (g : Nat) : SMap Resid :=
  s.pg.resid.filter (fun e => decide (homeOf e.1 = g ∧ e.2.st ≠ .home))
/-- The lowest free pool frame of a gateway; pod pages at home here hold frames too (R403, R410, log 21). -/
def State.freeFrame (s : State) (g : Nat) : Option Nat :=
  let used := (s.framed g).map (fun e => e.2.frame) ++
    (s.pg.pod.filter (fun e => decide (e.2.home = s.mg.podIdx))).map (fun e => e.2.frame)
  let base := g * 2 ^ 22 + 2 ^ 22 - s.pg.pool
  (((List.range (min s.pg.pool (used.length + 1))).map (base + ·)).find? (fun f => !used.contains f))

/-- Age distance (R402). -/
def State.ageDist (s : State) (r : Resid) : Nat := (s.pg.tick + 2 ^ 32 - r.age) % 2 ^ 32

/-- A resident page leaves residency: HOME when clean, else its write-back begins; `room`: for a request that waits for its frame (R404, R405). -/
def State.leaveFor (s : State) (room : Bool) (frame : Nat) : State :=
  let r := s.resid frame
  if r.st ≠ .resident then s
  else if r.dirty then s.setResid frame { r with st := .writeback, leaving := false, evicted := room }
  else s.setResid frame Resid.blank
def State.leave (s : State) (frame : Nat) : State := s.leaveFor false frame

/-- The page to evict: unheld, resident, of greatest age distance, the lowest pool frame among equals (R405). -/
def State.victim (s : State) (g : Nat) : Option Nat :=
  (((s.framed g).filter (fun e => decide (e.2.st = .resident) && e.2.holds.isEmpty)).foldl
    (fun (best : Option (Nat × Resid)) e =>
      match best with
      | none => some e
      | some b =>
        if s.ageDist b.2 < s.ageDist e.2 ∨ (s.ageDist b.2 = s.ageDist e.2 ∧ e.2.frame < b.2.frame) then some e else best)
    none).map (·.1)

/-- Write-backs of a gateway in progress that make room for requests (R405). -/
def State.writebacks (s : State) (g : Nat) : Nat := ((s.framed g).filter (fun e => decide (e.2.st = .writeback) && e.2.evicted)).length
/-- Requests of a gateway that wait for a frame. -/
def State.waiting (s : State) (g : Nat) : Nat := (s.pg.frameWait.filter (fun w => decide (homeOf w.1 = g))).length

/-- One more holder of a page (R406). -/
def addHold (l : List Hold) (h : Hold) : List Hold := if h = .none || l.contains h then l else l ++ [h]

/-- The page takes a frame and its staging starts (R404, R406). -/
def State.beginStaging (s : State) (frame ctx : Nat) (h : Hold) (f : Nat) : State :=
  let r := s.resid frame
  s.setResid frame { st := .staging, frame := f, dirty := false, age := 0, ctx := ctx,
                     holds := addHold r.holds h, leaving := false, evicted := false, since := 0 }

/-- A frame of a gateway is needed and none is free: the page to evict goes, unless enough go already for the requests that wait (R405). -/
def State.makeRoom (s : State) (g : Nat) : State :=
  if (s.freeFrame g).isSome then s
  else if s.writebacks g ≤ s.waiting g then (match s.victim g with | some v => s.leaveFor true v | none => s) else s

/-- Staging is paused: the first throttle step is in force, and pages in HOME or STAGING do not progress (R430). -/
def State.stagingPaused (s : State) : Bool := decide (1 ≤ s.pw.step)

/-- A request for a TIER 1 page: staging is shared, a page in HBM is held, and a page at home takes a frame, evicts, or waits (R404 to R407, R430). -/
def State.needPage (s : State) (req : Nat × Nat × Hold) : State :=
  let frame := req.1; let r := s.resid frame; let g := homeOf frame
  if r.st ≠ .home then
    s.setResid frame { r with holds := addHold r.holds req.2.2 }
  else if s.stagingPaused then { s with pg := { s.pg with frameWait := s.pg.frameWait ++ [req] } }
  else
    let s' := s.makeRoom g
    match s'.freeFrame g with
    | some f => s'.beginStaging frame req.2.1 req.2.2 f
    | none => { s' with pg := { s'.pg with frameWait := s'.pg.frameWait ++ [req] } }

/-- Requests that wait are tried again in their order (R405). -/
def State.pumpFrames (s : State) : State :=
  s.pg.frameWait.foldl (fun s w => s.needPage w) { s with pg := { s.pg with frameWait := [] } }

/-- A hold ends: its requests that wait for a frame go on without it, pages that waited for it leave, and waiting requests are tried again (R405 to R407, R415). -/
def State.release (s : State) (h : Hold) : State :=
  let had := s.pg.resid.any (fun e => e.2.holds.contains h) || s.pg.frameWait.any (fun w => decide (w.2.2 = h))
  if !had then s
  else
    let s : State := { s with pg := { s.pg with
      resid := s.pg.resid.map (fun e => (e.1, { e.2 with holds := e.2.holds.filter (· ≠ h) })),
      frameWait := s.pg.frameWait.map (fun w => if w.2.2 = h then (w.1, w.2.1, .none) else w) } }
    let go := (s.pg.resid.filter (fun e => e.2.leaving && e.2.holds.isEmpty && decide (e.2.st = .resident))).map (·.1)
    (go.foldl (fun s f => s.leave f) s).pumpFrames

/-- A page counts as resident for TLOAD (R407). -/
def State.countsResident (s : State) (frame : Nat) : Bool :=
  decide ((s.resid frame).st = .resident ∨ (s.resid frame).st = .writeback)

/-- The TIER 1 frames of a range of pages; none where one does not translate with `need`, with its cause and address. -/
def State.rangeFrames (s : State) (c scope : Nat) (need : Perm) (va : Nat) : Nat → Except (Miss × Nat) (List Nat)
  | 0 => .ok []
  | n + 1 =>
    match s.translate c 0 0 scope need va with
    | .error m => .error (m, va)
    | .ok p =>
      match s.rangeFrames c scope need (va + 65536) n with
      | .error e => .error e
      | .ok l => .ok (if p.tier = 1 then p.key / 65536 :: l else l)

end Sys2Proof.Machine
end

