-- ==== Sys2Proof/Machine/Late.lean ====
section
/-! DEFINITION. Late faults and upcalls of engine commands (R152, R153). -/
namespace Sys2Proof.Machine

/-! ### Late faults and upcalls (R152, R153) -/

/-- Discard a command and every later one of its queue (R83, R152). -/
def Eng.discardFrom (e : Eng) (q uid : Nat) : Eng :=
  { e with cmds := e.cmds.map (fun c => if c.queue = q ∧ uid ≤ c.uid ∧ c.out then { c with st := .discarded } else c) }

/-- A late fault of command `uid` (R152): ELFAULT and ELFVAL, the queue empty until V is cleared, unlanded bytes off the counter, and no word of it lands any more (R83, R376). -/
def State.lateFault (s : State) (t uid cause val : Nat) : State :=
  match (s.eng t).find uid with
  | none => s
  | some c =>
    let s := (s.pendAdd c.counted (-(8 * c.unlanded : Nat))).dropWords (.copy t uid)
    let s := s.release (.tload t uid)
    let s := s.updArch t (fun a =>
      (a.updEng (fun e => e.discardFrom c.queue uid)).updD (fun d =>
        let q := BitVec.ofNat 5 (2 ^ c.queue)
        if d.elV then { d with elMore := true, elQs := d.elQs ||| q }
        else { d with elV := true, elQs := q, elSeq := uid % 256, elCause := cause, elQueue := c.queue, elval := BitVec.ofNat 64 val }))
    s.trigger t cause

/-- A page is not present: the copy queue is parked at the command, which has not begun and begins again from its start (R153, R375). -/
def State.upcall (s : State) (t uid va : Nat) : State :=
  match (s.eng t).find uid with
  | none => s
  | some c =>
    s.updArch t (fun a =>
      (a.updEng (fun e => { e.updCmd uid (fun c => { c with st := .accepted, met := false, leases := [], path := none }) with
          parked := vset e.parked c.queue true })).updD (fun d =>
        { d with upPq := d.upPq ||| BitVec.ofNat 4 (2 ^ c.queue), upaddr := vset d.upaddr c.queue (BitVec.ofNat 64 va) }))

end Sys2Proof.Machine
end

