-- ==== Sys2Proof/Machine/Num.lean ====
section
/-! DEFINITION. Number formats and exact arithmetic: binary formats, palettes, block scales, and the one rounding of each result (R97 to R116). -/
namespace Sys2Proof.Machine

/-- An exact value: NaN, an infinity, a signed zero, or m × 2^e with m not 0. -/
inductive Fp
  | nan
  | inf (neg : Bool)
  | zero (neg : Bool)
  | fin (m e : Int)
  deriving DecidableEq, Repr, Inhabited

/-- An interchange format: exponent and fraction widths (R97). -/
structure Fmt where
  eb : Nat
  fb : Nat
  deriving DecidableEq, Repr, Inhabited

def fBf16 : Fmt := ⟨8, 7⟩
def fF16 : Fmt := ⟨5, 10⟩
def fF32 : Fmt := ⟨8, 23⟩
def fF64 : Fmt := ⟨11, 52⟩
/-- The internal float (R99). -/
def fE8M10 : Fmt := ⟨8, 10⟩

namespace Fmt
def bias (f : Fmt) : Nat := 2 ^ (f.eb - 1) - 1
/-- Exponent of the last place of the smallest values. -/
def qmin (f : Fmt) : Int := 1 - (f.bias : Int) - f.fb
def infBits (f : Fmt) : Nat := (2 ^ f.eb - 1) * 2 ^ f.fb
/-- The canonical NaN (R97, R99). -/
def nanBits (f : Fmt) : Nat := f.infBits + 2 ^ (f.fb - 1)
def signBit (f : Fmt) : Nat := 2 ^ (f.eb + f.fb)

/-- The value a bit pattern stands for (R97, R99). -/
def decode (f : Fmt) (u : Nat) : Fp :=
  let s := bit u (f.eb + f.fb); let e := bits u (f.eb + f.fb - 1) f.fb; let m := u % 2 ^ f.fb
  let sg : Int := if s then -1 else 1
  if e = 2 ^ f.eb - 1 then (if m = 0 then .inf s else .nan)
  else if e = 0 then (if m = 0 then .zero s else .fin (sg * m) f.qmin)
  else .fin (sg * (2 ^ f.fb + m : Nat)) (f.qmin + e - 1)

/-- `round_ne`: the nearest value of the format, ties to the even pattern, overflow to infinity (R97). -/
def round (f : Fmt) : Fp → Nat
  | .nan => f.nanBits
  | .inf n => f.infBits + (if n then f.signBit else 0)
  | .zero n => if n then f.signBit else 0
  | .fin m e =>
    let a := m.natAbs
    let q : Int := max (((bitLen a : Int) - 1 + e) - f.fb) f.qmin
    let sig : Nat :=
      if q ≤ e then a <<< (e - q).toNat
      else
        let sh := (q - e).toNat
        let t := a >>> sh; let rem := a % 2 ^ sh; let half := 2 ^ (sh - 1)
        if half < rem ∨ (rem = half ∧ t % 2 = 1) then t + 1 else t
    let u := (q - f.qmin).toNat * 2 ^ f.fb + sig
    (if f.infBits ≤ u then f.infBits else u) + (if m < 0 then f.signBit else 0)
end Fmt

namespace Fp

def neg : Fp → Bool
  | .nan => false
  | .inf n => n
  | .zero n => n
  | .fin m _ => decide (m < 0)
def isNan : Fp → Bool
  | .nan => true
  | _ => false
def isInf : Fp → Bool
  | .inf _ => true
  | _ => false
def isZero : Fp → Bool
  | .zero _ => true
  | _ => false

/-- Numerator at exponent `e`, for e at most the value's own; 0 for the rest. -/
def at_ (v : Fp) (e : Int) : Int :=
  match v with
  | .fin m e' => m * (2 ^ (e' - e).toNat : Nat)
  | _ => 0
/-- Exponent of a finite value, or `d`. -/
def expo (d : Int) : Fp → Int
  | .fin _ e => e
  | _ => d

/-- A finite value from a numerator and an exponent; zero becomes +0. -/
def mk (m e : Int) : Fp := if m = 0 then .zero false else .fin m e

/-- Exact product, with its special cases (R223). -/
def mul : Fp → Fp → Fp
  | .nan, _ => .nan
  | _, .nan => .nan
  | .inf _, .zero _ => .nan
  | .zero _, .inf _ => .nan
  | .inf a, y => .inf (a != y.neg)
  | x, .inf b => .inf (x.neg != b)
  | .zero a, y => .zero (a != y.neg)
  | x, .zero b => .zero (x.neg != b)
  | .fin a e, .fin b e' => .fin (a * b) (e + e')

/-- Least exponent among finite terms. -/
def minExp : List Fp → Int → Int
  | [], d => d
  | x :: xs, d => minExp xs (min d (x.expo d))

/-- Exact sum: NaN on a NaN or on both infinities; an exact zero is −0 only if every term is −0 (R98, R116). -/
def sum (l : List Fp) : Fp :=
  if l.any isNan then .nan
  else if l.any (fun x => x.isInf && x.neg) then
    (if l.any (fun x => x.isInf && !x.neg) then .nan else .inf true)
  else if l.any isInf then .inf false
  else
    let e := minExp l 2000
    let m := l.foldl (fun acc x => acc + x.at_ e) (0 : Int)
    if m = 0 then .zero (l.all (fun x => x.isZero && x.neg)) else .fin m e

def negate : Fp → Fp
  | .nan => .nan
  | .inf n => .inf (!n)
  | .zero n => .zero (!n)
  | .fin m e => .fin (-m) e

/-- Quotient to more places than any format keeps, with a sticky last place (R223). -/
def div : Fp → Fp → Fp
  | .nan, _ => .nan
  | _, .nan => .nan
  | .inf _, .inf _ => .nan
  | .zero _, .zero _ => .nan
  | .inf a, y => .inf (a != y.neg)
  | x, .inf b => .zero (x.neg != b)
  | .zero a, y => .zero (a != y.neg)
  | x, .zero b => .inf (x.neg != b)
  | .fin a e, .fin b e' =>
    let n := a.natAbs <<< 160
    let q := n / b.natAbs * 2 + (if n % b.natAbs = 0 then 0 else 1)
    .fin ((if decide (a < 0) != decide (b < 0) then -1 else 1) * q) (e - e' - 161)

/-- Integer square root, one bit at a time. -/
def isqrt (n : Nat) : Nat → Nat → Nat
  | 0, r => r
  | k + 1, r => isqrt n k (if (r + 2 ^ k) * (r + 2 ^ k) ≤ n then r + 2 ^ k else r)

/-- Square root with a sticky last place (R223). -/
def sqrt : Fp → Fp
  | .nan => .nan
  | .zero n => .zero n
  | .inf n => if n then .nan else .inf false
  | .fin m e =>
    if m < 0 then .nan
    else
      let e2 := (e - 160) / 2
      let n := m.natAbs <<< (e - 2 * e2).toNat
      let r := isqrt n 120 0
      .fin (2 * r + (if r * r = n then 0 else 1) : Nat) (e2 - 1)

/-- Exact comparison of two values that are not NaN: x < y; zeros are equal. -/
def lt (x y : Fp) : Bool :=
  match x, y with
  | .inf a, .inf b => a && !b
  | .inf a, _ => a
  | _, .inf b => !b
  | _, _ => let e := minExp [x, y] 2000; decide (x.at_ e < y.at_ e)
def eq (x y : Fp) : Bool := !lt x y && !lt y x

/-- −0 below +0 (R223). -/
def ltZ (x y : Fp) : Bool := lt x y || (x.isZero && y.isZero && x.neg && !y.neg)
def minV (x y : Fp) : Fp := if x.isNan || y.isNan then .nan else if ltZ y x then y else x
def maxV (x y : Fp) : Fp := if x.isNan || y.isNan then .nan else if ltZ x y then y else x

/-- Nearest integer with ties to even, and 0 for a NaN; infinities give `big` with their sign (R108). -/
def toInt (big : Int) : Fp → Int
  | .nan => 0
  | .zero _ => 0
  | .inf n => if n then -big else big
  | .fin m e =>
    if 0 ≤ e then m * (2 ^ e.toNat : Nat)
    else
      let sh := (-e).toNat; let a := m.natAbs
      let t := a >>> sh; let rem := a % 2 ^ sh; let half := 2 ^ (sh - 1)
      let r := if half < rem ∨ (rem = half ∧ t % 2 = 1) then t + 1 else t
      if m < 0 then -(r : Int) else r

end Fp

/-- Clamp to a range. -/
def clamp (lo hi v : Int) : Int := if v < lo then lo else if hi < v then hi else v

/-- A float stored with `eb` exponent bits of bias `bias`, `fb` fraction bits and no specials (R100, R107). -/
def smallVal (eb fb bias c : Nat) : Fp :=
  let s := bit c (eb + fb); let e := bits c (eb + fb - 1) fb; let m := c % 2 ^ fb
  let sg : Int := if s then -1 else 1
  if e = 0 then (if m = 0 then .zero s else .fin (sg * m) (1 - (bias : Int) - fb))
  else .fin (sg * (2 ^ fb + m : Nat)) ((e : Int) - bias - fb)

/-- pal0, E4M3, under NX (R100). -/
def e4m3 (nx : Bool) (c : Nat) : Fp :=
  if nx && bits c 6 3 = 15 then (if c % 8 = 0 then .inf (bit c 7) else .nan) else smallVal 4 3 7 c
/-- pal1, E5M2, under NX (R100). -/
def e5m2 (nx : Bool) (c : Nat) : Fp :=
  if nx && bits c 6 2 = 31 then (if c % 4 = 0 then .inf (bit c 7) else .nan) else smallVal 5 2 15 c

/-- An integer as an exact value. -/
def intVal (n : Int) : Fp := if n = 0 then .zero false else .fin n 0

/-- Sub-byte elements (R107, R108). -/
def packVal (f : PackF) (c : Nat) : Fp :=
  match f with
  | .e2m1 => smallVal 2 1 1 c
  | .e3m2 => smallVal 3 2 3 c
  | .e2m3 => smallVal 2 3 1 c
  | .int4 => intVal (sx c 4)

/-- A candidate code with its value in the search of `penc`. -/
abbrev Cand := Nat × Fp

/-- The finite values of a code table that bound `v` from below and above (R105). -/
def bracket (tab : List Cand) (v : Fp) : Option Cand × Option Cand :=
  tab.foldl (fun acc c =>
    if c.2.isNan || c.2.isInf then acc
    else
      let lo := if !Fp.lt v c.2 && (match acc.1 with | none => true | some a => Fp.lt a.2 c.2) then some c else acc.1
      let hi := if !Fp.lt c.2 v && (match acc.2 with | none => true | some b => Fp.lt c.2 b.2) then some c else acc.2
      (lo, hi)) (none, none)

/-- `code(x, v)`: the code that holds the value of `c`; between two zeros, the one with the sign of `v` (R105). -/
def codeFor (tab : List Cand) (c : Cand) (v : Fp) : Nat :=
  if c.2.isZero then
    match tab.find? (fun e => e.2 = .zero v.neg) with
    | some e => e.1
    | none => c.1
  else c.1

/-- `penc` over a table of codes and values; `nanCode` and `infCode` as R105 gives. -/
def encodeBy (tab : List Cand) (nanCode : Nat) (infCode : Bool → Option Nat) (v : Fp) : Nat :=
  if v.isNan then nanCode
  else match (if v.isInf then infCode v.neg else none) with
  | some c => c
  | none =>
    match bracket tab v with
    | (some a, none) => codeFor tab a v
    | (none, some b) => codeFor tab b v
    | (none, none) => nanCode
    | (some a, some b) =>
      let ca := codeFor tab a v; let cb := codeFor tab b v
      let e := Fp.minExp [a.2, b.2, v] 2000
      let da := v.at_ e - a.2.at_ e; let db := b.2.at_ e - v.at_ e
      if da < db then ca else if db < da then cb else if ca % 2 = 0 then ca else cb

/-- The code table of a sub-byte float format. -/
def packTab (f : PackF) : List Cand :=
  (List.range (if f = .e2m1 then 16 else 64)).map (fun c => (c, packVal f c))

/-- Encoding into a sub-byte format or INT4 (R107, R108). -/
def packEnc (f : PackF) (v : Fp) : Nat :=
  match f with
  | .int4 => wrap (clamp (-8) 7 (v.toInt 8)) 4
  | f => encodeBy (packTab f) 0 (fun _ => none) v

/-- The code table of a palette from its decoding. -/
def palTab (dec : Nat → Fp) : List Cand := (List.range 256).map (fun c => (c, dec c))

/-- An S10 scale; NaN for 0x3FF (R111). -/
def s10 (u : Nat) : Fp :=
  if u = 0x3FF then .nan else if u = 0 then .zero false
  else .fin ((4 + u % 4 : Nat) : Int) ((u / 4 : Nat) - 129 : Int)

/-- One K-block into a binary32 accumulator: exact sum, one rounding, then the second (R112). -/
def mxUpdate (z : Nat) (prods : List Fp) (sa sb : Fp) : Nat :=
  let s := Fp.sum prods
  let t : Fp :=
    if sa.isNan || sb.isNan || s.isNan then .nan
    else if s.isInf then (if sa.isZero || sb.isZero then .nan else s)
    else if s.isZero || sa.isZero || sb.isZero then
      .zero (prods.all (fun p => p.isZero && p.neg) && !sa.isZero && !sb.isZero)
    else Fp.mul (Fp.mul s sa) sb
  let tr := fF32.decode (fF32.round t)
  fF32.round (Fp.sum [fF32.decode z, tr])

/-- INT8 and INT4: one exact chunk sum, saturating (R113). -/
def intUpdate (z : Nat) (prods : List Int) : Nat :=
  wrap (clamp (-2147483648) 2147483647 (sx z 32 + prods.foldl (· + ·) 0)) 32

/-- binary32 and binary64: one fused multiply-add per term (R114). -/
def fmaUpdate (f : Fmt) (z : Nat) (prods : List Fp) : Nat :=
  prods.foldl (fun acc p => f.round (Fp.sum [f.decode acc, p])) z

end Sys2Proof.Machine
end

