-- ==== Sys2Proof/Machine/Roots.lean ====
section
/-! DEFINITION. What the roots of barrier domains do on their own: aborts, non-restartable marks, range tables, frames to the pod, and partial results of the barrier operators (R286 to R288, R372, R378, R379, R384, R385, R390). -/
namespace Sys2Proof.Machine

/-! ### Frames of the pod barrier port (R389 to R391) -/

/-- The pod children of this module: 16i + 1 to 16i + 16 within the job (R390). -/
def State.podChildren (s : State) : List Nat :=
  ((List.range 16).map (fun j => 16 * s.mg.podIdx + 1 + j)).filter (fun i => i ≤ s.mg.podCnt)
/-- The pod parent, where this module is not the root (R390). -/
def State.podParent (s : State) : Option Nat := if s.mg.podIdx = 0 then none else some ((s.mg.podIdx - 1) / 16)

/-- Ultra Ethernet ports that are ACTIVE (R417, R423). -/
def State.activePorts (s : State) : List Nat := ((List.range 16).map (256 + ·)).filter (fun n => decide ((s.link n).st = .active))

/-- The port of the traffic with another module on a context channel: the ACTIVE port that the hash ranks first, so that only the pairs which used a port are hashed again when it leaves ACTIVE (R417). -/
def State.podPort (s : State) (dst ch : Nat) : Option Nat :=
  s.activePorts.foldl (fun (best : Option Nat) n =>
    match best with
    | none => some n
    | some b => if Config.portHash s.mg.podIdx dst ch b < Config.portHash s.mg.podIdx dst ch n then some n else some b) none

/-- The traffic classes of Ultra Ethernet: 7 is reserved for the pod barrier, and pod page traffic uses 3 (R416). -/
def barrierClass : Nat := 7
def pageClass : Nat := 3

/-- A message about a pod page leaves on the port of its channel, or waits until one is ACTIVE (R410 to R412, R417). -/
def State.podSay (s : State) (dst ch : Nat) (m : PageMsg) : State :=
  match s.podPort dst ch with
  | none => { s with pageWait := s.pageWait ++ [(dst, ch, m)] }
  | some n => { s with pageTx := s.pageTx ++ [(n, pageClass, dst, m)] }

/-- Page traffic that waited leaves, in its order, once a port is ACTIVE (R24, R417). -/
def State.saidAgain (s : State) : State :=
  if s.activePorts.isEmpty then s else s.pageWait.foldl (fun (s : State) e => s.podSay e.1 e.2.1 e.2.2) { s with pageWait := [] }

/-- The port of gateway 0 at which the barrier traffic with a module enters and leaves: an ACTIVE one of its two, by the same hash (R25, R389, log 96). -/
def State.barrierPort (s : State) (dst : Nat) : Option Nat :=
  match decide ((s.link 256).st = .active), decide ((s.link 257).st = .active) with
  | true, true => some (if Config.portHash s.mg.podIdx dst 18 256 < Config.portHash s.mg.podIdx dst 18 257 then 257 else 256)
  | true, false => some 256
  | false, true => some 257
  | false, false => none

/-- A frame leaves on a port of gateway 0, where one is ACTIVE (R25, R389). -/
def State.podEmit (s : State) (dst : Nat) (f : PodFrame) : State :=
  match s.barrierPort dst with
  | none => s
  | some n => { s with podTx := s.podTx ++ [(n, barrierClass, dst, f)] }

/-- A frame of a group's level-4 domain goes to the module `dst`, and is kept until acknowledged (R390, R391). -/
def State.podSend (s : State) (dst : Nat) (g : Nat) (contrib : Option (BarOp × Int × Int × Nat)) (body : PodBody) : State :=
  match SMap.find s.groups g with
  | none => s
  | some x =>
    match SMap.find s.kernels x.kernel, x.podSeq with
    | some k, some n =>
      if !s.mg.podEn then s
      else
        let f : PodFrame := { job := s.mg.podJob, podtag := (s.ctx k.ctx).podtag, seqnum := n, src := s.mg.podIdx,
                              serial := s.ids, contrib := contrib, body := body }
        ({ s with podOut := s.podOut ++ [(f, dst, 1, s.now)], ids := s.ids + 1 } : State).podEmit dst f
    | _, _ => s

/-- A frame travels to every neighbour in the tree but one (R390). -/
def State.podSpread (s : State) (but : Option Nat) (g : Nat) (contrib : Option (BarOp × Int × Int × Nat)) (body : PodBody) : State :=
  ((s.podParent.toList ++ s.podChildren).filter (fun m => some m ≠ but)).foldl (fun s m => s.podSend m g contrib body) s

/-! ### Aborts (R287, R288, R372, R379) -/

/-- Heads of task `t` that wait on a level, and whose wait has not ended yet, end: BAR and BARX fault with `cause`, BARA continues (R287, R288). -/
def State.endBarWaits (s : State) (t l cause : Nat) : State :=
  (List.range 10).foldl (fun s i =>
    match (s.slot t i).cond, (s.slot t i).barEnd with
    | .barrier l', none => if l' = l then s.slotFault t i cause 0 else s
    | .abort l', none => if l' = l then s.updSlot t i (fun x => { x with barEnd := some .recorded }) else s
    | _, _ => s) s

/-- The abort of an instance is recorded; the first code stands (R287, R372, R379). -/
def State.abortInst (s : State) (k code : Nat) : State :=
  match SMap.find s.insts k with
  | none => s
  | some i =>
    if i.st = .aborted ∨ i.st = .timedout then s
    else
      let s := s.updInst k (fun i => { i with st := .aborted, code := code, wdRun := false })
      i.members.foldl (fun s t => s.endBarWaits t i.level 0x11) s

/-- An instance in these states counts its watchdog, and expires when the unpaused count has reached the limit (R372, R381). -/
def Inst.expired (i : Inst) : Bool :=
  decide (i.st = .gathering ∨ i.st = .draining) && decide (0 < i.wdLimit ∧ i.wdLimit ≤ i.wdCount)

/-- The watchdog of an instance expires: TIMEDOUT, and waiting heads fault (R372, R381). -/
def State.expire (s : State) (k : Nat) : State :=
  match SMap.find s.insts k with
  | none => s
  | some i =>
    i.members.foldl (fun (s : State) t => s.endBarWaits t i.level 0x12)
      (s.updInst k (fun i => { i with st := .timedout, wdRun := false }))

/-- An abort made at this module; a level-4 abort travels the pod tree (R390). -/
def State.abortHere (s : State) (k code : Nat) : State :=
  match SMap.find s.insts k with
  | none => s
  | some i =>
    if i.st = .aborted ∨ i.st = .timedout then s
    else
      let s := if i.level = 4 then s.podSpread none i.group none (.abort code) else s
      s.abortInst k code

/-! ### Non-restartable marks and range tables (R384, R385) -/

/-- The root receives a mark: every member knows the superstep to be non-restartable (R373, R383, R385). -/
def State.markHere (s : State) (g : Nat) : State :=
  match SMap.find s.groups g with
  | none => s
  | some x =>
    if x.nr then s
    else x.tasks.foldl (fun s t => s.updBar t BarCore.markNr) (s.updGroup g (fun x => { x with nr := true }))

/-- A mark made at this module; in a level-4 group it travels the pod tree (R385, R390). -/
def State.markGroup (s : State) (g : Nat) : State :=
  match SMap.find s.groups g with
  | none => s
  | some x => if x.top = 4 ∧ !x.nr then (s.podSpread none g none .nonrestart).markHere g else s.markHere g

/-- Two line ranges that meet or adjoin. -/
def Range.meets (a b : Range) : Bool := decide (a.key ≤ b.last + 1 ∧ b.key ≤ a.last + 1)
def Range.overlaps (a b : Range) : Bool := decide (a.key ≤ b.last ∧ b.key ≤ a.last)

/-- Enter a range in a table of disjoint ranges in rising order. -/
def insertRange (r : Range) : List Range → List Range
  | [] => [r]
  | a :: l =>
    if r.meets a then insertRange ⟨min r.key a.key, max r.last a.last⟩ l
    else if r.key < a.key then r :: a :: l
    else a :: insertRange r l

/-- The smallest gap between neighbours in a table. -/
def smallestGap : List Range → Option Nat
  | a :: b :: l =>
    let g := b.key - a.last
    match smallestGap (b :: l) with
    | some h => some (min g h)
    | none => some g
  | _ => none

/-- Merge the first neighbours with that gap. -/
def mergeAt (g : Nat) : List Range → List Range
  | a :: b :: l => if b.key - a.last = g then ⟨a.key, b.last⟩ :: l else a :: mergeAt g (b :: l)
  | l => l

/-- A range enters a table; a 65th range merges the two with the smallest gap (R384). -/
def addRange (l : List Range) (r : Range) : List Range :=
  let l := insertRange r l
  if 64 < l.length then (match smallestGap l with | some g => mergeAt g l | none => l) else l

/-- The controller that holds a location: the die's, or the gateway's (R384). -/
def controllerOf (k : Nat) : Nat :=
  if 2 ^ 55 ≤ k ∧ k < 2 ^ 56 then (k - 2 ^ 55) / 2 ^ 31
  else if 2 ^ 54 ≤ k ∧ k < 2 ^ 55 then (k - 2 ^ 54) / 2 ^ 31
  else if k < lpddrEnd then 16 + gatewayOf k
  else 16

/-- Lines read or written enter the table of their controller; an overlap marks the superstep (R384). -/
def State.enterRange (s : State) (g : Nat) (write : Bool) (key n : Nat) : State :=
  let r : Range := ⟨key / 64, (key + n - 1) / 64⟩; let c := controllerOf key
  let s := s.updGroup g (fun x =>
    if write then { x with writes := SMap.put x.writes c (addRange (SMap.get [] x.writes c) r) }
    else { x with reads := SMap.put x.reads c (addRange (SMap.get [] x.reads c) r) })
  match SMap.find s.groups g with
  | none => s
  | some x =>
    if (SMap.get [] x.reads c).any (fun a => (SMap.get [] x.writes c).any (fun b => a.overlaps b)) then s.markGroup g else s

/-! ### Partial results (R116, R286, R378, R390) -/

/-- A partial result: a whole value, or an exact sum with its special code. -/
abbrev Partial := Int × Int × Nat

def Partial.ofFp : Fp → Partial
  | .nan => (0, 0, 1)
  | .inf s => (0, 0, if s then 3 else 2)
  | .zero s => (0, 0, if s then 4 else 0)
  | .fin m e => (m, e, 0)
def Partial.toFp (p : Partial) : Fp :=
  if p.2.2 = 1 then .nan else if p.2.2 = 2 then .inf false else if p.2.2 = 3 then .inf true
  else if p.2.2 = 4 then .zero true else Fp.mk p.1 p.2.1

/-- The partial result of one contribution (R286). -/
def Partial.one (op : BarOp) (v : Word) : Partial :=
  match op with
  | .fadd => .ofFp (fF32.decode (v.toNat % 2 ^ 32))
  | _ => (v.toNat, 0, 0)

/-- Two values under an operator other than FADD (R286). -/
def wordOp (op : BarOp) (a b : Word) : Word :=
  match op with
  | .fadd => a
  | .add => a + b
  | .min => if a.slt b then a else b
  | .max => if a.slt b then b else a
  | .minu => if a.ult b then a else b
  | .maxu => if a.ult b then b else a
  | .and => a &&& b
  | .or => a ||| b

/-- Two partial results combined (R378). -/
def Partial.combine (op : BarOp) (a b : Partial) : Partial :=
  match op with
  | .fadd => .ofFp (Fp.sum [a.toFp, b.toFp])
  | _ => ((wordOp op (BitVec.ofInt 64 a.1) (BitVec.ofInt 64 b.1)).toNat, 0, 0)

/-- The value a result register receives (R286). -/
def Partial.value (op : BarOp) (p : Partial) : Word :=
  match op with
  | .fadd => BitVec.ofNat 64 (fF32.round p.toFp)
  | _ => BitVec.ofInt 64 p.1

/-- The operator of an instance: that of any arrival which carries one (R286). -/
def Inst.operator (i : Inst) : Option BarOp :=
  match i.arrived.findSome? (fun a => a.2.map (·.1)) with
  | some o => some o
  | none => i.podKids.findSome? (fun k => k.2.map (·.1))

/-- Contributions of the members and of the pod children, as partial results (R378, R390). -/
def Inst.partials (i : Inst) : List Partial :=
  i.arrived.filterMap (fun a => match a.2 with | some (o, some v) => some (Partial.one o v) | _ => none) ++
  i.podKids.filterMap (fun k => match k.2 with | some (_, m, e, x) => if x = 5 then none else some (m, e, x) | none => none)

/-- The partial result of an instance; none where nothing was contributed. -/
def Inst.total (i : Inst) (op : BarOp) : Option Partial :=
  match i.partials with
  | [] => none
  | p :: l => some (l.foldl (Partial.combine op) p)

end Sys2Proof.Machine
end

