-- ==== Sys2Proof/Machine/Vector.lean ====
section
/-! DEFINITION. The vector heads and the repetition buffer (R214 to R242). PLOAD is with the easel. -/
namespace Sys2Proof.Machine
open Sys2Proof.WellFormed (lanes laneBits isInt)

/-! ### Lanes (R214) -/

/-- Lane `i` of width `w`. -/
def laneAt (q : Quad) (w i : Nat) : Nat := q.toNat / 2 ^ (w * i) % 2 ^ w
/-- A register from lanes of width `w`, lane 0 first. -/
def ofLanes (w : Nat) (l : List Nat) : Quad := BitVec.ofNat 128 (l.foldr (fun x acc => x % 2 ^ w + acc * 2 ^ w) 0)
def lanesOf (t : LaneT) (q : Quad) : List Nat := (List.range (lanes t)).map (laneAt q (laneBits t))
/-- Lane by lane, one source. -/
def map1 (t : LaneT) (f : Nat → Nat) (a : Quad) : Quad := ofLanes (laneBits t) ((lanesOf t a).map f)
/-- Lane by lane, two sources. -/
def map2 (t : LaneT) (f : Nat → Nat → Nat) (a b : Quad) : Quad :=
  ofLanes (laneBits t) ((List.range (lanes t)).map (fun i => f (laneAt a (laneBits t) i) (laneAt b (laneBits t) i)))

/-- The format of a float lane type. -/
def fmtOf : LaneT → Fmt
  | .bf16 => fBf16
  | .f16 => fF16
  | .f64 => fF64
  | _ => fF32
/-- The exact value of a lane. -/
def laneVal (t : LaneT) (u : Nat) : Fp := if isInt t then intVal (sx u (laneBits t)) else (fmtOf t).decode u

/-! ### Lane operations (R220 to R224, R228 to R231) -/

/-- The integer treatments of R220. -/
def intLane (o : Ovf) (w : Nat) (f : Int → Int → Int) (a b : Nat) : Nat :=
  match o with
  | .wrap => wrap (f (sx a w) (sx b w)) w
  | .ss => wrap (clamp (-(2 ^ (w - 1) : Nat)) ((2 ^ (w - 1) : Nat) - 1) (f (sx a w) (sx b w))) w
  | .us => wrap (clamp 0 ((2 ^ w : Nat) - 1) (f a b)) w

/-- A rounded float operation (R223). -/
def floatLane (t : LaneT) (f : Fp → Fp → Fp) (a b : Nat) : Nat :=
  (fmtOf t).round (f ((fmtOf t).decode a) ((fmtOf t).decode b))

/-- An arithmetic form on either kind of lane. -/
def arith (t : LaneT) (o : Ovf) (fi : Int → Int → Int) (ff : Fp → Fp → Fp) (a b : Quad) : Quad :=
  map2 t (if isInt t then intLane o (laneBits t) fi else floatLane t ff) a b

def vaddQ (t : LaneT) (o : Ovf) : Quad → Quad → Quad := arith t o (· + ·) (fun x y => Fp.sum [x, y])
def vsubQ (t : LaneT) (o : Ovf) : Quad → Quad → Quad := arith t o (· - ·) (fun x y => Fp.sum [x, y.negate])
def vmulQ (t : LaneT) (o : Ovf) : Quad → Quad → Quad := arith t o (· * ·) Fp.mul

/-- VFMA: one rounding (R223). -/
def vfmaQ (t : LaneT) (a b c : Quad) : Quad :=
  let f := fmtOf t; let w := laneBits t
  ofLanes w ((List.range (lanes t)).map (fun i =>
    f.round (Fp.sum [Fp.mul (f.decode (laneAt a w i)) (f.decode (laneAt b w i)), f.decode (laneAt c w i)])))

/-- Minimum of two integer lanes: unsigned under FX 2 (R220). -/
def minLane (o : Ovf) (w a b : Nat) : Nat := if o = .us then min a b else if sx a w ≤ sx b w then a else b
def maxLane (o : Ovf) (w a b : Nat) : Nat := if o = .us then max a b else if sx a w ≤ sx b w then b else a
def vminQ (t : LaneT) (o : Ovf) (a b : Quad) : Quad :=
  map2 t (if isInt t then minLane o (laneBits t) else floatLane t Fp.minV) a b
def vmaxQ (t : LaneT) (o : Ovf) (a b : Quad) : Quad :=
  map2 t (if isInt t then maxLane o (laneBits t) else floatLane t Fp.maxV) a b

/-- Sign cleared or inverted; a NaN becomes canonical (R222, R223). -/
def absFloat (t : LaneT) (u : Nat) : Nat :=
  if ((fmtOf t).decode u).isNan then (fmtOf t).nanBits else u % (fmtOf t).signBit
def negFloat (t : LaneT) (u : Nat) : Nat :=
  if ((fmtOf t).decode u).isNan then (fmtOf t).nanBits else u ^^^ (fmtOf t).signBit
def vabsQ (t : LaneT) (o : Ovf) (a : Quad) : Quad :=
  map1 t (fun u => if isInt t then intLane o (laneBits t) (fun x _ => x.natAbs) u 0 else absFloat t u) a
def vnegQ (t : LaneT) (o : Ovf) (a : Quad) : Quad :=
  map1 t (fun u => if isInt t then intLane o (laneBits t) (fun x _ => -x) u 0 else negFloat t u) a

/-- VLOG (R219). -/
def vlogQ (f : VLogOp) (a b : Quad) : Quad :=
  match f with
  | .and => a &&& b
  | .or => a ||| b
  | .xor => a ^^^ b
  | .andn => a &&& ~~~ b
  | .not => ~~~ a

/-- One shifted lane (R221). -/
def shiftLane (f : VShOp) (w u n : Nat) : Nat :=
  match f with
  | .shl => if w ≤ n then 0 else u * 2 ^ n % 2 ^ w
  | .shr => u / 2 ^ n
  | .sra => wrap (sx u w / ((2 ^ min n w : Nat) : Int)) w
/-- VSH: amounts from bits [7:0] of the lanes of B, or one amount (R221). -/
def vshQ (f : VShOp) (t : LaneT) (a : Quad) (n : Sum Quad Nat) : Quad :=
  match n with
  | .inl b => map2 t (fun u v => shiftLane f (laneBits t) u (v % 256)) a b
  | .inr k => map1 t (fun u => shiftLane f (laneBits t) u k) a

/-- The relation of VCMP on two lanes (R224). -/
def vcmpLane (f : VCmpOp) (t : LaneT) (a b : Nat) : Bool :=
  let x := laneVal t a; let y := laneVal t b
  let nan := x.isNan || y.isNan
  match f with
  | .eq => !nan && Fp.eq x y
  | .ne => nan || !Fp.eq x y
  | .lt => !nan && Fp.lt x y
  | .le => !nan && !Fp.lt y x
  | .ltu => decide (a < b)
  | .leu => decide (a ≤ b)
def vcmpQ (f : VCmpOp) (t : LaneT) (a b : Quad) : Quad :=
  map2 t (fun x y => if vcmpLane f t x y then 2 ^ laneBits t - 1 else 0) a b

def vdivQ (t : LaneT) (a b : Quad) : Quad := map2 t (floatLane t Fp.div) a b
def vsqrtQ (t : LaneT) (a : Quad) : Quad := map1 t (fun u => (fmtOf t).round (((fmtOf t).decode u).sqrt)) a

/-- The reading of a lane under the signedness of VMULH and VAVG (R220). -/
def suVal (u : Bool) (w v : Nat) : Int := if u then v else sx v w
def vmulhQ (t : LaneT) (u : Bool) (a b : Quad) : Quad :=
  let w := laneBits t
  map2 t (fun x y => wrap (suVal u w x * suVal u w y / ((2 ^ w : Nat) : Int)) w) a b
def vavgQ (t : LaneT) (u : Bool) (a b : Quad) : Quad :=
  let w := laneBits t
  map2 t (fun x y => wrap ((suVal u w x + suVal u w y + 1) / 2) w) a b

/-- The conversion of one lane (R230). -/
def convLane (dt st : LaneT) (u : Nat) : Nat :=
  let wd := laneBits dt
  if isInt dt then
    if isInt st then wrap (clamp (-(2 ^ (wd - 1) : Nat)) ((2 ^ (wd - 1) : Nat) - 1) (sx u (laneBits st))) wd
    else wrap (clamp (-(2 ^ (wd - 1) : Nat)) ((2 ^ (wd - 1) : Nat) - 1) ((laneVal st u).toInt (2 ^ 64))) wd
  else (fmtOf dt).round (laneVal st u)

/-- VCVT: a narrowing conversion keeps the other lanes of D (R230). -/
def vcvtQ (dt st : LaneT) (h : Nat) (d a : Quad) : Quad :=
  let ws := laneBits st; let wd := laneBits dt; let k := 128 / max ws wd
  if wd < ws then
    ofLanes wd ((List.range (128 / wd)).map (fun i =>
      if h * k ≤ i ∧ i < h * k + k then convLane dt st (laneAt a ws (i - h * k)) else laneAt d wd i))
  else ofLanes wd ((List.range k).map (fun j => convLane dt st (laneAt a ws (h * k + j))))

def vshufQ (t : LaneT) (a b : Quad) : Quad :=
  map1 t (fun v => let k := v % 256; if k < lanes t then laneAt a (laneBits t) k else 0) b
def vrotQ (t : LaneT) (r : Nat) (a : Quad) : Quad :=
  ofLanes (laneBits t) ((List.range (lanes t)).map (fun i => laneAt a (laneBits t) ((i + r) % lanes t)))
/-- VZIP (R227). -/
def vzipQ (t : LaneT) (m : ZipMode) (a b : Quad) : Quad :=
  let w := laneBits t; let h := lanes t / 2
  ofLanes w ((List.range (lanes t)).map (fun i =>
    match m with
    | .lo => laneAt (if i % 2 = 0 then a else b) w (i / 2)
    | .hi => laneAt (if i % 2 = 0 then a else b) w (h + i / 2)
    | .ev => laneAt (if i < h then a else b) w (2 * (i % h))
    | .od => laneAt (if i < h then a else b) w (2 * (i % h) + 1)))

/-- VRED (R228). -/
def vredQ (f : VRedOp) (t : LaneT) (a : Quad) : Quad :=
  let w := laneBits t; let l := lanesOf t a
  let r : Nat :=
    if isInt t then
      match f with
      | .add => wrap (l.foldl (fun acc u => acc + sx u w) (0 : Int)) w
      | .min => l.foldl (minLane .wrap w) (l.headD 0)
      | .max => l.foldl (maxLane .wrap w) (l.headD 0)
    else
      let v := l.map (fmtOf t).decode
      (fmtOf t).round (match f with
        | .add => Fp.sum v
        | .min => v.foldl Fp.minV (v.headD .nan)
        | .max => v.foldl Fp.maxV (v.headD .nan))
  BitVec.ofNat 128 r

/-- VDOT (R229). -/
def vdotQ (t : LaneT) (d a b : Quad) : Quad :=
  let w := laneBits t; let n := 32 / w
  ofLanes 32 ((List.range 4).map (fun j =>
    if isInt t then
      wrap (sx (laneAt d 32 j) 32 +
        (List.range n).foldl (fun acc k => acc + sx (laneAt a w (n * j + k)) w * sx (laneAt b w (n * j + k)) w) (0 : Int)) 32
    else
      fF32.round (Fp.sum (fF32.decode (laneAt d 32 j) ::
        (List.range n).map (fun k => Fp.mul (laneVal t (laneAt a w (n * j + k))) (laneVal t (laneAt b w (n * j + k))))))))

/-- Bits of a packed element (R109). -/
def packBits : PackF → Nat
  | .e2m1 => 4
  | .int4 => 4
  | _ => 6
/-- VUNPK (R231). -/
def vunpkQ (f : PackF) (a : Quad) : Quad :=
  ofLanes 16 ((List.range 8).map (fun i =>
    let c := laneAt a (packBits f) i
    if f = .int4 then wrap (sx c 4) 16 else fBf16.round (packVal f c)))
/-- VPACK (R231). -/
def vpackQ (f : PackF) (a : Quad) : Quad :=
  ofLanes (packBits f) ((List.range 8).map (fun i =>
    let u := laneAt a 16 i
    packEnc f (if f = .int4 then intVal (sx u 16) else fBf16.decode u)))

/-! ### Palettes (R100 to R105, R232, R233) -/

/-- `pdec` (R104). -/
def palDec (nx : Bool) (p2 p3 : Palette) (n c : Nat) : Fp :=
  let custom : Palette → Fp := fun p =>
    match p with
    | .identity => intVal c
    | .image _ e => fE8M10.decode (e.getD c 0)
  if n = 0 then e4m3 nx c else if n = 1 then e5m2 nx c else if n = 2 then custom p2 else custom p3

/-- `penc` (R105). -/
def palEnc (nx : Bool) (p2 p3 : Palette) (n : Nat) (v : Fp) : Nat :=
  let tab := palTab (palDec nx p2 p3 n)
  let std := decide (n < 2) && nx
  let nanCode := if std then 0x7F else match tab.find? (fun e => e.2 = .zero false) with | some e => e.1 | none => 0
  encodeBy tab nanCode (fun neg => if std then some ((if n = 0 then 0x78 else 0x7C) + (if neg then 0x80 else 0)) else none) v

def pdecQ (nx : Bool) (p2 p3 : Palette) (n : Nat) (dt : LaneT) (a : Quad) : Quad :=
  ofLanes (laneBits dt) ((List.range (lanes dt)).map (fun i => (fmtOf dt).round (palDec nx p2 p3 n (laneAt a 8 i))))
def pencQ (nx : Bool) (p2 p3 : Palette) (n : Nat) (st : LaneT) (a : Quad) : Quad :=
  ofLanes 8 ((lanesOf st a).map (fun u => palEnc nx p2 p3 n ((fmtOf st).decode u)))

/-! ### Availability (R216) -/

/-- Types 6 and 7 need Vegaken. -/
def letterArith (t : LaneT) : Letter := if t = .f32 ∨ t = .f64 then .v else .fv
/-- Type 7 needs Vegaken. -/
def letterMove (t : LaneT) : Letter := if t = .f64 then .v else .fv
def letterRed (f : VRedOp) (t : LaneT) : Letter := if f = .add then letterArith t else letterMove t
def letterCvt (dt st : LaneT) : Letter := if dt = .f64 ∨ st = .f64 then .v else .fv

/-- The letter of a head a repetition body may hold. -/
def bodyLetter : Instr → Letter
  | .vadd t .. | .vsub t .. | .vmul t .. => letterArith t
  | .vfma t .. | .vdiv t .. | .vsqrt t .. => letterArith t
  | .vmin t .. | .vmax t .. | .vabs t .. | .vneg t .. => letterMove t
  | .vcmp _ t .. => letterMove t
  | .vred f t .. => letterRed f t
  | .vcvt dt st .. => letterCvt dt st
  | .vpack .. | .vunpk .. => .f
  | _ => .fv

/-! ### The heads -/

/-- The current head's slot has an active sequence, so its vector heads stall (R241). -/
def State.stalled (s : State) : Bool :=
  match (s.arch s.fTask).seq with
  | some q => decide (q.slot = s.fSlot)
  | none => false

/-- A vector head: guard, stall, availability, effect (R124, R216, R241). -/
def vector (g : Guard) (l : Letter) (k : State → State) (s : State) : Host.Outcome State Fault Refusal :=
  if s.cur.holds g && s.stalled then .next s else head g l k s

/-- VADD (R220, R223). -/
def execVadd (t : LaneT) (o : Ovf) (d a b : Reg) (g : Guard) (s : State) : Host.Outcome State Fault Refusal :=
  vector g (letterArith t) (fun s => s.retire (fun x => x.setQ d (vaddQ t o (x.getQ a) (x.getQ b)))) s
/-- VSUB (R220, R223). -/
def execVsub (t : LaneT) (o : Ovf) (d a b : Reg) (g : Guard) (s : State) : Host.Outcome State Fault Refusal :=
  vector g (letterArith t) (fun s => s.retire (fun x => x.setQ d (vsubQ t o (x.getQ a) (x.getQ b)))) s
/-- VMUL (R220, R223). -/
def execVmul (t : LaneT) (o : Ovf) (d a b : Reg) (g : Guard) (s : State) : Host.Outcome State Fault Refusal :=
  vector g (letterArith t) (fun s => s.retire (fun x => x.setQ d (vmulQ t o (x.getQ a) (x.getQ b)))) s
/-- VFMA (R223). -/
def execVfma (t : LaneT) (d a b c : Reg) (g : Guard) (s : State) : Host.Outcome State Fault Refusal :=
  vector g (letterArith t) (fun s => s.retire (fun x => x.setQ d (vfmaQ t (x.getQ a) (x.getQ b) (x.getQ c)))) s
/-- VMIN (R220, R223). -/
def execVmin (t : LaneT) (o : Ovf) (d a b : Reg) (g : Guard) (s : State) : Host.Outcome State Fault Refusal :=
  vector g (letterMove t) (fun s => s.retire (fun x => x.setQ d (vminQ t o (x.getQ a) (x.getQ b)))) s
/-- VMAX (R220, R223). -/
def execVmax (t : LaneT) (o : Ovf) (d a b : Reg) (g : Guard) (s : State) : Host.Outcome State Fault Refusal :=
  vector g (letterMove t) (fun s => s.retire (fun x => x.setQ d (vmaxQ t o (x.getQ a) (x.getQ b)))) s
/-- VABS (R220, R222). -/
def execVabs (t : LaneT) (o : Ovf) (d a : Reg) (g : Guard) (s : State) : Host.Outcome State Fault Refusal :=
  vector g (letterMove t) (fun s => s.retire (fun x => x.setQ d (vabsQ t o (x.getQ a)))) s
/-- VNEG (R220, R222). -/
def execVneg (t : LaneT) (o : Ovf) (d a : Reg) (g : Guard) (s : State) : Host.Outcome State Fault Refusal :=
  vector g (letterMove t) (fun s => s.retire (fun x => x.setQ d (vnegQ t o (x.getQ a)))) s
/-- VAND, VOR, VXOR, VANDN, VNOT (R219). -/
def execVlog (f : VLogOp) (d a b : Reg) (g : Guard) (s : State) : Host.Outcome State Fault Refusal :=
  vector g .fv (fun s => s.retire (fun x => x.setQ d (vlogQ f (x.getQ a) (x.getQ b)))) s
/-- The amount of VSH (R221). -/
def Slot.shAmt (x : Slot) : ShAmt → Sum Quad Nat
  | .reg b => .inl (x.getQ b)
  | .imm n => .inr n.toNat
/-- VSHL, VSHR, VSRA (R221). -/
def execVsh (f : VShOp) (t : LaneT) (d a : Reg) (n : ShAmt) (g : Guard) (s : State) :
    Host.Outcome State Fault Refusal :=
  vector g .fv (fun s => s.retire (fun x => x.setQ d (vshQ f t (x.getQ a) (x.shAmt n)))) s
/-- VCMP (R224). -/
def execVcmp (f : VCmpOp) (t : LaneT) (d a b : Reg) (g : Guard) (s : State) : Host.Outcome State Fault Refusal :=
  vector g (letterMove t) (fun s => s.retire (fun x => x.setQ d (vcmpQ f t (x.getQ a) (x.getQ b)))) s
/-- VSEL (R225). -/
def execVsel (d c a b : Reg) (g : Guard) (s : State) : Host.Outcome State Fault Refusal :=
  vector g .fv (fun s => s.retire (fun x => x.setQ d (if x.getP c then x.getQ a else x.getQ b))) s
/-- VDIV (R223). -/
def execVdiv (t : LaneT) (d a b : Reg) (g : Guard) (s : State) : Host.Outcome State Fault Refusal :=
  vector g (letterArith t) (fun s => s.retire (fun x => x.setQ d (vdivQ t (x.getQ a) (x.getQ b)))) s
/-- VSQRT (R223). -/
def execVsqrt (t : LaneT) (d a : Reg) (g : Guard) (s : State) : Host.Outcome State Fault Refusal :=
  vector g (letterArith t) (fun s => s.retire (fun x => x.setQ d (vsqrtQ t (x.getQ a)))) s
/-- VMULH (R220). -/
def execVmulh (t : LaneT) (u : Bool) (d a b : Reg) (g : Guard) (s : State) : Host.Outcome State Fault Refusal :=
  vector g .fv (fun s => s.retire (fun x => x.setQ d (vmulhQ t u (x.getQ a) (x.getQ b)))) s
/-- VAVG (R220). -/
def execVavg (t : LaneT) (u : Bool) (d a b : Reg) (g : Guard) (s : State) : Host.Outcome State Fault Refusal :=
  vector g .fv (fun s => s.retire (fun x => x.setQ d (vavgQ t u (x.getQ a) (x.getQ b)))) s
/-- VCVT (R230). -/
def execVcvt (dt st : LaneT) (d a : Reg) (h : Option (BitVec 3)) (g : Guard) (s : State) :
    Host.Outcome State Fault Refusal :=
  vector g (letterCvt dt st) (fun s => s.retire (fun x =>
    x.setQ d (vcvtQ dt st (h.elim 0 BitVec.toNat) (x.getQ d) (x.getQ a)))) s
/-- PDEC (R232). -/
def execPdec (n : BitVec 2) (dt : LaneT) (d a : Reg) (g : Guard) (s : State) : Host.Outcome State Fault Refusal :=
  vector g .fv (fun s =>
    let k := s.arch s.fTask
    s.retire (fun x => x.setQ d (pdecQ k.lineNx k.linePal2 k.linePal3 n.toNat dt (x.getQ a)))) s
/-- PENC (R233). -/
def execPenc (n : BitVec 2) (st : LaneT) (d a : Reg) (g : Guard) (s : State) : Host.Outcome State Fault Refusal :=
  vector g .fv (fun s =>
    let k := s.arch s.fTask
    s.retire (fun x => x.setQ d (pencQ k.lineNx k.linePal2 k.linePal3 n.toNat st (x.getQ a)))) s
/-- VSHUF (R226). -/
def execVshuf (t : LaneT) (d a b : Reg) (g : Guard) (s : State) : Host.Outcome State Fault Refusal :=
  vector g .fv (fun s => s.retire (fun x => x.setQ d (vshufQ t (x.getQ a) (x.getQ b)))) s
/-- VROT (R226). -/
def execVrot (t : LaneT) (d a : Reg) (r : BitVec 4) (g : Guard) (s : State) : Host.Outcome State Fault Refusal :=
  vector g .fv (fun s => s.retire (fun x => x.setQ d (vrotQ t r.toNat (x.getQ a)))) s
/-- VZIP and VUZP (R227). -/
def execVzip (t : LaneT) (mode : Option ZipMode) (d a b : Reg) (g : Guard) (s : State) :
    Host.Outcome State Fault Refusal :=
  vector g .fv (fun s => s.retire (fun x => x.setQ d (vzipQ t (mode.getD .lo) (x.getQ a) (x.getQ b)))) s
/-- VRED (R228). -/
def execVred (f : VRedOp) (t : LaneT) (d a : Reg) (g : Guard) (s : State) : Host.Outcome State Fault Refusal :=
  vector g (letterRed f t) (fun s => s.retire (fun x => x.setQ d (vredQ f t (x.getQ a)))) s
/-- VDOT (R229). -/
def execVdot (t : LaneT) (d a b : Reg) (g : Guard) (s : State) : Host.Outcome State Fault Refusal :=
  vector g .fv (fun s => s.retire (fun x => x.setQ d (vdotQ t (x.getQ d) (x.getQ a) (x.getQ b)))) s
/-- VLD (R236, R237). -/
def execVld (d a : Reg) (imm : Imm) (g : Guard) (s : State) : Host.Outcome State Fault Refusal :=
  vector g .fv (fun s =>
    let ea := s.cur.ea a imm
    s.reference ea 16 .rd (fun off => s.loadPair ea off (fun v => s.retire (fun x => x.setQ d (BitVec.ofNat 128 v))))) s
/-- VST (R236, R237). -/
def execVst (d a : Reg) (imm : Imm) (g : Guard) (s : State) : Host.Outcome State Fault Refusal :=
  vector g .fv (fun s =>
    let ea := s.cur.ea a imm
    s.reference ea 16 .wr (fun off => (s.storePair off (s.cur.getQ d).toNat).retire id)) s
/-- VMOV qD, qA (R225). -/
def execVmov (d a : Reg) (g : Guard) (s : State) : Host.Outcome State Fault Refusal :=
  vector g .fv (fun s => s.retire (fun x => x.setQ d (x.getQ a))) s
/-- VMOV qD, mA (R225). -/
def execVmovQm (d a : Reg) (g : Guard) (s : State) : Host.Outcome State Fault Refusal :=
  vector g .fv (fun s => s.retire (fun x => x.setQ d ((x.getM a).setWidth 128))) s
/-- VMOV mD, qA (R225). -/
def execVmovMq (d a : Reg) (g : Guard) (s : State) : Host.Outcome State Fault Refusal :=
  vector g .fv (fun s => s.retire (fun x => x.setM d ((x.getQ a).setWidth 64))) s
/-- VSPLAT (R225). -/
def execVsplat (t : LaneT) (d a : Reg) (g : Guard) (s : State) : Host.Outcome State Fault Refusal :=
  vector g (letterMove t) (fun s => s.retire (fun x =>
    x.setQ d (ofLanes (laneBits t) (List.replicate (lanes t) (x.getM a).toNat)))) s
/-- VLANE extract (R225). -/
def execVlaneExt (t : LaneT) (d a : Reg) (k : BitVec 4) (g : Guard) (s : State) : Host.Outcome State Fault Refusal :=
  vector g (letterMove t) (fun s => s.retire (fun x =>
    x.setM d (BitVec.ofNat 64 (laneAt (x.getQ a) (laneBits t) k.toNat)))) s
/-- VLANE insert (R225). -/
def execVlaneIns (t : LaneT) (d a : Reg) (k : BitVec 4) (g : Guard) (s : State) : Host.Outcome State Fault Refusal :=
  vector g (letterMove t) (fun s => s.retire (fun x =>
    x.setQ d (ofLanes (laneBits t) ((lanesOf t (x.getQ d)).set k.toNat (x.getM a).toNat)))) s
/-- VPACK (R231). -/
def execVpack (f : PackF) (d a : Reg) (g : Guard) (s : State) : Host.Outcome State Fault Refusal :=
  vector g .f (fun s => s.retire (fun x => x.setQ d (vpackQ f (x.getQ a)))) s
/-- VUNPK (R231). -/
def execVunpk (f : PackF) (d a : Reg) (g : Guard) (s : State) : Host.Outcome State Fault Refusal :=
  vector g .f (fun s => s.retire (fun x => x.setQ d (vunpkQ f (x.getQ a)))) s

/-! ### The repetition buffer (R238 to R242) -/

/-- A body head with every q field moved on by `k`, modulo 16 (R240); none for a head a body may not hold or a guarded one (R239). -/
def bodyHead (k : Nat) : Instr → Option Instr :=
  let r : Reg → Reg := fun x => x + BitVec.ofNat 4 k
  let un : Guard → Option Unit := fun g => match g with | .on _ => none | _ => some ()
  fun i => match i with
  | .vadd t o d a b g => (un g).map (fun _ => .vadd t o (r d) (r a) (r b) g)
  | .vsub t o d a b g => (un g).map (fun _ => .vsub t o (r d) (r a) (r b) g)
  | .vmul t o d a b g => (un g).map (fun _ => .vmul t o (r d) (r a) (r b) g)
  | .vfma t d a b c g => (un g).map (fun _ => .vfma t (r d) (r a) (r b) (r c) g)
  | .vmin t o d a b g => (un g).map (fun _ => .vmin t o (r d) (r a) (r b) g)
  | .vmax t o d a b g => (un g).map (fun _ => .vmax t o (r d) (r a) (r b) g)
  | .vabs t o d a g => (un g).map (fun _ => .vabs t o (r d) (r a) g)
  | .vneg t o d a g => (un g).map (fun _ => .vneg t o (r d) (r a) g)
  | .vlog f d a b g => (un g).map (fun _ => .vlog f (r d) (r a) (if f = .not then b else r b) g)
  | .vsh f t d a n g =>
    (un g).map (fun _ => .vsh f t (r d) (r a) (match n with | .reg b => .reg (r b) | .imm v => .imm v) g)
  | .vcmp f t d a b g => (un g).map (fun _ => .vcmp f t (r d) (r a) (r b) g)
  | .vdiv t d a b g => (un g).map (fun _ => .vdiv t (r d) (r a) (r b) g)
  | .vsqrt t d a g => (un g).map (fun _ => .vsqrt t (r d) (r a) g)
  | .vmulh t u d a b g => (un g).map (fun _ => .vmulh t u (r d) (r a) (r b) g)
  | .vavg t u d a b g => (un g).map (fun _ => .vavg t u (r d) (r a) (r b) g)
  | .vcvt dt st d a h g => (un g).map (fun _ => .vcvt dt st (r d) (r a) h g)
  | .pdec n dt d a g => (un g).map (fun _ => .pdec n dt (r d) (r a) g)
  | .penc n st d a g => (un g).map (fun _ => .penc n st (r d) (r a) g)
  | .vshuf t d a b g => (un g).map (fun _ => .vshuf t (r d) (r a) (r b) g)
  | .vrot t d a n g => (un g).map (fun _ => .vrot t (r d) (r a) n g)
  | .vzip t m d a b g => (un g).map (fun _ => .vzip t m (r d) (r a) (r b) g)
  | .vred f t d a g => (un g).map (fun _ => .vred f t (r d) (r a) g)
  | .vdot t d a b g => (un g).map (fun _ => .vdot t (r d) (r a) (r b) g)
  | .vpack f d a g => (un g).map (fun _ => .vpack f (r d) (r a) g)
  | .vunpk f d a g => (un g).map (fun _ => .vunpk f (r d) (r a) g)
  | .vmov d a g => (un g).map (fun _ => .vmov (r d) (r a) g)
  | _ => none

/-- The effect of a body head on its slot (R239: it reads and writes only q registers). -/
def bodyEffect (nx : Bool) (p2 p3 : Palette) (x : Slot) : Instr → Slot
  | .vadd t o d a b _ => x.setQ d (vaddQ t o (x.getQ a) (x.getQ b))
  | .vsub t o d a b _ => x.setQ d (vsubQ t o (x.getQ a) (x.getQ b))
  | .vmul t o d a b _ => x.setQ d (vmulQ t o (x.getQ a) (x.getQ b))
  | .vfma t d a b c _ => x.setQ d (vfmaQ t (x.getQ a) (x.getQ b) (x.getQ c))
  | .vmin t o d a b _ => x.setQ d (vminQ t o (x.getQ a) (x.getQ b))
  | .vmax t o d a b _ => x.setQ d (vmaxQ t o (x.getQ a) (x.getQ b))
  | .vabs t o d a _ => x.setQ d (vabsQ t o (x.getQ a))
  | .vneg t o d a _ => x.setQ d (vnegQ t o (x.getQ a))
  | .vlog f d a b _ => x.setQ d (vlogQ f (x.getQ a) (x.getQ b))
  | .vsh f t d a n _ => x.setQ d (vshQ f t (x.getQ a) (x.shAmt n))
  | .vcmp f t d a b _ => x.setQ d (vcmpQ f t (x.getQ a) (x.getQ b))
  | .vdiv t d a b _ => x.setQ d (vdivQ t (x.getQ a) (x.getQ b))
  | .vsqrt t d a _ => x.setQ d (vsqrtQ t (x.getQ a))
  | .vmulh t u d a b _ => x.setQ d (vmulhQ t u (x.getQ a) (x.getQ b))
  | .vavg t u d a b _ => x.setQ d (vavgQ t u (x.getQ a) (x.getQ b))
  | .vcvt dt st d a h _ => x.setQ d (vcvtQ dt st (h.elim 0 BitVec.toNat) (x.getQ d) (x.getQ a))
  | .pdec n dt d a _ => x.setQ d (pdecQ nx p2 p3 n.toNat dt (x.getQ a))
  | .penc n st d a _ => x.setQ d (pencQ nx p2 p3 n.toNat st (x.getQ a))
  | .vshuf t d a b _ => x.setQ d (vshufQ t (x.getQ a) (x.getQ b))
  | .vrot t d a n _ => x.setQ d (vrotQ t n.toNat (x.getQ a))
  | .vzip t m d a b _ => x.setQ d (vzipQ t (m.getD .lo) (x.getQ a) (x.getQ b))
  | .vred f t d a _ => x.setQ d (vredQ f t (x.getQ a))
  | .vdot t d a b _ => x.setQ d (vdotQ t (x.getQ d) (x.getQ a) (x.getQ b))
  | .vpack f d a _ => x.setQ d (vpackQ f (x.getQ a))
  | .vunpk f d a _ => x.setQ d (vunpkQ f (x.getQ a))
  | .vmov d a _ => x.setQ d (x.getQ a)
  | _ => x

/-- The body of a REP at head `i` of a line: its N heads, where every check of R239 passes. -/
def repBody (img : List Half) (i n : Nat) : Option (List Instr) :=
  if lineHeads img < i + n then none
  else
    let hs := (List.range n).map (fun k =>
      match headInstr img (i + 1 + k) with
      | .ok h => (bodyHead 0 h)
      | .error _ => none)
    if hs.any Option.isNone then none
    else
      let l := hs.filterMap id
      if l.any (fun h => decide (bodyLetter h = .f)) && l.any (fun h => decide (bodyLetter h = .v)) then none else some l

/-- REP: the body goes to the sequencer; the pipe goes on after it (R239 to R241). -/
def execRep (heads : BitVec 3) (stride : BitVec 4) (passes : BitVec 8) (s : State) :
    Host.Outcome State Fault Refusal :=
  let n := heads.toNat + 1; let a := s.arch s.fTask
  .next (match repBody (s.cur.line.img.getD []) s.cur.line.next n with
    | none => s.fault 0x01 0
    | some body =>
      match body.findSome? (fun h => s.lacks (bodyLetter h)) with
      | some v => s.migrate v
      | none =>
        if a.seq.isSome then s
        else
          let q : Seq := { slot := s.fSlot, body := body, stride := stride.toNat, passes := passes.toNat + 1, pass := 0,
                           head := 0, nx := a.lineNx, pal2 := a.linePal2, pal3 := a.linePal3 }
          (s.updArch s.fTask (fun a => { a with seq := some q })).updCur (fun x => x.skip (n + 1)))

/-- The next place of a sequence, or none when it has completed (R240). -/
def Seq.next (q : Seq) : Option Seq :=
  if q.head + 1 < q.body.length then some { q with head := q.head + 1 }
  else if q.pass + 1 < q.passes then some { q with head := 0, pass := q.pass + 1 }
  else none

/-- SEQUENCER_ISSUE: one issue of the active sequence (R240). -/
def execSequencerIssue (t : Nat) (s : State) : Host.Outcome State Fault Refusal :=
  .next (match (s.arch t).seq with
    | none => s
    | some q =>
      if !(s.task t).onCore then s
      else
        match q.body[q.head]?.bind (bodyHead (q.stride * q.pass)) with
        | none => s.updArch t (fun a => { a with seq := q.next })
        | some h =>
          s.updArch t (fun a =>
            { a.updSlot q.slot (fun x => bodyEffect q.nx q.pal2 q.pal3 x h) with seq := q.next }))

end Sys2Proof.Machine
end

