-- ==== Sys2Proof/Machine/Engine.lean ====
section
/-! DEFINITION. Engine commands from acceptance to completion: sync registers, copies, TLOAD, palette loads, waits on queues, and engine semaphores (R234, R243 to R262, R357). -/
namespace Sys2Proof.Machine

/-! ### Acceptance (R244 to R247) -/

def SyncReg.none : SyncReg := ⟨0, 0, false, 0, 0, false⟩
/-- The fields of a sync register (R245). -/
def SyncReg.of (v : Nat) : SyncReg := ⟨bits v 7 0, bits v 23 8, bit v 24, bits v 39 32, bits v 55 40, bit v 56⟩
/-- Its reserved bits are zero (R245). -/
def syncOk (v : Nat) : Bool := decide (bits v 31 25 = 0 ∧ bits v 63 57 = 0)

/-- The sync value of the current head, and whether it is well formed (R245). -/
def State.syncOf (s : State) (y : Sync) : SyncReg × Bool :=
  match y with
  | .field (some r) => (SyncReg.of (s.cur.getM r).toNat, syncOk (s.cur.getM r).toNat)
  | _ => (.none, true)

/-- The command numbered 64 earlier is still outstanding (R244). -/
def Eng.full (e : Eng) : Bool := e.cmds.any (fun c => c.out && decide (c.uid + 64 ≤ e.count))

/-- A malformed command: cause 0x16 with value 0 (R247). -/
def malformed : Option (Nat × Nat) := some (0x16, 0)

/-- A late fault has emptied the queue, which stays empty until ELFAULT.V is cleared (R152). -/
def DCsr.emptied (d : DCsr) (q : Nat) : Bool := d.elV && d.elQs.getLsbD q

/-- What the slot has read ahead for a copy that waits for nothing: neither on a semaphore nor behind another command (R77, R93, log 94). -/
def State.farFor (s : State) (q : Nat) (op : CmdOp) (sy : SyncReg) : SMap (Word × Poison) :=
  match op with
  | .copy _ => if sy.wen || !(s.me.arch.eng.queue q).isEmpty then [] else s.cur.far.toList.map (fun e => (e.1, e.2, .none))
  | _ => []

/-- A command head: it waits while the ring is full; otherwise the command is accepted with the fault found, if any; in a queue that a late fault has emptied it is discarded (R152, R244, R247, log 87); DESIGN CHOICE, log 126: a malformed sync register comes before a fault of the descriptor or the image. -/
def State.accept (s : State) (major q : Nat) (y : Sync) (mk : State → CmdOp × Option (Nat × Nat)) : State :=
  let a := s.arch s.fTask
  if a.eng.full then s.waitAt .engineSem .ring
  else
    let r := mk s; let sy := s.syncOf y
    let c : Cmd :=
      { uid := a.eng.count, major := major, queue := q, slot := s.fSlot, st := if a.ctl.d.emptied q then .discarded else .accepted, op := r.1,
        fault := if sy.2 then r.2 else malformed, sync := sy.1, path := none, leases := [], landed := [], sent := [],
        counted := none, begunAt := 0, nx := false, pal2 := .identity, pal3 := .identity, again := false,
        after := a.serial, fence := s.cur.fenced, met := false, seen := s.farFor q r.1 sy.1 }
    (s.updEng s.fTask (fun e =>
      { e with count := e.count + 1, cmds := (e.cmds ++ [c]).drop (e.cmds.length - 63) })).retireOrd id

/-- The offset of an address in the own column: local form, or the own coordinate (R253, R257, R273). -/
def ownOffset (me : Coord) (a : Nat) : Option Nat :=
  match coordOf me a with
  | some c => if c = me then some (bits a 21 0) else none
  | none => none

/-- The lowest offset of an access that is denied or absent (R54, R57). -/
def deniedAt (lpa : Vector Word 16) (need : Need) (off n : Nat) : Option Nat :=
  let o := if 0 < n ∧ Config.undoBase < off + n then some (max off Config.undoBase) else none
  match firstDenied lpa false need off n, o with
  | some a, some b => some (min a b)
  | some a, none => some a
  | none, o => o

/-- A descriptor or image read at acceptance, in program order with the slot's accesses, each location for itself: its bytes, or 0x04 or 0x09 (R64, R234, R253). -/
def State.readAtAccept (s : State) (off n : Nat) : Except (Nat × Nat) Nat :=
  match deniedAt s.me.arch.lineLpa .rd off n with
  | some o => .error (0x04, o)
  | none =>
    match s.locsPoison off n with
    | some p => .error (poisonCause p.2, p.1)
    | none => .ok (s.seeLocs off n)

/-- A command that reads its own column at acceptance; the read is an access of the slot, and stalls behind a fenced copy (R66, R70). -/
def State.acceptRead (s : State) (addr : Nat) (k : State) : State :=
  match ownOffset s.me.coord addr with
  | some _ => if s.me.arch.fenceStalls s.cur then s else k
  | none => k

/-! ### Copies at acceptance (R59, R61, R253, R254) -/

/-- A level-form address passes R59 for the task. -/
def State.levelOk (s : State) (t a : Nat) : Bool :=
  let l := bits a 61 59
  let top := match s.groupOf t with | none => 0 | some g => g.top
  decide (1 ≤ l ∧ l ≤ 4 ∧ bits a 58 56 = 0 ∧ l ≤ top) && s.memberAt t l

/-- The live task of a task's group at a coordinate (R61). -/
def State.peerAt (s : State) (t : Nat) (c : Coord) : Option Nat :=
  match s.groupOf t with
  | none => none
  | some g => g.tasks.find? (fun u => (s.task u).live && decide ((s.task u).coord = c))

/-- An end of a copy and the offset or virtual address in it; none where items 1 to 3 of R254 fail. -/
def State.endOf (s : State) (t a : Nat) : Option (CEnd × Nat) :=
  let me := (s.task t).coord
  if bits a 63 62 = 3 then (if s.levelOk t a then some (.level (bits a 61 59), bits a 55 0) else none)
  else
    match coordOf me a with
    | none => none
    | some c =>
      if c = me then some (.own, bits a 21 0)
      else
        let top := match s.groupOf t with | none => 0 | some g => g.top
        if (s.peerAt t c).isSome && decide (enclosing me c ≤ top) then some (.col c, bits a 21 0) else none

/-- Every row lies in its field of `lim` bytes (R254 item 5). -/
def rowsIn (lim off rowb rows : Nat) (stride : Int) : Bool :=
  [rowAt off stride 0, rowAt off stride (rows - 1)].all (fun a => decide (0 ≤ a ∧ a + rowb ≤ lim))
/-- First byte and end of all rows together. -/
def hull (off rowb rows : Nat) (stride : Int) : Int × Int :=
  let a := rowAt off stride 0; let b := rowAt off stride (rows - 1)
  (min a b, max a b + rowb)
/-- Size of the field of an end. -/
def CEnd.field : CEnd → Nat
  | .level _ => 2 ^ 56
  | _ => 2 ^ 22
/-- The lowest offset of the rows of a column end that is not program data (R254 item 8). -/
def absentRow (e : CEnd) (off rowb rows : Nat) (stride : Int) : Option Nat :=
  match e with
  | .level _ => none
  | _ =>
    if (hull off rowb rows stride).2 ≤ Config.undoBase then none
    else
      ((List.range rows).filterMap (fun r =>
        let a := (rowAt off stride r).toNat
        if Config.undoBase < a + rowb then some (max a Config.undoBase) else none)).min?

/-- The smaller of two found values. -/
def least (a b : Option Nat) : Option Nat :=
  match a, b with
  | some x, some y => some (min x y)
  | some x, none => some x
  | none, y => y

/-- One of the rows `b`, `b + step`, …, of `n` rows of `w` bytes, holds a byte of the row at `x`. -/
def rowMeets (b step : Int) (n w : Nat) (x : Int) : Bool :=
  if step = 0 then decide (x < b + w ∧ b < x + w)
  else
    let b := if step < 0 then b + step * (n - 1 : Nat) else b
    let q := max 0 ((x - b - w) / step.natAbs + 1)
    decide (q < n ∧ b + q * step.natAbs < x + w)
/-- A destination row and a source row share a byte (R254 item 7). -/
def CopyD.rowsMeet (d : CopyD) : Bool :=
  (List.range d.rows).any (fun r => rowMeets d.src d.sstr d.rows d.rowb (rowAt d.dst d.dstr r))

/-- Items 4 to 8 of R254. -/
def CopyD.check (d : CopyD) : Option (Nat × Nat) :=
  if d.dst % 8 ≠ 0 ∨ d.src % 8 ≠ 0 ∨ d.rowb % 8 ≠ 0 ∨ d.dstr % 8 ≠ 0 ∨ d.sstr % 8 ≠ 0 ∨ 2 ^ 32 ≤ d.rowb then malformed
  else if d.rows = 0 ∨ d.rowb = 0 then none
  else if !rowsIn d.dEnd.field d.dst d.rowb d.rows d.dstr || !rowsIn d.sEnd.field d.src d.rowb d.rows d.sstr then malformed
  else if 1 < d.rows ∧ d.dstr.natAbs < d.rowb then malformed
  else
    let x := hull d.dst d.rowb d.rows d.dstr; let y := hull d.src d.rowb d.rows d.sstr
    if d.dEnd = d.sEnd ∧ x.1 < y.2 ∧ y.1 < x.2 ∧ d.rowsMeet then malformed
    else
      (least (absentRow d.dEnd d.dst d.rowb d.rows d.dstr) (absentRow d.sEnd d.src d.rowb d.rows d.sstr)).map (fun o => (0x04, o))

/-- A copy from its two addresses and its shape; one whose source alone fails keeps its destination, on whose path it is waited for until it is discarded (R254, R261). -/
def State.makeCopy (s : State) (dst src rowb rows : Nat) (dstr sstr : Int) : CmdOp × Option (Nat × Nat) :=
  match s.endOf s.fTask dst, s.endOf s.fTask src with
  | some d, some e =>
    let c : CopyD := ⟨d.2, e.2, rowb, rows, dstr, sstr, d.1, e.1⟩
    (.copy c, c.check)
  | some d, none => (.copy ⟨d.2, 0, rowb, rows, dstr, sstr, d.1, .own⟩, malformed)
  | none, _ => (.copy .blank, malformed)

/-- COPY (R252 to R254). -/
def execCopy (q a b c : Reg) (y : Option Reg) (g : Guard) (s : State) : Host.Outcome State Fault Refusal :=
  guarded g (fun s => s.accept 0x6C q.toNat (.field y) (fun s =>
    s.makeCopy (s.cur.getM a).toNat (s.cur.getM b).toNat (s.cur.getM c).toNat 1 0 0)) s

/-- The copy of a COPY2 descriptor (R253). -/
def State.makeCopy2 (s : State) (a : Nat) : CmdOp × Option (Nat × Nat) :=
  match ownOffset s.me.coord a with
  | none => (.copy .blank, malformed)
  | some off =>
    if off % 32 ≠ 0 then (.copy .blank, malformed)
    else
      match s.readAtAccept off 32 with
      | .error f => (.copy .blank, some f)
      | .ok v =>
        let r := s.makeCopy (bits v 63 0) (bits v 127 64) (bits v 159 128) (bits v 175 160) (sx (bits v 223 192) 32) (sx (bits v 255 224) 32)
        if bits v 191 176 ≠ 0 then (r.1, malformed) else r

/-- COPY2 (R252 to R254). -/
def execCopy2 (q a : Reg) (y : Sync) (g : Guard) (s : State) : Host.Outcome State Fault Refusal :=
  guarded g (fun s => s.acceptRead (s.cur.getM a).toNat (s.accept 0x6D q.toNat y (fun s => s.makeCopy2 (s.cur.getM a).toNat))) s

/-! ### TLOAD (R257 to R259) -/

def tpolCode : TPol → Nat
  | .wait => 0
  | .direct => 1
  | .shadow => 2

/-- A range of pages in scope 3; DESIGN CHOICE, log 128: one that passes the end of the address space is malformed (R257). -/
def State.rangeOk (s : State) (t a n : Nat) : Bool :=
  decide (bits a 63 62 = 3) && s.levelOk t a && decide (bits a 61 59 = 3 ∧ a % 65536 = 0 ∧ n % 65536 = 0 ∧ bits a 55 0 + n ≤ 2 ^ 56)

def TloadD.blank : TloadD := ⟨0, 0, 0, 0, 0, 0⟩

/-- The TLOAD of a descriptor (R257). -/
def State.makeTload (s : State) (pol : Nat) (sy : SyncReg) (a : Nat) : CmdOp × Option (Nat × Nat) :=
  match ownOffset s.me.coord a with
  | none => (.tload .blank, malformed)
  | some off =>
    if off % 64 ≠ 0 then (.tload .blank, malformed)
    else
      match s.readAtAccept off 64 with
      | .error f => (.tload .blank, some f)
      | .ok v =>
        let n := bits v 127 64; let sh := bits v 255 192; let shn := bits v 319 256
        let ok := s.rangeOk s.fTask (bits v 63 0) n && decide (65536 ≤ n) && decide (bits v 511 320 = 0) && decide (sy.sinc = 0) &&
          (if pol = 2 then s.rangeOk s.fTask sh shn else decide (sh = 0 ∧ shn = 0))
        (.tload ⟨pol, bits v 55 0, n, bits v 191 128, bits sh 55 0, shn⟩, if ok then none else malformed)

/-- TLOAD (R257). -/
def execTload (q a : Reg) (pol : TPol) (y : Option Reg) (g : Guard) (s : State) : Host.Outcome State Fault Refusal :=
  guarded g (fun s => s.acceptRead (s.cur.getM a).toNat (s.accept 0x6E q.toNat (.field y) (fun s =>
    s.makeTload (tpolCode pol) (s.syncOf (.field y)).1 (s.cur.getM a).toNat))) s

/-- Every page of a shadow range is resident, and was before this instant (R258, R407). -/
def State.shadowResident (s : State) (c va n : Nat) : Bool :=
  match s.rangeFrames c 3 .r va (n / 65536) with
  | .error _ => false
  | .ok l => l.all (fun f => s.countsResident f && decide ((s.resid f).since < s.now))

/-- Every page that a begun TLOAD translated counts as resident, whatever its entry has become since (R407). -/
def State.rangeResident (s : State) (l : List PageLease) : Bool := l.all (fun p => decide (p.tier ≠ 1) || s.countsResident (p.key / 65536))

/-- The path code with which a begun TLOAD that holds the entries `l` completes now, if it does (R258). -/
def State.tloadCode (s : State) (c : Nat) (d : TloadD) (l : List PageLease) : Option Nat :=
  let all := s.rangeResident l
  if s.now < d.deadline then (if all then some 1 else none)
  else if d.pol = 0 then (if all then some 2 else none)
  else if d.pol = 1 then some 3
  else if s.shadowResident c d.shadow d.shbytes then some 4 else some 3

/-- A begun TLOAD completes when one of the moments of R258 has come. -/
def State.tloadTry (s : State) (t uid : Nat) : State :=
  match (s.eng t).find uid with
  | none => s
  | some c =>
    match c.op, s.tloadCode (s.task t).ctx (match c.op with | .tload d => d | _ => .blank) c.leases with
    | .tload _, some k =>
      if c.st = .begun then
        (s.updEng t (fun e =>
          let e := e.updCmd uid (fun c => { c with st := .completed, leases := [] })
          if c.sync.sen then e.addSem c.sync.ssem k else e)).semsMoved t |>.release (.tload t uid)
      else s
    | _, _ => s

/-! ### Palette loads (R101, R102, R234) -/

/-- The value words of an image strictly increase (R102). -/
def rising (l : List Nat) : Bool :=
  (l.zip (l.drop 1)).all (fun p => Fp.lt (fE8M10.decode p.1) (fE8M10.decode p.2))

/-- The conditions of R102 on the 256 words of an image. -/
def palImageOk (w : List Nat) : Bool :=
  let e := w.map (· % 2 ^ 19); let ord := bit (w.getD 0 0) 31
  w.all (fun u => decide (bits u 30 19 = 0)) && (w.drop 1).all (fun u => !bit u 31) &&
  e.all (fun u => decide (bits u 17 10 ≠ 255) && (decide (bits u 17 10 ≠ 0) || decide (bits u 9 0 = 0))) &&
  (if ord then decide (e.getD 0 0 = 0) && rising (e.take 128) &&
      (List.range 128).all (fun j => decide (e.getD (128 + j) 0 = (e.getD j 0) ^^^ 2 ^ 18))
   else rising e)

/-- PLOAD at acceptance (R234). -/
def State.makePload (s : State) (n a : Nat) : CmdOp × Option (Nat × Nat) :=
  let no : CmdOp := .pload n false []
  match ownOffset s.me.coord a with
  | none => (no, malformed)
  | some off =>
    if off % 64 ≠ 0 ∨ Config.undoBase < off + 1024 then (no, malformed)
    else
      match s.readAtAccept off 1024 with
      | .error f => (no, some f)
      | .ok v =>
        let w := (List.range 256).map (fun c => bits v (32 * c + 31) (32 * c))
        (.pload n (bit (w.getD 0 0) 31) (w.map (· % 2 ^ 19)), if palImageOk w then none else malformed)

/-- PLOAD: a vector head, which stalls while its slot's sequence is active (R218, R234, R241). -/
def execPload (n : BitVec 2) (a : Reg) (g : Guard) (s : State) : Host.Outcome State Fault Refusal :=
  vector g .fv (fun s => s.acceptRead (s.cur.getM a).toNat (s.accept 0x53 4 .short (fun s => s.makePload n.toNat (s.cur.getM a).toNat))) s

/-! ### Waiting on queues (R260 to R262) -/

/-- The cut of a JOIN or DRAIN: kept from its first issue (R261). -/
def State.cutOf (s : State) : List Nat :=
  match s.cur.cut with
  | some l => l
  | none => ((s.eng s.fTask).cmds.filter Cmd.out).map (·.uid)

/-- No command of the cut is outstanding in the named queues (R261). -/
def Eng.joined (e : Eng) (cut : List Nat) (mask : Nat) : Bool :=
  e.cmds.all (fun c => !c.out || !cut.contains c.uid || !mask.testBit c.queue)

/-- JOIN (R261). -/
def execJoin (mask : BitVec 5) (g : Guard) (s : State) : Host.Outcome State Fault Refusal :=
  guarded g (fun s =>
    if (s.eng s.fTask).joined s.cutOf mask.toNat then s.retireOrd id
    else (s.updCur (fun x => { x with cut := some s.cutOf })).waitAt .levelCopy (.join mask.toNat)) s

def pathCode : Path → Nat
  | .loc => 0 | .group => 1 | .die => 2 | .module => 3 | .lpddr => 4 | .pod => 5

/-- DRAIN (R261). -/
def execDrain (p : Path) (g : Guard) (s : State) : Host.Outcome State Fault Refusal :=
  guarded g (fun s =>
    if (s.eng s.fTask).pathsClear s.me.coord s.cutOf [(pathCode p)] then s.retireOrd id
    else (s.updCur (fun x => { x with cut := some s.cutOf })).waitAt .levelCopy (.drain (pathCode p))) s

/-- The snapshot of CQST; a command whose waits have ended, or with a recorded fault, waits on no window; the head of a parked queue shows its closed window (R246, R262, log 90). -/
def Arch.cqst (a : Arch) (me : Coord) : Nat :=
  let e := a.eng
  (e.cmds.filter Cmd.out).length + e.count % 256 * 2 ^ 8 + maskOf 5 (fun q => !(e.queue q).isEmpty) * 2 ^ 16 +
    maskOf 4 (fun q => e.parkedQ q) * 2 ^ 21 +
    maskOf 4 (fun q => match (e.queue q).head? with
      | some c => decide (c.st = .accepted) && c.fault.isNone && !c.again && !c.met && !a.windowsOpen me c
      | none => false) * 2 ^ 25

/-- CQST (R262). -/
def execCqst (d : Reg) (g : Guard) (s : State) : Host.Outcome State Fault Refusal :=
  guarded g (fun s => s.retire (fun x => x.setM d (BitVec.ofNat 64 (s.me.arch.cqst s.me.coord)))) s

/-! ### Engine semaphores (R249 to R251) -/

/-- The semaphore a register names (R250). -/
def State.semIdx (s : State) (r : Reg) : Nat := bits (s.cur.getM r).toNat 7 0

/-- SEMW (R251). -/
def execSemw (d : Reg) (thr : BitVec 16) (g : Guard) (s : State) : Host.Outcome State Fault Refusal :=
  guarded g (fun s =>
    if thr.toNat ≤ ((s.eng s.fTask).sem (s.semIdx d)).toNat then s.retireOrd id
    else s.waitAt .engineSem (.sem (s.semIdx d) thr.toNat)) s

/-- SEMS (R249, R250). -/
def execSems (d : Reg) (inc : BitVec 16) (g : Guard) (s : State) : Host.Outcome State Fault Refusal :=
  guarded g (fun s => ((s.updEng s.fTask (fun e => e.addSem (s.semIdx d) inc.toNat)).semsMoved s.fTask).retire id) s

/-- SEMRD (R250). -/
def execSemrd (d a : Reg) (g : Guard) (s : State) : Host.Outcome State Fault Refusal :=
  guarded g (fun s => s.retire (fun x => x.setM d (((s.eng s.fTask).sem (s.semIdx a)).setWidth 64))) s

/-- SEMINI: what waits evaluates its conditions before the value changes and after (R246, R249, R250). -/
def execSemini (d a : Reg) (g : Guard) (s : State) : Host.Outcome State Fault Refusal :=
  guarded g (fun s =>
    (((s.semsMoved s.fTask).updEng s.fTask (fun e => e.setSem (s.semIdx d) ((s.cur.getM a).setWidth 16))).semsMoved s.fTask).retire id) s

end Sys2Proof.Machine
end

