-- ==== Sys2Proof/Machine/Easel.lean ====
section
/-! DEFINITION. The easel: rings, formats, tiles, matrix products and accumulators (R263 to R276). The heads are here, and the effects their commands have when they complete. -/
namespace Sys2Proof.Machine

/-! ### Formats and tiles (R264, R265) -/

/-- Availability of a format (R264). -/
def fmtLetter (code : Nat) (sparse : Bool) : Letter :=
  if code = 8 ∨ code = 9 then .v
  else if sparse || decide (code = 0 ∨ code = 1 ∨ code = 2 ∨ code = 5) then .f else .fv

/-- Bits of an element. -/
def elemBits (code : Nat) : Nat := [4, 6, 6, 8, 8, 4, 16, 16, 32, 64].getD code 8
/-- Bytes of a vector of 32 elements. -/
def vecBytes (code : Nat) : Nat := 4 * elemBits code
/-- Formats that pair: 0 MX, 1 half precision, 2 integers, 3 binary32, 4 binary64 (R269). -/
def fmtClass (code : Nat) : Nat := [0, 0, 0, 0, 2, 2, 1, 1, 3, 4].getD code 0

/-- The value of an element code under the ring's format, NX and palettes of a command. -/
def elemVal (c : Cmd) (r : Ring) (u : Nat) : Fp :=
  if r.fmt = 0 then packVal .e2m1 u
  else if r.fmt = 1 then packVal .e3m2 u
  else if r.fmt = 2 then packVal .e2m3 u
  else if r.fmt = 3 then palDec c.nx c.pal2 c.pal3 r.pal u
  else if r.fmt = 4 then intVal (sx u 8)
  else if r.fmt = 5 then intVal (sx u 4)
  else if r.fmt = 6 then fBf16.decode u
  else if r.fmt = 7 then fF16.decode u
  else if r.fmt = 8 then fF32.decode u
  else fF64.decode u

/-- Offset of tile `i` places after HEAD. -/
def Ring.tile (r : Ring) (i : Nat) : Nat := r.base + (r.head + i) % r.cap * r.stride
/-- Offset of the scale area in a tile. -/
def Ring.scales (r : Ring) : Nat := 32 * vecBytes r.fmt

/-- The column as a command sees it that has read some locations already (R64). -/
def State.asSeen (s : State) (t : Nat) (c : Cmd) : State :=
  c.seen.foldl (fun s e => (s.write (s.colKey t e.1) e.2.1.toNat 8).setPoison (s.colKey t e.1) e.2.2) s

/-- The 32 values of vector `v` of a tile at `off` (R109, R265). -/
def State.vector_ (s : State) (t : Nat) (c : Cmd) (r : Ring) (off v : Nat) : List Fp :=
  let w := elemBits r.fmt
  let x := s.read (s.colKey t (off + v * vecBytes r.fmt)) (vecBytes r.fmt)
  (List.range 32).map (fun i => elemVal c r (bits x (w * i + w - 1) (w * i)))

/-- The scale at position `p` of the area of a tile (R111). -/
def State.scale_ (s : State) (t : Nat) (r : Ring) (off p : Nat) : Fp :=
  let w := s.read (s.colKey t (off + r.scales + p / 3 * 4)) 4
  s10 (bits w (10 * (p % 3) + 9) (10 * (p % 3)))

/-- One side of an update: K positions with values, and the scale. -/
abbrev Side := List (Nat × Fp) × Fp

/-- Vector `v` of a dense tile (R265). -/
def State.denseSide (s : State) (t : Nat) (c : Cmd) (r : Ring) (off v : Nat) : Side :=
  ((s.vector_ t c r off v).zipIdx.map (fun p => (p.2, p.1)), s.scale_ t r off v)

/-- The metadata of row `i` of a sparse tile (R265). -/
def State.metaRow (s : State) (t : Nat) (r : Ring) (off i : Nat) : Nat := s.read (s.colKey t (off + r.stride - 256 + 8 * i)) 8

/-- Every group of every row is in order (R265). -/
def State.metaOk (s : State) (t : Nat) (r : Ring) (off : Nat) : Bool :=
  (List.range 32).all (fun i =>
    let m := s.metaRow t r off i
    (List.range 16).all (fun g => decide (bits m (4 * g + 1) (4 * g) < bits m (4 * g + 3) (4 * g + 2))))

/-- K-block `b` of row `i` of a sparse tile: the kept elements at their positions (R265, R271). -/
def State.sparseSide (s : State) (t : Nat) (c : Cmd) (r : Ring) (off i b : Nat) : Side :=
  let v := s.vector_ t c r off i; let m := s.metaRow t r off i
  ((List.range 16).map (fun k =>
    let e := 16 * b + k; let g := e / 2
    let p := if e % 2 = 0 then bits m (4 * g + 1) (4 * g) else bits m (4 * g + 3) (4 * g + 2)
    (4 * (g - 8 * b) + p, v.getD e (.zero false))), s.scale_ t r off (2 * i + b))

/-- Products of a left side with a right side; positions the left side does not hold contribute nothing; DESIGN CHOICE, log 122: a pair that 2:4 sparsity removes is no product at all, also in the special cases of R112 (R112, R271). -/
def products (a b : Side) : List (Nat × Fp) := a.1.map (fun x => (x.1, Fp.mul x.2 ((b.1.getD x.1 (0, .zero false)).2)))

/-- One K-block of one element under the sum rule of its formats (R112 to R114, R269). -/
def updateElem (cls z : Nat) (a b : Side) : Nat :=
  let p := products a b
  if cls = 0 then mxUpdate z (p.map (·.2)) a.2 b.2
  else if cls = 1 then
    (List.range 4).foldl (fun z k => mxUpdate z ((p.filter (fun x => x.1 / 8 = k)).map (·.2)) (.fin 1 0) (.fin 1 0)) z
  else if cls = 2 then intUpdate z (p.map (fun x => x.2.toInt 0))
  else fmaUpdate (if cls = 3 then fF32 else fF64) z (p.map (·.2))

/-! ### Accumulators (R263, R273) -/

/-- Words `k` onward of the accumulators, as numbers, replaced. -/
def Eng.setZ (e : Eng) (k : Nat) (vals : List Nat) : Eng :=
  let new := (vals.zipIdx.map (fun p => (k + p.2, BitVec.ofNat 32 p.1))).filter (fun p => p.2 ≠ 0)
  { e with z := e.z.filter (fun p => decide (p.1 < k)) ++ new ++ e.z.filter (fun p => decide (k + vals.length ≤ p.1)) }

/-- Advance a ring by `n` tiles (R267). -/
def Ring.pop (r : Ring) (n : Nat) : Ring := { r with head := (r.head + n) % r.cap, count := r.count - n }

/-- The first damaged location of a tile among those the command reads; bytes 44 to 63 of a dense scale area are ignored (R199, R265). -/
def State.tilePoison (s : State) (t : Nat) (r : Ring) (off : Nat) : Option (Nat × Poison) :=
  let area := if fmtClass r.fmt = 0 then (if r.sparse then 88 else 44) else 0
  match s.colPoison t [] off (r.scales + area) with
  | some p => some p
  | none => if r.sparse then s.colPoison t [] (off + r.stride - 256) 256 else none

/-- The damaged location with the lowest offset. -/
def lowestOf (l : List (Nat × Poison)) : Option (Nat × Poison) :=
  l.foldl (fun acc x => match acc with | none => some x | some y => if x.1 < y.1 then some x else acc) none

/-- Elements of the accumulator before a product: zero with the clear bit (R270). -/
def zOld (e : Eng) (clear : Bool) (cls z i j : Nat) : Nat :=
  if clear then 0
  else if cls = 4 then (e.acc z (2 * (32 * i + j))).toNat + (e.acc z (2 * (32 * i + j) + 1)).toNat * 2 ^ 32
  else (e.acc z (32 * i + j)).toNat

/-- The words of the new accumulators: row i of the left operand, in its K-blocks, with each column of the right operand (R269 to R271). -/
def newZ (e : Eng) (clear : Bool) (cls z : Nat) (rows cols : List (List Side)) : List Nat :=
  (List.range 32).flatMap (fun i =>
    (List.range 32).flatMap (fun j =>
      let v := ((rows.getD i []).zip (cols.getD j [])).foldl (fun z ab => updateElem cls z ab.1 ab.2) (zOld e clear cls z i j)
      if cls = 4 then [v % 2 ^ 32, v / 2 ^ 32] else [v]))

/-- A product: the left and right sides in their K-blocks, then the accumulator, then the rings (R270, R271). -/
def State.product (s : State) (t : Nat) (c : Cmd) (z a b : Nat) (clear sparse : Bool) : Except (Nat × Nat) State :=
  let e := s.eng t; let ra := e.ring a; let rb := e.ring b
  let offA := ra.tile 0
  let v := s.asSeen t c
  let tilesB := if sparse then [rb.tile 0, rb.tile 1] else [rb.tile 0]
  match lowestOf ((v.tilePoison t ra offA).toList ++ tilesB.filterMap (fun o => v.tilePoison t rb o)) with
  | some p => .error (poisonCause p.2, p.1)
  | none =>
    if sparse && !v.metaOk t ra offA then .error (0x16, 0)
    else
      let rows := (List.range 32).map (fun i =>
        if sparse then [v.sparseSide t c ra offA i 0, v.sparseSide t c ra offA i 1] else [v.denseSide t c ra offA i])
      let cols := (List.range 32).map (fun j => tilesB.map (fun o => v.denseSide t c rb o j))
      .ok (s.updEng t (fun e =>
        let e := e.setZ (1024 * z) (newZ e clear (fmtClass ra.fmt) z rows cols)
        (e.setRing a (ra.pop 1)).setRing b (rb.pop tilesB.length)))

/-- Cycles of a product by format on each generation (R276). -/
def productCy (vega : Bool) (code : Nat) : Nat :=
  if vega then [0, 0, 0, 64, 64, 0, 128, 128, 512, 2048].getD code 0
  else [16, 32, 32, 32, 32, 16, 128, 128, 0, 0].getD code 0

/-- The product is recomputed by the idle half: its rate is at most half the fastest, or mirroring is forced (R275). -/
def State.mirrored (s : State) (t a b : Nat) : Bool :=
  let e := s.eng t; let v := s.onVega t
  let cy := max (productCy v (e.ring a).fmt) (productCy v (e.ring b).fmt)
  e.ezchk || decide ((if v then 128 else 32) ≤ cy)

/-- A product and its mirror check; whether the two halves differ is free (R275, log 22). -/
def State.checkedProduct (s : State) (t : Nat) (c : Cmd) (z a b : Nat) (clear sparse : Bool) : State × Except (Nat × Nat) State :=
  match s.product t c z a b clear sparse with
  | .error f => (s, .error f)
  | .ok s' =>
    if s.mirrored t a b then
      (s.draw, if Config.freeBool s.free then .error (0x0C, 0) else .ok s'.draw)
    else (s, .ok s')

/-! ### Effects at completion (R235, R267, R270, R271, R273 to R275) -/

/-- Words that EZZST writes (R273). -/
def zWords (mode : Nat) : Nat := if mode = 0 then 512 else 256

/-- Word `k` of an EZZST: of the accumulator, raw or rounded (R273). -/
def Eng.zWord (e : Eng) (z mode k : Nat) : Nat :=
  if mode = 0 then (e.acc z (2 * k)).toNat + (e.acc z (2 * k + 1)).toNat * 2 ^ 32
  else
    let f := if mode = 1 then fBf16 else fF16
    let h : Nat → Nat := fun i => f.round (fF32.decode (e.acc z i).toNat)
    h (4 * k) + h (4 * k + 1) * 2 ^ 16 + h (4 * k + 2) * 2 ^ 32 + h (4 * k + 3) * 2 ^ 48

/-- Word `k` of an EZZST lands (R64, R273). -/
def State.landZ (s : State) (t z off mode k : Nat) : State := s.landColumn t (off + 8 * k) 8 ((s.eng t).zWord z mode k)

/-- EZZST: the words that have not landed yet land (R64, R273). -/
def State.storeZ (s : State) (t z off mode : Nat) (landed : List Nat) : State :=
  ((List.range (zWords mode)).filter (fun k => !landed.contains k)).foldl (fun s k => s.landZ t z off mode k) s

/-- A command that reads tiles or words of the column. -/
def CmdOp.readsTiles : CmdOp → Bool
  | .ezmm .. => true
  | .ezmms .. => true
  | .ezzld .. => true
  | _ => false



/-- The effect of an easel command, or the late fault it ends in. -/
def State.easelEffect (s : State) (t : Nat) (c : Cmd) : State × Except (Nat × Nat) State :=
  let ok : State → State × Except (Nat × Nat) State := fun s' => (s, .ok s')
  match c.op with
  | .copy _ => ok s
  | .tload _ => ok s
  | .ezring k base cap =>
    ok (s.updEng t (fun e => e.setRing k { e.ring k with base := base, cap := cap, head := 0, count := 0 }))
  | .ezfmt k code pal sparse =>
    ok (s.updEng t (fun e => e.setRing k { e.ring k with fmt := code, pal := pal, sparse := sparse, head := 0, count := 0 }))
  | .ezpush k n => ok (s.updEng t (fun e => e.setRing k { e.ring k with count := (e.ring k).count + n }))
  | .ezpop k n => ok (s.updEng t (fun e => e.setRing k ((e.ring k).pop n)))
  | .ezmm z a b clear => s.checkedProduct t c z a b clear false
  | .ezmms z a b clear => s.checkedProduct t c z a b clear true
  | .ezzld z off =>
    let v := s.asSeen t c
    match v.colPoison t [] off 4096 with
    | some p => (s, .error (poisonCause p.2, p.1))
    | none =>
      ok (s.updEng t (fun e => e.setZ (1024 * z) ((List.range 1024).map (fun i => v.read (v.colKey t (off + 4 * i)) 4))))
  | .ezzst z off mode => ok (s.storeZ t z off mode c.landed)
  | .ezzclr z => ok (s.updEng t (fun e => e.setZ (1024 * z) (List.replicate 1024 0)))
  | .ezwf => ok (s.updEng t (fun e => { e with rings := e.rings.map (fun r => { r with gen := r.gen + 1 }) }))
  | .ezchk on => ok (s.updEng t (fun e => { e with ezchk := on }))
  | .pload n ord img =>
    ok (s.updArch t (fun a => a.keepLag.updEng (fun e =>
      if n = 2 then { e with pal2 := .image ord img } else { e with pal3 := .image ord img })))

/-! ### Faults found at begin (R247, R267, R269, R270, R273) -/

/-- 0x16 for a ring that passes the end of program data. -/
def ringBound (base cap stride : Nat) : Option (Nat × Nat) := if Config.undoBase < base + cap * stride then malformed else none

/-- The pairing of R269 and the accumulator of a binary64 product. -/
def pairingOk (ra rb : Ring) (sparse : Bool) (z : Nat) : Bool :=
  decide (fmtClass ra.fmt = fmtClass rb.fmt) && !rb.sparse && (ra.sparse == sparse) &&
    (decide (fmtClass ra.fmt ≠ 4) || decide (z % 2 = 0))

/-- The lowest offset of a tile that may not be read. -/
def Arch.tileDenied (a : Arch) (r : Ring) (n : Nat) : Option Nat :=
  (List.range n).foldl (fun acc i => least acc (deniedAt a.ctl.d.lpa .rd (r.tile i) r.stride)) none

/-- Faults of a product at begin: 0x16, then 0x17, then 0x04. -/
def Arch.productFault (x : Arch) (z a b : Nat) (sparse : Bool) : Option (Nat × Nat) :=
  let ra := x.eng.ring a; let rb := x.eng.ring b; let nb := if sparse then 2 else 1
  if !pairingOk ra rb sparse z then malformed
  else if ra.count < 1 ∨ rb.count < nb then some (0x17, 0)
  else (least (x.tileDenied ra 1) (x.tileDenied rb nb)).map (fun o => (0x04, o))

/-- The fault of an easel command at begin, if any. -/
def Arch.easelFault (x : Arch) (op : CmdOp) : Option (Nat × Nat) :=
  match op with
  | .copy _ => none
  | .tload _ => none
  | .ezring k base cap => ringBound base cap (x.eng.ring k).stride
  | .ezfmt k code _ sparse => ringBound (x.eng.ring k).base (x.eng.ring k).cap (fmtStride code sparse)
  | .ezpush k n => if (x.eng.ring k).cap < (x.eng.ring k).count + n then malformed else none
  | .ezpop k n => if (x.eng.ring k).count < n then some (0x17, 0) else none
  | .ezmm z a b _ => x.productFault z a b false
  | .ezmms z a b _ => x.productFault z a b true
  | .ezzld _ off => (deniedAt x.ctl.d.lpa .rd off 4096).map (fun o => (0x04, o))
  | .ezzst _ off mode => (deniedAt x.ctl.d.lpa .wr off (if mode = 0 then 4096 else 2048)).map (fun o => (0x04, o))
  | .ezzclr _ => none
  | .ezwf => none
  | .ezchk _ => none
  | .pload .. => none

/-- The letters of a command by the formats in force as it begins (R357). -/
def Eng.letters (e : Eng) (op : CmdOp) : List Letter :=
  match op with
  | .ezfmt _ code _ sparse => [fmtLetter code sparse]
  | .ezmm _ a b _ => [fmtLetter (e.ring a).fmt (e.ring a).sparse, fmtLetter (e.ring b).fmt (e.ring b).sparse]
  | .ezmms _ a b _ => [.f, fmtLetter (e.ring a).fmt (e.ring a).sparse, fmtLetter (e.ring b).fmt (e.ring b).sparse]
  | _ => []

/-- The generation a command lacks on the core of task `t`. -/
def State.lacksAny (s : State) (t : Nat) (l : List Letter) : Option Bool :=
  l.findSome? (fun x => match x with
    | .fv => none
    | .f => if s.onVega t then some false else none
    | .v => if s.onVega t then none else some true)

/-! ### The heads (R243, R263, R266 to R275) -/

/-- An easel head whose letters come from ring formats (R243, R263). -/
def easelHead (g : Guard) (l : State → List Letter) (k : State → State) (s : State) : Host.Outcome State Fault Refusal :=
  guarded g (fun s => match s.lacksAny s.fTask (l s) with | some v => s.migrate v | none => k s) s

/-- The letter of a ring's accepted format (R263). -/
def State.accLetter (s : State) (k : Reg) : Letter :=
  let r := (s.eng s.fTask).ring k.toNat
  fmtLetter r.accFmt r.accSparse

/-- EZMM (R268, R270). -/
def execEzmm (clear : Bool) (d a b : Reg) (y : Sync) (g : Guard) (s : State) : Host.Outcome State Fault Refusal :=
  easelHead g (fun s => [s.accLetter a, s.accLetter b])
    (fun s => s.accept 0x60 4 y (fun _ => (.ezmm d.toNat a.toNat b.toNat clear, none))) s

/-- EZMMS (R268, R271). -/
def execEzmms (clear : Bool) (d a b : Reg) (y : Sync) (g : Guard) (s : State) : Host.Outcome State Fault Refusal :=
  easelHead g (fun s => [.f, s.accLetter a, s.accLetter b])
    (fun s => s.accept 0x61 4 y (fun _ => (.ezmms d.toNat a.toNat b.toNat clear, none))) s

/-- EZRING (R266, R267). -/
def execEzring (d a : Reg) (y : Sync) (g : Guard) (s : State) : Host.Outcome State Fault Refusal :=
  guarded g (fun s => s.accept 0x62 4 y (fun s =>
    let v := (s.cur.getM a).toNat
    (.ezring d.toNat (bits v 21 0) (bits v 41 32 + 1),
      if bits v 5 0 ≠ 0 ∨ bits v 31 22 ≠ 0 ∨ bits v 63 42 ≠ 0 then malformed else none))) s

/-- The format accepted last for a ring (R263). -/
def State.noteFmt (s : State) (k code : Nat) (sparse : Bool) : State :=
  s.updEng s.fTask (fun e => e.setRing k { e.ring k with accFmt := code, accSparse := sparse })

/-- EZFMT (R264, R266, R267). -/
def execEzfmt (d : Reg) (code : BitVec 4) (pal : BitVec 2) (sparse : Bool) (y : Option Reg) (g : Guard) (s : State) :
    Host.Outcome State Fault Refusal :=
  head g (fmtLetter code.toNat sparse) (fun s =>
    let s' := if (s.eng s.fTask).full then s else s.noteFmt d.toNat code.toNat sparse
    s'.accept 0x65 4 (.field y) (fun _ => (.ezfmt d.toNat code.toNat pal.toNat sparse, none))) s

/-- EZPUSH (R266, R267). -/
def execEzpush (d : Reg) (n : BitVec 11) (y : Option Reg) (g : Guard) (s : State) : Host.Outcome State Fault Refusal :=
  guarded g (fun s => s.accept 0x63 4 (.field y) (fun _ => (.ezpush d.toNat n.toNat, none))) s

/-- EZPOP (R266, R267). -/
def execEzpop (d : Reg) (n : BitVec 11) (y : Option Reg) (g : Guard) (s : State) : Host.Outcome State Fault Refusal :=
  guarded g (fun s => s.accept 0x64 4 (.field y) (fun _ => (.ezpop d.toNat n.toNat, none))) s

/-- The value of EZQRY (R267). -/
def Ring.query (r : Ring) : Nat :=
  r.head % 2 ^ 10 + r.count % 2 ^ 11 * 2 ^ 10 + r.fmt % 16 * 2 ^ 21 + r.pal % 4 * 2 ^ 25 + b01 r.sparse * 2 ^ 27

/-- EZQRY (R267). -/
def execEzqry (d : Reg) (k : BitVec 3) (g : Guard) (s : State) : Host.Outcome State Fault Refusal :=
  guarded g (fun s => s.retire (fun x => x.setM d (BitVec.ofNat 64 ((s.eng s.fTask).ring k.toNat).query))) s

/-- An accumulator address: own column, aligned to 64, `n` bytes of program data (R273). -/
def State.accAddr (s : State) (a : Reg) (n : Nat) : Option Nat :=
  match ownOffset s.me.coord (s.cur.getM a).toNat with
  | none => none
  | some off => if off % 64 ≠ 0 ∨ Config.undoBase < off + n then none else some off

/-- EZZLD (R273). -/
def execEzzld (d a : Reg) (y : Sync) (g : Guard) (s : State) : Host.Outcome State Fault Refusal :=
  guarded g (fun s => s.accept 0x66 4 y (fun s =>
    match s.accAddr a 4096 with
    | some off => (.ezzld d.toNat off, none)
    | none => (.ezzld d.toNat 0, malformed))) s

def zstCode : ZstMode → Nat
  | .raw => 0
  | .bf16 => 1
  | .fp16 => 2

/-- EZZST (R273). -/
def execEzzst (d a : Reg) (mode : ZstMode) (y : Sync) (g : Guard) (s : State) : Host.Outcome State Fault Refusal :=
  guarded g (fun s => s.accept 0x67 4 y (fun s =>
    match s.accAddr a (if mode = .raw then 4096 else 2048) with
    | some off => (.ezzst d.toNat off (zstCode mode), none)
    | none => (.ezzst d.toNat 0 (zstCode mode), malformed))) s

/-- EZZCLR (R273). -/
def execEzzclr (d : Reg) (y : Sync) (g : Guard) (s : State) : Host.Outcome State Fault Refusal :=
  guarded g (fun s => s.accept 0x68 4 y (fun _ => (.ezzclr d.toNat, none))) s

/-- EZWF (R274). -/
def execEzwf (y : Sync) (g : Guard) (s : State) : Host.Outcome State Fault Refusal :=
  guarded g (fun s => s.accept 0x69 4 y (fun _ => (.ezwf, none))) s

/-- EZCHK (R275). -/
def execEzchk (on : Bool) (y : Sync) (g : Guard) (s : State) : Host.Outcome State Fault Refusal :=
  guarded g (fun s => s.accept 0x6A 4 y (fun _ => (.ezchk on, none))) s

end Sys2Proof.Machine
end

