-- ==== Sys2Proof/Machine/Commands.lean ====
section
/-! DEFINITION. Engine commands in progress: check phases, words of copies, completion, leases (R246, R247, R255, R258, R376, R397 to R399). -/
namespace Sys2Proof.Machine

/-- Stores of the issuing slot older than the command land before it acts (R72). -/
def State.flushBefore (s : State) (t i serial : Nat) : State :=
  let sb := (s.slot t i).sb
  (s.landAll t (sb.filter (fun e => decide (e.serial < serial)))).updSlot t i
    (fun x => { x with sb := x.sb.filter (fun e => decide (serial ≤ e.serial)) })

/-- The command has begun, with the NX and the palettes in force; one that a save or a move put back keeps those it began with, so that both ways of R272 give the same values (R103, R106, R115). -/
def State.setBegun (s : State) (t uid : Nat) : State :=
  s.updEng t (fun e => e.updCmd uid (fun c =>
    if c.again then { c with st := .begun, begunAt := s.now }
    else { c with st := .begun, nx := e.nx, pal2 := e.pal2, pal3 := e.pal3, begunAt := s.now }))

/-! ### The check phase of a copy (R255) -/

/-- The rows of an end cut at page boundaries: first byte and length of each piece. -/
def pieces (off rowb rows : Nat) (stride : Int) : List (Nat × Nat) :=
  if rowb = 0 then []
  else (List.range rows).flatMap (fun r =>
    let a := (rowAt off stride r).toNat
    (List.range ((a + rowb - 1) / 65536 - a / 65536 + 1)).map (fun i =>
      let p := (a / 65536 + i) * 65536
      (max a p, min (a + rowb) (p + 65536) - max a p)))

def CopyD.dPieces (d : CopyD) : List (Nat × Nat) := pieces d.dst d.rowb d.rows d.dstr
def CopyD.sPieces (d : CopyD) : List (Nat × Nat) := pieces d.src d.rowb d.rows d.sstr

/-- Pages of a level end that fail R395, with the address of the piece. -/
def State.badPages (s : State) (t : Nat) (e : CEnd) (need : Perm) (l : List (Nat × Nat)) : List (Nat × Miss) :=
  match e with
  | .level scope => l.filterMap (fun p => match s.taskTranslate t scope need p.1 with | .error m => some (p.1, m) | .ok _ => none)
  | _ => []

/-- The entry with the lowest address. -/
def lowest {α : Type} (l : List (Nat × α)) : Option (Nat × α) :=
  l.foldl (fun acc x => match acc with | none => some x | some y => if x.1 < y.1 then some x else acc) none

/-- The task whose column an end names, if it is there. -/
def State.endTask (s : State) (t : Nat) : CEnd → Option Nat
  | .own => some t
  | .col c => s.peerAt t c
  | .level _ => some t

/-- The lowest offset of a column end that R57 denies in the core that performs the access. -/
def State.endDenied (s : State) (t : Nat) (e : CEnd) (need : Need) (l : List (Nat × Nat)) : Option Nat :=
  match e with
  | .level _ => none
  | _ =>
    match s.endTask t e with
    | none => none
    | some u => l.foldl (fun acc p => least acc (firstDenied (s.ctl u).d.lpa false need p.1 p.2)) none

/-- The pages a copy holds (R397). -/
def State.takeLeases (s : State) (t : Nat) (e : CEnd) (write : Bool) (l : List (Nat × Nat)) : List PageLease :=
  match e with
  | .level scope =>
    l.foldl (fun acc p =>
      if acc.any (fun x => decide (x.vpage = p.1 / 65536)) then acc
      else
        match s.taskTranslate t scope (if write then .w else .r) p.1 with
        | .error _ => acc
        | .ok q => acc ++ [⟨p.1 / 65536, write, q.key - p.1 % 65536, q.tier, q.eph, s.grantedAt (s.task t).ctx p.1 + Config.leaseLen⟩]) []
  | _ => []

/-- The entries of some leases are held by the translators that served them, and their use is gathered (R397, R401). -/
def State.useLeases (s : State) (t : Nat) (l : List PageLease) : State :=
  l.foldl (fun (s : State) p => (s.keepLease (s.task t).ctx (p.vpage * 65536)).gather (s.task t).ctx (p.vpage * 65536) false (s.kerKey t)) s

/-- A word moved at an end of level memory is gathered: a read or a write of its page (R401). -/
def State.gatherEnd (s : State) (t : Nat) (e : CEnd) (write : Bool) (a : Nat) : State :=
  match e with
  | .level _ => s.gather (s.task t).ctx a write (s.kerKey t)
  | _ => s

/-- The lease that serves an address of an end. -/
def leaseFor (l : List PageLease) (write : Bool) (va : Nat) : Option PageLease :=
  l.find? (fun x => (x.write == write) && decide (x.vpage = va / 65536))

/-- Lines of a level end enter the range tables (R384). -/
def State.enterPieces (s : State) (g : Nat) (leases : List PageLease) (write : Bool) (l : List (Nat × Nat)) : State :=
  l.foldl (fun s p =>
    match leaseFor leases write p.1 with
    | some x => s.enterRange g write (x.key + p.1 % 65536) p.2
    | none => s) s

/-- The path of a copy once its pages are known (R82). -/
def pathOf (leases : List PageLease) : Option Nat :=
  let w := leases.filter (fun l => l.write)
  if w.isEmpty then none
  else if w.all (fun l => decide (l.tier = 0)) then some 3
  else if w.all (fun l => decide (l.tier = 1)) then some 4 else none

/-- The instance that counts a copy, and whether as next superstep: one that had begun before its core's arrival holds the arrival back until it is counted (R74, R375, R376). -/
def State.countedBy (s : State) (t uid : Nat) (d : CopyD) : Option (Nat × Bool) :=
  let l := d.level (s.task t).coord; let b := (s.arch t).bar
  let before := match b.pendOf l with | some p => p.same.contains uid | none => false
  if l = 0 then none else some (s.myInst t l, (b.membOf l).arr && !before)

/-- The addition keeps the counter below 2^48 (R376). -/
def State.counterFits (s : State) (c : Option (Nat × Bool)) (n : Nat) : Bool :=
  match c with
  | none => true
  | some (k, later) =>
    match SMap.find s.insts k with
    | none => true
    | some i => decide ((if later then i.next else i.pend) + n < (2 ^ 48 : Nat))

/-- The home module of a pod page that another module holds, from the pod directory (R410). -/
def State.remoteHome (s : State) (k : Nat) : Nat := match SMap.find s.pg.pod (podPageOf k) with | some p => p.home | none => 0

/-- A copy that writes pages of other modules asks for them (R411). -/
def State.askPages (s : State) (ch : Nat) (l : List PageLease) : State :=
  l.foldl (fun (s : State) x =>
    if x.write && s.isRemote x.key then s.podSay (s.remoteHome x.key) ch (.ask (podPageOf x.key)) else s) s

/-- What ELFVAL receives for a page that fails: its address, and 0 for a damaged entry of a table (R247). -/
def Miss.val (m : Miss) (va : Nat) : Nat := if m = .poison then 0 else va

/-- A copy whose check phase has passed (R255, R376, R384, R397, R401). -/
def State.copyBegun (s : State) (t : Nat) (c : Cmd) (d : CopyD) (counted : Option (Nat × Bool)) : State :=
  let leases := s.takeLeases t d.dEnd true d.dPieces ++ s.takeLeases t d.sEnd false d.sPieces
  let s := (s.useLeases t leases).askPages (s.ctxCh (s.task t).ctx) leases
  let g := (s.task t).group
  let s := s.enterPieces g leases false d.sPieces
  let s := s.enterPieces g leases true d.dPieces
  let s := if c.again then s else s.pendAdd counted (8 * d.words : Nat)
  (s.updEng t (fun e => e.updCmd c.uid (fun c =>
    { c with leases := leases, path := pathOf leases, counted := counted, again := false, landed := [], sent := [] }))).setBegun t c.uid

/-- The check phase of a copy: R395 by the lowest address, the tasks of the column ends, R57 by the lowest offset, and the room in the counter; DESIGN CHOICE, log 125: an end without a task comes before R57 of the other end (R255). -/
def State.beginCopy (s : State) (t : Nat) (c : Cmd) (d : CopyD) : State :=
  let dp := d.dPieces; let sp := d.sPieces
  match lowest (s.badPages t d.dEnd .w dp ++ s.badPages t d.sEnd .r sp) with
  | some (va, .absent) => s.upcall t c.uid va
  | some (va, m) => s.lateFault t c.uid m.cause (m.val va)
  | none =>
    let gone := (if (s.endTask t d.dEnd).isNone then [(hull d.dst d.rowb d.rows d.dstr).1.toNat] else []) ++
      (if (s.endTask t d.sEnd).isNone then [(hull d.src d.rowb d.rows d.sstr).1.toNat] else [])
    match gone.min? with
    | some o => s.lateFault t c.uid 0x0E o
    | none =>
      match least (s.endDenied t d.dEnd .wr dp) (s.endDenied t d.sEnd .rd sp) with
      | some o => s.lateFault t c.uid 0x04 o
      | none =>
        let counted := if c.again then c.counted else s.countedBy t c.uid d
        if c.again || s.counterFits counted (8 * d.words) then s.copyBegun t c d counted else s

/-- The check phase of a TLOAD, and the start of its staging, which a gateway that cannot be reached answers with 0x15; it holds the entries of its pages (R257, R258, R397, R407, R425). -/
def State.beginTload (s : State) (t : Nat) (c : Cmd) (d : TloadD) : State :=
  let ctx := (s.task t).ctx
  match s.rangeFrames ctx 3 .r d.range (d.bytes / 65536) with
  | .error (.absent, va) => s.upcall t c.uid va
  | .error (m, va) => s.lateFault t c.uid m.cause (m.val va)
  | .ok frames =>
    if frames.any (fun f => !s.memReachable (s.task t).phys.d (f * 65536)) then s.lateFault t c.uid 0x15 0
    else
    let leases := s.takeLeases t (.level 3) false ((List.range (d.bytes / 65536)).map (fun i => (d.range + 65536 * i, 65536)))
    let s := (s.useLeases t leases).updEng t (fun e => e.updCmd c.uid (fun c => { c with leases := leases }))
    let s := frames.foldl (fun s f => s.needPage (f, ctx, .tload t c.uid)) (s.setBegun t c.uid)
    s.tloadTry t c.uid

/-- An easel command begins: its generation, then the faults found at begin (R247, R357). -/
def State.beginEasel (s : State) (t : Nat) (c : Cmd) : State :=
  match s.lacksAny t ((s.eng t).letters c.op) with
  | some v => (s.updTask t (fun k => { k with ezSince := if k.ezSince.isSome then k.ezSince else some s.now })).landingRequest t v
  | none =>
    match (s.arch t).easelFault c.op with
    | some f => s.lateFault t c.uid f.1 f.2
    | none => s.setBegun t c.uid

/-- A copy that a FENCE.CORE orders before this one is outstanding (R66, R70, log 105). -/
def Eng.fenceHolds (e : Eng) (c : Cmd) : Bool :=
  (match c.op with | .copy _ => true | _ => false) && e.cmds.any (fun b => b.out && c.fence.contains b.uid)

/-- The wait of a command and its windows hold together, or have held together at one instant (R246). -/
def Arch.mayBegin (a : Arch) (me : Coord) (c : Cmd) : Bool :=
  c.again || ((c.met || (a.eng.semHolds c && a.windowsOpen me c)) && !a.eng.fenceHolds c)

/-- The command at the head of queue `q` of task `t`, ready to begin or to raise its recorded fault (R152, R246). -/
def State.headCmd (s : State) (t q : Nat) : Option Cmd :=
  let k := s.task t
  match (k.arch.eng.queue q).head? with
  | none => none
  | some c =>
    if c.st = .accepted ∧ k.st = .running ∧ !k.halted ∧ !k.arch.ctl.d.elV ∧ !k.arch.eng.parkedQ q then some c else none

/-- The copy has lost a word to a failed link or a fenced die: late fault 0x15, and the instance whose counter counts its bytes is aborted; bytes kept for the next superstep are in no counter yet (R376, R379, R425). -/
def State.copyLost (s : State) (t uid : Nat) : State :=
  match (s.eng t).find uid with
  | none => s
  | some c =>
    if !c.out then s
    else
      let s := s.lateFault t uid 0x15 0
      match c.counted with
      | some (k, false) => s.abortHere k 0x8001
      | _ => s

/-- What an end gives for one word. -/
inductive Spot
  /-- The word cannot move now. -/
  | held
  /-- The task of the coordinate has ended. -/
  | ended
  | col (u off : Nat)
  | mem (p : Place)
  deriving DecidableEq, Repr

/-- Where one word of an end lies; a page of another module is reached through an ACTIVE port (R410, R417). -/
def State.spot (s : State) (t : Nat) (c : Cmd) (e : CEnd) (write : Bool) (a : Nat) : Spot :=
  match e with
  | .own => .col t a
  | .col k =>
    match s.peerAt t k with
    | none => .ended
    | some u => if (s.task u).onCore then .col u a else .held
  | .level _ =>
    match leaseFor c.leases write a with
    | none => .held
    | some l =>
      let k := l.key + a % 65536
      if l.expiry ≤ s.now then .held
      else if write && s.writeHeld k then .held
      else if s.isRemote k && (s.podPort (s.remoteHome k) (s.ctxCh (s.task t).ctx)).isNone then .held
      else .mem ⟨k, l.tier, l.eph⟩

/-- The point at which the memory of a location is reached: its die or its gateway, and for a page of another module the gateway of the port that serves it on the context channel `ch` (R13, R23, R410, R417, log 117). -/
def State.memPoint (s : State) (ch k : Nat) : Phys :=
  if 2 ^ 54 ≤ k ∧ k < 2 ^ 55 then
    let u := (k - 2 ^ 54) / 2 ^ 27; let w := Config.width (u / 16) / 16
    ⟨u / 16, u % 16 / w * 8, u % 16 % w * 17⟩
  else if 2 ^ 55 ≤ k ∧ k < 2 ^ 56 then ⟨(k - 2 ^ 55) / 2 ^ 31, 0, 0⟩
  else if k < lpddrEnd then gatePoint (gatewayOf k)
  else if s.isRemote k then gatePoint (match s.podPort (s.remoteHome k) ch with | some n => portGateway n | none => 0)
  else gatePoint 0

/-- The point at which a word's place is reached. -/
def State.spotPoint (s : State) (t : Nat) : Spot → Phys
  | .col u _ => (s.task u).phys
  | .mem p => s.memPoint (s.ctxCh (s.task t).ctx) p.key
  | _ => (s.task t).phys

/-- A word's place is on the die of the copying core: no link lies between. -/
def State.near (s : State) (t : Nat) (x : Spot) : Bool := decide ((s.spotPoint t x).d = (s.task t).phys.d)

/-- The word is read, or has been read ahead of the message after which the copy was issued (R67, R93, R255). -/
def State.readSpot (s : State) (c : Cmd) : Spot → State × Word × Poison
  | .col u off => (s, BitVec.ofNat 64 (s.read (s.colKey u off) 8), s.poisonOf (s.colKey u off))
  | .mem p =>
    match SMap.find c.seen p.key with
    | some w => if p.eph then s.placeWord p else (s, w)
    | none => s.placeWord p
  | _ => (s, 0, .none)

/-- The word has been read ahead, so that no request is sent for it (R93). -/
def Cmd.hasSeen (c : Cmd) : Spot → Bool
  | .mem p => (SMap.find c.seen p.key).isSome
  | _ => false

/-- The word lands; one for a page of another module goes there on the context channel `ch` (R65, R255, R410). -/
def State.landSpot (s : State) (ch : Nat) (w : Word × Poison) : Spot → State
  | .col u off => s.landWord u off w.1 w.2
  | .mem p =>
    if s.isRemote p.key then s.podSay (s.remoteHome p.key) ch (.write (podPageOf p.key) (p.key % 65536) w.1 w.2)
    else s.writeWord p.key p.eph w.1 w.2
  | _ => s

/-- Addresses of word `idx` of a copy at its ends. -/
def CopyD.dAddr (d : CopyD) (idx : Nat) : Nat := (rowAt d.dst d.dstr (idx / (d.rowb / 8))).toNat + 8 * (idx % (d.rowb / 8))
def CopyD.sAddr (d : CopyD) (idx : Nat) : Nat := (rowAt d.src d.sstr (idx / (d.rowb / 8))).toNat + 8 * (idx % (d.rowb / 8))

/-- The lowest offset of an end among the words that have not landed: those that come back from a coordinate whose task has ended (R247, R255). -/
def Cmd.returned (c : Cmd) (d : CopyD) (write : Bool) : Nat :=
  (((List.range d.words).filter (fun i => !c.landed.contains i)).map (fun i => if write then d.dAddr i else d.sAddr i)).min?.getD 0

/-- Word `idx` of a copy has a packet on the way. -/
def State.noteSent (s : State) (t uid idx : Nat) : State :=
  s.updEng t (fun e => e.updCmd uid (fun c => { c with sent := if c.sent.contains idx then c.sent else idx :: c.sent }))

/-- A packet of word `idx` leaves the copying core on the data class, for the place of one of its ends; a column is found through the core table (R22, R23, R53, R418). -/
def State.sendWord (s : State) (t uid idx : Nat) (k : WordKind) (x : Spot) : State :=
  let me := s.task t
  let p (dst : Coord) : Packet := Packet.new me.coord dst 16 me.ctx me.group (.word (.copy t uid) idx k)
  (match x with
   | .col u _ => s.sendFrom me.phys (p (s.task u).coord)
   | _ => s.sendTo me.phys (s.spotPoint t x) (p (s.spotPoint t x).asEnd)).noteSent t uid idx

/-- An answer to packet `p` goes back on the reply class to the copying core (R22, R418). -/
def State.sendReply (s : State) (t : Nat) (p : Packet) (b : Body) : State :=
  let me := s.task t
  s.sendTo (s.answerPoint p) me.phys (Packet.new p.dst me.coord 19 me.ctx me.group b)

/-- A word is acknowledged by its target memory (R65, R376). -/
def State.wordDone (s : State) (t : Nat) (c : Cmd) (idx : Nat) : State :=
  (s.pendAdd c.counted (-8)).updEng t (fun e => e.updCmd c.uid (fun c => { c with landed := idx :: c.landed, sent := c.sent.filter (· ≠ idx) }))

/-- A word lands at its place (R65, R255, R401). -/
def State.landAt (s : State) (t : Nat) (d : CopyD) (idx : Nat) (w : Word × Poison) (x : Spot) : State :=
  (s.landSpot (s.ctxCh (s.task t).ctx) w x).gatherEnd t d.dEnd true (d.dAddr idx)

/-- The engine has a word: it lands on the die of its core, or goes out to its destination. -/
def State.wordOut (s : State) (t : Nat) (c : Cmd) (d : CopyD) (idx : Nat) (w : Word × Poison) (x : Spot) : State :=
  if s.near t x then (s.landAt t d idx w x).wordDone t c idx else s.sendWord t c.uid idx (.write w.1 w.2) x

/-- A word that has not been asked for: it is read on the die of the copying core, or asked for at its source (R64, R255). -/
def State.startWord (s : State) (t : Nat) (c : Cmd) (d : CopyD) (idx : Nat) : State :=
  match s.spot t c d.dEnd true (d.dAddr idx), s.spot t c d.sEnd false (d.sAddr idx) with
  | .held, _ => s
  | _, .held => s
  | .ended, _ => s.lateFault t c.uid 0x0E (c.returned d true)
  | _, .ended => s.lateFault t c.uid 0x0E (c.returned d false)
  | x, y =>
    if s.near t y || c.hasSeen y then
      let r := s.readSpot c y
      (r.1.gatherEnd t d.sEnd false (d.sAddr idx)).wordOut t c d idx r.2 x
    else s.sendWord t c.uid idx .read y

/-- Packet `n` of a word, at the end of its path: a request is served and answered, with 0x0E where the task of its coordinate has ended; a read return goes on to the destination; an acknowledgement ends the word. A request that found no route is answered with 0x15, and an answer that found none ends the copy (R65, R255, R404, R422, R425, R445). -/
def State.wordArrives (s : State) (t : Nat) (c : Cmd) (d : CopyD) (idx n : Nat) (p : Packet) (k : WordKind) : State :=
  let s' := s.takePacket n; let err (cause : Nat) : State := s'.sendReply t p (.copyErr c.uid cause (s.task t).kh (s.task t).gidx)
  match k with
  | .read =>
    if s.unserved p then err 0x15
    else
      match s.spot t c d.sEnd false (d.sAddr idx) with
      | .held => s
      | .ended => err 0x0E
      | y =>
        let r := s'.readSpot c y
        (r.1.gatherEnd t d.sEnd false (d.sAddr idx)).sendReply t p (.word (.copy t c.uid) idx (.data r.2.1 r.2.2))
  | .data w q =>
    if p.lost then s'.copyLost t c.uid
    else
      match s.spot t c d.dEnd true (d.dAddr idx) with
      | .held => s
      | .ended => s'.lateFault t c.uid 0x0E (c.returned d true)
      | x => s'.wordOut t c d idx (w, q) x
  | .write w q =>
    if s.unserved p then err 0x15
    else
      match s.spot t c d.dEnd true (d.dAddr idx) with
      | .held => (match d.dEnd with | .level _ => s.holdPacket n | _ => s)
      | .ended => err 0x0E
      | x => (s'.landAt t d idx (w, q) x).sendReply t p (.word (.copy t c.uid) idx .ack)
  | .ack => if p.lost then s'.copyLost t c.uid else s'.wordDone t c idx

/-- One step of one word of a begun copy: a packet of it that has come to the end of its path is taken up; a word without a packet begins (R64, R255). -/
def State.moveWord (s : State) (t : Nat) (c : Cmd) (d : CopyD) (idx : Nat) : State :=
  match s.wordPacket (.copy t c.uid) idx with
  | some (n, p, k) => s.wordArrives t c d idx n p k
  | none => if c.sent.contains idx then s else s.startWord t c d idx

/-- A word has come back from a coordinate whose task has ended: the copy faults late at the lowest offset of that end (R247, R255). -/
def State.copyRefused (s : State) (t uid cause : Nat) : State :=
  match (s.eng t).find uid with
  | none => s
  | some c =>
    match c.op with
    | .copy d => s.lateFault t uid cause (c.returned d (s.endTask t d.dEnd).isNone)
    | _ => s

/-- The command has completed and signals (R246, R249). -/
def State.completeCmd (s : State) (t uid : Nat) : State :=
  (s.updEng t (fun e =>
    match e.find uid with
    | none => e
    | some c =>
      let e := e.updCmd uid (fun c => { c with st := .completed, leases := [] })
      if c.sync.sen then e.addSem c.sync.ssem c.sync.sinc else e)).semsMoved t

/-- A begun command completes where it can. -/
def State.tryComplete (s : State) (t : Nat) (c : Cmd) : State :=
  if c.st ≠ .begun then s
  else
    match c.op with
    | .copy d => if d.words ≤ c.landed.length then s.completeCmd t c.uid else s
    | .tload _ => s.tloadTry t c.uid
    | _ =>
      match s.easelEffect t c with
      | (s', .error f) => s'.lateFault t c.uid f.1 f.2
      | (_, .ok s') => s'.completeCmd t c.uid

/-- Word `i` of a copy moves if it has not and can. -/
def State.moveNext (s : State) (t uid : Nat) (d : CopyD) (i : Nat) : State :=
  match (s.eng t).find uid with
  | some c => if c.st = .begun ∧ i ∉ c.landed then s.moveWord t c d i else s
  | none => s

/-- Begun commands of a task run to their end: the words that can move land, in order, and the commands complete (R85, R387). -/
def State.finishBegun (s : State) (t : Nat) : State :=
  (((s.eng t).cmds.filter (fun c => decide (c.st = .begun))).map (·.uid)).foldl (fun s uid =>
    match (s.eng t).find uid with
    | none => s
    | some c =>
      let s := match c.op with
        | .copy d => (List.range d.words).foldl (fun (s : State) i => s.moveNext t uid d i) s
        | _ => s
      match (s.eng t).find uid with
      | some c => s.tryComplete t c
      | none => s) s

/-! ### Leases and deadlines (R258, R397, R399) -/

/-- The lowest address on one page of one end among the words of a copy that have not landed; none where all have (R247, R399). -/
def Cmd.lowestOn (c : Cmd) (l : PageLease) : Option Nat :=
  match c.op with
  | .copy d =>
    (((List.range d.words).filter (fun i => !c.landed.contains i)).map (fun i => if l.write then d.dAddr i else d.sAddr i)).filter
      (fun a => decide (a / 65536 = l.vpage)) |>.min?
  | _ => none
/-- Words of a command on one page of one end have not all landed. -/
def Cmd.pageOpen (c : Cmd) (l : PageLease) : Bool := (c.lowestOn l).isSome

/-- The scope a lease of a copy was taken under. -/
def CopyD.scopeOf (d : CopyD) (write : Bool) : Nat :=
  match (if write then d.dEnd else d.sEnd) with
  | .level k => k
  | _ => 0

end Sys2Proof.Machine
end

