-- ==== Sys2Proof/Machine/Place.lean ====
section
/-! DEFINITION. Silicon: which coordinate a physical core holds, spares, landing places, fenced regions, and the retirement of an empty column (R15, R16, R52, R358, R363, R368). -/
namespace Sys2Proof.Machine

/-- A coordinate from its index in the table of all dies. -/
def Coord.ofIndex (n : Nat) : Coord := ⟨n / 2048, n / 64 % 32, n % 64⟩

/-- The coordinate a physical core holds in the core table. -/
def State.coordOn (s : State) (p : Phys) : Option Coord :=
  match s.cores.table.find? (fun e => decide (e.2.phys = p)) with
  | some e => some (Coord.ofIndex e.1)
  | none =>
    if p.p % 17 = 16 then none
    else
      let c : Coord := ⟨p.d, p.r, p.p / 17 * 16 + p.p % 17⟩
      if (SMap.find s.cores.table c.index).isSome then none else some c

/-- A physical core that a live task runs on, has reserved as its home, or is moving to (R358, R362). -/
def State.occupied (s : State) (p : Phys) : Bool :=
  s.tasks.any (fun e => e.2.live &&
    decide ((e.2.phys = p ∧ e.2.st ≠ .saved) ∨ e.2.landing = some p ∨ (e.2.home = p ∧ e.2.st ≠ .saved)))

/-- A target of dt.lmigr is taken for task `t`: by a task, or reserved by another one; its own vacated home core is not (R173). -/
def State.takenFor (s : State) (t : Nat) (p : Phys) : Bool :=
  s.tasks.any (fun e => e.2.live &&
    decide ((e.2.phys = p ∧ e.2.st ≠ .saved) ∨ e.2.landing = some p ∨ (e.1 ≠ t ∧ e.2.home = p ∧ e.2.st ≠ .saved)))

/-- A spare position that is tested good, unretired and unoccupied (R358). -/
def State.freeSpare (s : State) (p : Phys) : Bool :=
  p.exists && !s.cores.retired.contains p && !s.cores.marked.contains p && (s.coordOn p).isNone && !s.occupied p

/-- Physical cores of a die in ascending region, then position, then row. -/
def diePlaces (d : Nat) : List Phys :=
  (List.range (4 * (Config.physWidth d / 17))).flatMap (fun g =>
    let k := Config.physWidth d / 17
    (List.range 17).flatMap (fun x => (List.range 8).map (fun y => ⟨d, g / k * 8 + y, g % k * 17 + x⟩)))

/-- Free spares of a die in the order of R358. -/
def State.spares (s : State) (d : Nat) : List Phys := (diePlaces d).filter (fun p => s.freeSpare p)

/-- The spare that takes a retired column's coordinate: of the same region, else of the lowest region of the die (R16). -/
def State.retireTarget (s : State) (p : Phys) : Option Phys :=
  match (s.spares p.d).find? (fun q => q.region = p.region) with
  | some q => some q
  | none => (s.spares p.d).head?

/-- Coordinates of a logical tile group (R353). -/
def tileCoords (d g : Nat) : List Coord :=
  let k := Config.width d / 16
  (List.range 128).map (fun t => ⟨d, 8 * (g / k) + t / 16, 16 * (g % k) + t % 16⟩)
/-- Every coordinate of a die, in ascending row, then column. -/
def dieCoords (d : Nat) : List Coord :=
  (List.range 32).flatMap (fun y => (List.range (Config.width d)).map (fun x => ⟨d, y, x⟩))

/-- A visitor runs on a core of region `r` of die `d` (R363). -/
def State.visited (s : State) (d r : Nat) : Bool :=
  s.tasks.any (fun e => e.2.live && e.2.visitor && decide (e.2.st ≠ .saved) && decide (e.2.phys.d = d ∧ e.2.phys.region = r))

/-- A tile group whose coordinates hold no task, saved or running, of any context (R358). -/
def State.tileEmpty (s : State) (d g : Nat) : Bool :=
  !s.tasks.any (fun e => e.2.live && decide (e.2.coord.d = d ∧ e.2.coord.tile = g))

/-- A region is fenced when one of its coordinates has no working core (R16). -/
def State.regionFenced (s : State) (d g : Nat) : Bool :=
  s.cores.table.any (fun e => !e.2.valid && decide ((Coord.ofIndex e.1).d = d ∧ (Coord.ofIndex e.1).tile = g))

/-- Cores of empty tile groups of a die that can take a visitor: regions that host visitors first (R358). -/
def State.tilePlaces (s : State) (d : Nat) : List Phys :=
  let ps := ((List.range (Config.groupsOf d)).filter (fun g => s.tileEmpty d g && !s.regionFenced d g)).flatMap (fun g =>
    (tileCoords d g).map (fun c => (s.entry c).phys))
  let l := (diePlaces d).filter (fun p => ps.contains p && !s.cores.retired.contains p && !s.cores.marked.contains p && !s.occupied p)
  l.filter (fun p => s.visited d p.region) ++ l.filter (fun p => !s.visited d p.region)

/-- Dies of a generation that are not fenced, by crossings from a die, then by number (R358). -/
def State.diesFrom (s : State) (d0 : Nat) (vega : Bool) : List Nat :=
  (List.range 7).flatMap (fun k =>
    (List.range 16).filter (fun d => decide (Config.crossings d0 d = k) && (Config.vegaken d == vega) && !s.fencedDie d))

/-- The landing place a distributor offers (R358). -/
def State.offer (s : State) (d : Nat) : Option Phys :=
  match (s.spares d).head? with
  | some p => some p
  | none => (s.tilePlaces d).head?

/-- The landing place for a task, if any (R358). -/
def State.landingFor (s : State) (t : Nat) (vega : Bool) : Option Phys :=
  (s.diesFrom (s.task t).phys.d vega).findSome? (fun d => s.offer d)

/-! ### Signed records of board flash (R435) -/

/-- The valid copy of the higher generation, with its number. -/
def FlashRec.newest {α : Type} (r : FlashRec α) : Option (Nat × α) :=
  match r.a, r.b with
  | some x, some y => if x.1 < y.1 then some y else some x
  | some x, none => some x
  | none, y => y

/-- The copy that is being written is complete. -/
def FlashRec.landed {α : Type} (r : FlashRec α) : FlashRec α :=
  match r.next with
  | none => r
  | some x => if r.a.isNone then ⟨some x, r.b, none⟩ else ⟨r.a, some x, none⟩

/-- A rewrite replaces the copy that is not in force, one generation higher; until it is complete that copy does not verify (R435). -/
def FlashRec.write {α : Type} (r : FlashRec α) (v : α) : FlashRec α :=
  let r := r.landed
  match r.a, r.b with
  | some x, some y => if x.1 < y.1 then ⟨none, some y, some (y.1 + 1, v)⟩ else ⟨some x, none, some (x.1 + 1, v)⟩
  | some x, none => ⟨some x, none, some (x.1 + 1, v)⟩
  | none, some y => ⟨none, some y, some (y.1 + 1, v)⟩
  | none, none => ⟨none, none, some (1, v)⟩

/-- A reset interrupts a rewrite: the old copy stays in force (R435). -/
def FlashRec.cut {α : Type} (r : FlashRec α) : FlashRec α := { r with next := none }

/-- What the record says: what was written last. -/
def FlashRec.value {α : Type} (r : FlashRec α) (dflt : α) : α :=
  match r.next, r.newest with
  | some x, _ => x.2
  | none, some x => x.2
  | none, none => dflt

/-- A record verifies in one copy at least. -/
def FlashRec.ok {α : Type} (r : FlashRec α) : Bool := r.newest.isSome

def Flash.fails (f : Flash) : Nat := f.starts.value 0
def Flash.harv (f : Flash) : Harvest := f.harvest.value ⟨[], [], []⟩
/-- FAILS is written (R435, R436). -/
def Flash.setFails (f : Flash) (n : Nat) : Flash := { f with starts := f.starts.write n }
/-- The harvest record is written (R368, R435). -/
def Flash.setHarvest (f : Flash) (g : Harvest → Harvest) : Flash := { f with harvest := f.harvest.write (g f.harv) }

/-- The column is retired: the harvest record names it (R16, R368). -/
def State.setRetired (s : State) (p : Phys) : State :=
  let l := if s.cores.retired.contains p then s.cores.retired else p :: s.cores.retired
  { s with cores := { s.cores with retired := l, marked := s.cores.marked.filter (· ≠ p) }
           flash := s.flash.setHarvest (fun h => { h with retired := l }) }

/-- The harvest map names `q` for a coordinate (R15, R368). -/
def State.noteMap (s : State) (c : Coord) (q : Phys) : State :=
  { s with flash := s.flash.setHarvest (fun h => { h with map := SMap.put h.map c.index ⟨q, true, false⟩ }) }

/-- Coordinates that the core table maps to a physical core. -/
def State.coordsOn (s : State) (p : Phys) : List Coord :=
  let l := (s.cores.table.filter (fun e => decide (e.2.phys = p))).map (fun e => Coord.ofIndex e.1)
  let c : Coord := ⟨p.d, p.r, p.p / 17 * 16 + p.p % 17⟩
  if p.p % 17 = 16 ∨ (SMap.find s.cores.table c.index).isSome then l else l ++ [c]

/-- The coordinate a physical core holds when no move is in force: that of a task whose home it is, or one it holds in the core table that no task away from its home has taken there (R16, R355). -/
def State.homeCoord (s : State) (p : Phys) : Option Coord :=
  match s.tasks.find? (fun e => e.2.live && decide (e.2.home = p)) with
  | some e => some e.2.coord
  | none => (s.coordsOn p).find? (fun c => !s.tasks.any (fun e => e.2.live && decide (e.2.coord = c ∧ e.2.home ≠ p)))

/-- A region is fenced: no coordinate of its tile group is VALID (R16, R52). -/
def State.closeTile (s : State) (d g : Nat) : State :=
  (tileCoords d g).foldl (fun (s : State) c =>
    let s := s.setEntry c { s.entry c with valid := false }
    { s with flash := s.flash.setHarvest (fun h => { h with map := SMap.put h.map c.index { s.entry c with moving := false } }) }) s

/-- The tasks whose home is the core `p` have their home on `q`; a saved one resumes there (R16, R355). -/
def State.rehome (s : State) (p q : Phys) : State :=
  { s with tasks := s.tasks.map (fun e =>
      if e.2.live ∧ e.2.home = p then (e.1, { e.2 with home := q, phys := if e.2.st = .saved then q else e.2.phys }) else e) }

/-- A column that holds no task is retired at once: the coordinate it holds goes to a spare, which is the home of that coordinate's tasks, also of one that is away; without a spare its region is fenced (R16, R368). -/
def State.retireEmpty (s : State) (p : Phys) : State :=
  let s' := s.setRetired p
  match s.homeCoord p with
  | none => s'
  | some c =>
    match s.retireTarget p with
    | some q =>
      let s' := if (s.entry c).phys = p then s'.setEntry c { s.entry c with phys := q } else s'
      (s'.noteMap c q).rehome p q
    | none => s'.closeTile c.d c.tile

end Sys2Proof.Machine
end

