-- ==== Sys2Proof/Machine/Life.lean ====
section
/-! DEFINITION. Semaphore additions, the trap queue, FATAL, discarded and reissued groups, and the completion of groups and kernels (R293, R303 to R306, R321, R322, R339, R351, R369, R370). -/
namespace Sys2Proof.Machine

/-! ### Queue semaphores (R320 to R322) -/

/-- Key of the location a queue address of a context names, where it translates. -/
def State.semKey (s : State) (need : Perm) (h c a : Nat) : Option Nat :=
  match s.queueFixed h c need a with
  | .ok k => some k
  | .error _ => none

/-- A semaphore write wakes the SEMWAITs on its address (R320). -/
def State.wake (s : State) (k : Nat) : State :=
  { s with queues := s.queues.map (fun e =>
      match e.2.wait with
      | .sem a c v t0 n nx w =>
        if s.semKey .r e.2.gate e.2.ctx a = some k then (e.1, { e.2 with wait := .sem a c v t0 n nx (some (w.getD s.now)) }) else e
      | _ => e) }

/-- A write of the queue machinery lands: a value, or a saturating addition, which a damaged word takes no part in; it wakes the SEMWAITs on its address (R320, R321). -/
def State.landHeld (s : State) (w : HeldWrite) : State :=
  let r := s.readWord w.key false
  if w.add && decide (r.2 ≠ .none) then s
  else
    let v := if w.add then min (r.1.toNat + w.val) (2 ^ 64 - 1) else if w.orIn then r.1.toNat ||| w.val else w.val
    let s := (s.writeWord w.key false (BitVec.ofNat 64 v) (if w.orIn then r.2 else .none)).queueGather w.ctx w.addr true
    if w.wakes then s.wake w.key else s

/-- A write of the queue machinery: it lands, or its gateway holds it while the page is staged or written back (R321, R404). -/
def State.semWrite (s : State) (w : HeldWrite) : State :=
  if s.writeHeld w.key then { s with pg := { s.pg with held := s.pg.held ++ [w] } } else s.landHeld w

/-- The writes held for a page land in their order (R404). -/
def State.landPage (s : State) (page : Nat) : State :=
  let mine := s.pg.held.filter (fun w => decide (w.key / 65536 = page))
  mine.foldl (fun (s : State) w => s.landHeld w) { s with pg := { s.pg with held := s.pg.held.filter (fun w => decide (w.key / 65536 ≠ page)) } }

/-- A write of a queue that is held, of one of some kinds. -/
def State.heldBy (s : State) (q : Nat) (l : List HeldWhy) : Bool := s.pg.held.any (fun w => decide (w.queue = q) && l.contains w.why)

/-- A completion signal: 1 is added as by SEMSIG, or discarded where the address fails R395 or the word is damaged (R321, R322, R323); `wakes` is false for the signal of a shootdown (R400). -/
def State.semSignal (s : State) (c a : Nat) (wakes : Bool) (q : Nat) (why : HeldWhy) : State :=
  match s.semKey .w (s.queue q).gate c a with
  | none => s
  | some k => s.semWrite { key := k, addr := a, ctx := c, val := 1, add := true, wakes := wakes, queue := q, why := why }

/-! ### Interrupt messages to the host (R293, R325, R426) -/

/-- The host link has failed (R426). -/
def State.hostDown (s : State) : Bool := decide ((s.link 272).st = .failed)

/-- An MSI-X message goes to the host, or is held while the host link has failed (R426). -/
def State.sendMsix (s : State) (e : Nat) : State :=
  if s.hostDown then { s with msixHeld := s.msixHeld ++ [e] } else { s with msix := s.msix ++ [e] }

/-! ### FATAL (R293) -/

/-- A task of a context that enters FATAL: halted where it stands, a move not yet begun is abandoned (R293, R355). -/
def Task.haltFatal (k : Task) : Task :=
  if k.live then
    { (if k.st = .quiesceMove then k.unquiet else k) with
             halted := true, st := if k.st = .quiesceMove then .running else k.st,
             landing := if k.st = .quiesceMove ∨ k.st = .running then none else k.landing,
             trapSince := none, trapOpen := false, ezSince := none }
  else k

/-- Base of a context's entry in the context table (R289). -/
def State.ctxEntry (s : State) (c : Nat) : Nat := s.mg.ctxtbase + 256 * c
/-- A field of the entry. -/
def State.ctxField (s : State) (c off n : Nat) : Nat := s.read (s.ctxEntry c + off) n
def State.setCtxField (s : State) (c off v n : Nat) : State := s.write (s.ctxEntry c + off) v n

/-- Codes of the queue states (R312). -/
def QSt.code : QSt → Nat
  | .free => 0
  | .idle => 1
  | .active => 2
  | .waiting => 3
  | .suspended => 4
  | .error => 5
  | .halted => 6

/-- Bytes 16 to 63 of an entry of the queue table (R309). -/
def Queue.image (x : Queue) : Nat :=
  x.wptr.toNat + x.rptr.toNat * 2 ^ 32 + x.st.code * 2 ^ 64 + x.errcode % 256 * 2 ^ 72 + x.sdepth % 256 * 2 ^ 80
    + x.erraddr % 2 ^ 64 * 2 ^ 128 + x.retstk.getD 0 0 % 2 ^ 64 * 2 ^ 192 + x.retstk.getD 1 0 % 2 ^ 64 * 2 ^ 256
    + x.retstk.getD 2 0 % 2 ^ 64 * 2 ^ 320

/-- A queue changes, and the module's part of its entry in the queue table with it (R309). -/
def State.setQueue (s : State) (q : Nat) (x : Queue) : State :=
  { s with queues := SMap.put s.queues q x }.write (s.mg.qtbase + 64 * q + 16) x.image 48

def State.updQueue (s : State) (q : Nat) (f : Queue → Queue) : State := s.setQueue q (f (s.queue q))

/-- Queues of a context. -/
def State.queuesOf (s : State) (c : Nat) : List Nat :=
  (s.queues.filter (fun e => decide (e.2.ctx = c ∧ e.2.st ≠ .free))).map (·.1)

/-- A record that stops or is abandoned has not arrived at its queue barrier (R318, R324). -/
def State.leaveQbar (s : State) (q : Nat) : State :=
  s.updCtx (s.queue q).ctx (fun x =>
    { x with qbars := (x.qbars.map (fun b => { b with queues := b.queues.filter (· ≠ q) })).filter (fun b => !b.queues.isEmpty) })

/-- A context gives up its resident place; the pool entries of the reserved share that it holds stay with it (R337). -/
def State.leavePlace (s : State) (c : Nat) : State :=
  let s : State := { s with kernels := s.kernels.map (fun e =>
    if e.2.ctx = c then (e.1, { e.2 with share := match e.2.share with | .reserved p => .kept p | x => x }) else e) }
  s.updCtx c (fun x => { x with place := none })

/-- A context enters FATAL (R293, R296, R313). -/
def State.contextFatal (s : State) (c : Nat) : State :=
  if (s.ctx c).st ≠ .resident ∧ (s.ctx c).st ≠ .evicting then s
  else
    let ovf := s.ctxField c 24 4
    let s := s.leavePlace c
    let s' : State := { s with
      ctxs := SMap.put s.ctxs c { s.ctx c with st := .fatal, qbars := [] }
      tasks := s.tasks.map (fun e => if e.2.ctx = c then (e.1, e.2.haltFatal) else e)
      mg := { s.mg with fatalCtx := c, fatalOvf := ovf, fatalV := true } }
    ((s.queuesOf c).foldl (fun (s : State) q => s.updQueue q (fun x => { x with st := .halted, wait := .none, retiring := false })) s').sendMsix 1

/-- A slot that has trapped, on a core of generation `v` from `now` on: READY where that is the one its head needs, otherwise it asks again (R363, R364). -/
def Slot.trapOn (x : Slot) (v : Bool) (now : Nat) : Slot :=
  match x.cond with
  | .generation w _ => if x.st = .waiting ∧ w = v then { x with st := .ready, wr := .none, cond := .none } else { x with cond := .generation w now }
  | _ => x

/-- Slots that wait for the generation of this core are READY, and others ask anew. -/
def State.wakeTrapped (s : State) (t : Nat) : State :=
  let v := s.onVega t
  s.updArch t (fun a => { a with slots := a.slots.map (fun x => x.trapOn v s.now) })

/-- Trapped slots are READY on this core or ask anew (R357 to R359). -/
def State.askAnew (s : State) (t : Nat) : State :=
  let s := s.wakeTrapped t
  if (s.arch t).slots.toList.any (fun x => decide (x.wr = .migrate)) then s.landingRequest t (!s.onVega t) else s

/-! ### The trap queue (R303 to R306) -/

/-- TQOVF + 1, saturating (R305). -/
def State.bumpOvf (s : State) (c : Nat) : State :=
  s.setCtxField c 24 (min (s.ctxField c 24 4 + 1) 0xFFFF_FFFF) 4

/-- Records in the queue; a TQCI beyond TQPI counts as equal (R290). -/
def State.trapCount (s : State) (c : Nat) : Nat :=
  let n := (s.ctxField c 16 4 + 2 ^ 32 - s.ctxField c 20 4) % 2 ^ 32
  if 4096 < n then 0 else n

/-- The 64 bytes of a record are written at a place; a gateway holds them while the page is staged or written back (R303, R404). -/
def State.putRecord (s : State) (p : Place) (r : Nat) : State :=
  (List.range 8).foldl (fun (s : State) i =>
    let v := r / 2 ^ (64 * i) % 2 ^ 64
    if p.eph then s.writeWord (p.key + 8 * i) true (BitVec.ofNat 64 v) .none
    else s.semWrite { key := p.key + 8 * i, addr := 2 ^ 63, ctx := 0, val := v, add := false, wakes := false, queue := 1024, why := .page }) s

/-- An append of a record to the trap queue of a context: TQRES.ST and TQRES.IDX (R305). -/
def State.trapAppend (s : State) (c r : Nat) (rp : Bool) : State × Nat × Nat :=
  if s.ctxField c 28 1 = 1 then (s.bumpOvf c, if rp then 1 else 2, 0)
  else
    let full := decide (s.trapCount c = 4096); let pi := s.ctxField c 16 4
    if full && rp then (s.bumpOvf c, 1, 0)
    else
      let va := (s.ctx c).tqbase + (if full then 0x4_0000 else 64 * (pi % 4096))
      match s.translate c 0 0 3 .w va with
      | .error _ => (((s.bumpOvf c).setCtxField c 28 1 1).contextFatal c, 2, 0)
      | .ok p =>
        let s := (s.putRecord p r).gather c va true 0
        if full then ((s.setCtxField c 28 1 1).contextFatal c, 2, 0)
        else
          let s := s.setCtxField c 16 ((pi + 1) % 2 ^ 32) 4
          (if rp then s else s.contextFatal c, 0, pi)

/-- The 64 bytes of a record (R303). -/
def trapRecord (cause kind flags wher coord pc val stamp kh seq level step : Nat) : Nat :=
  cause % 256 + kind % 256 * 2 ^ 8 + flags % 256 * 2 ^ 16 + wher % 256 * 2 ^ 24 + coord % 2 ^ 32 * 2 ^ 32
    + pc % 2 ^ 64 * 2 ^ 64 + val % 2 ^ 64 * 2 ^ 128 + stamp % 2 ^ 64 * 2 ^ 192 + kh % 2 ^ 32 * 2 ^ 256
    + seq % 256 * 2 ^ 288 + level % 256 * 2 ^ 296 + step % 2 ^ 64 * 2 ^ 320

/-- The group's rollback-level superstep counter, as a task knows it. -/
def State.stepOf (s : State) (t : Nat) : Nat :=
  match s.groupOf t with
  | none => 0
  | some g => (vget 0 (s.arch t).bar.steps (g.top - 1)).toNat

/-- A record of the module about a task (R306). -/
def State.moduleRecord (s : State) (t cause kind wher pc val seq : Nat) (rp : Bool) : State :=
  let k := s.task t
  (s.trapAppend k.ctx (trapRecord cause kind (b01 rp + 2) wher k.coord.code pc val s.now k.kh seq 0 (s.stepOf t)) rp).1

/-- A record of the module about a kernel killed before it ran (R306, R344). -/
def State.kernelRecord (s : State) (c kh : Nat) (rp : Bool) : State :=
  (s.trapAppend c (trapRecord 0 4 (b01 rp + 2) 0xFF 0 0 0 s.now kh 0 0 0) rp).1

/-! ### Kernels (R338, R339, R344) -/

def State.kernel (s : State) (k : Nat) : Option Kernel := SMap.find s.kernels k

/-- The kernel is over. -/
def KSt.over : KSt → Bool
  | .complete => true
  | .killed => true
  | .discarded => true
  | _ => false

/-- The gathered state of every page the kernel's groups translated reaches the tables (R401). -/
def State.harvestKernel (s : State) (k : Nat) : State :=
  match s.kernel k with
  | none => s
  | some x =>
    s.harvestTick.harvestPages x.ctx ((s.pg.gathered.filter (fun e => decide (e.1 / 2 ^ 40 = x.ctx) && e.2.2.2.any (fun x => decide (x / 16 = k + 1)))).map
      (fun e => e.1 % 2 ^ 40))

/-- Handles that the tasks of a kernel received are released (R338). -/
def State.dropHandles (s : State) (k : Nat) : State :=
  match s.kernel k with
  | none => s
  | some x =>
    { s with kernels := s.kernels.map (fun e =>
        match e.2.src with
        | .task t => if (s.task t).ctx = x.ctx ∧ (s.task t).kh = x.handle then (e.1, { e.2 with held := false }) else e
        | .queue _ => e) }

/-- Groups of the kernel, complete and not, and indexes still to place. -/
def Kernel.allPlaced (x : Kernel) : Bool := x.todo.isEmpty && decide (x.count ≤ x.first)

/-- The dependence on kernel `a` is met: it has been before, or every group is placed and every task has triggered or ended, or `a` is COMPLETE (R344). -/
def State.dependMet (s : State) (a : Nat) : Bool :=
  match s.kernel a with
  | none => true
  | some k =>
    k.met || decide (k.st = .complete) ||
    (k.allPlaced && !k.st.over && (s.groups.filter (fun e => decide (e.2.kernel = a))).all (fun e =>
      e.2.tasks.all (fun t => decide ((s.task t).st = .ended) || (s.arch t).triggered)))

/-- A dependence that is met at this instant stays met (R344). -/
def State.noteMet (s : State) (a : Nat) : State := if s.dependMet a then s.updKernel a (fun k => { k with met := true }) else s

/-- The kernel is COMPLETE (R322, R338, R339). -/
def State.kernelComplete (s : State) (k : Nat) : State :=
  match s.kernel k with
  | none => s
  | some x =>
    let s := s.updKernel k (fun x => { x with st := .complete, share := .none,
                                              held := match x.src with | .queue _ => false | .task _ => x.held })
    let s := ((s.harvestKernel k).dropHandles k).noteMet k
    if x.sem = 0 then s else s.semSignal x.ctx x.sem true (match x.src with | .queue q => q | .task _ => 1024) .kernel

/-- The instances of a group are released (R372). -/
def State.releaseInsts (s : State) (g : Nat) : State := { s with insts := s.insts.filter (fun e => decide (e.2.group ≠ g)) }

/-- A task of the group has ended: the group is complete when it was its last, and the kernel completes with its last group (R339, R342, R344). -/
def State.groupEnded (s : State) (g : Nat) : State :=
  match SMap.find s.groups g with
  | none => s
  | some x =>
    let s := s.noteMet x.kernel
    if x.complete || !x.tasks.all (fun t => decide ((s.task t).st = .ended)) then s
    else
      let s := (s.updGroup g (fun x => { x with complete := true })).releaseInsts g
      let s := s.updKernel x.kernel (fun k => { k with done := k.done + 1 })
      match s.kernel x.kernel with
      | none => s
      | some k => if k.allPlaced && decide (k.count ≤ k.done) && !k.st.over then s.kernelComplete x.kernel else s

/-- A group of the kernel has been placed: with its last one its pool entry is released (R337 to R339, R344). -/
def State.notePlaced (s : State) (k : Nat) : State :=
  (s.updKernel k (fun x =>
    if x.st.over then x
    else if x.allPlaced then { x with st := .placed, share := .none } else { x with st := .running })).noteMet k

/-- The kill of a kernel is contained (R388). -/
def State.contained (s : State) (k : Nat) : Bool :=
  match s.kernel k with
  | some x => (match x.src with | .task _ => x.held | .queue _ => false)
  | none => false

/-- Packets held for groups of a kernel that will not be placed again go back in their turn (R41, R283). -/
def State.unhold (s : State) (k : Nat) : State :=
  { s with net := s.net.map (fun p => if p.heldFor.any (fun e => e.1 = k) then { p with held := false, heldFor := none } else p) }

/-- The kernel is KILLED: unplaced groups are discarded and its pool entry is released; the handles that its tasks hold stay held until they are joined (R338, R339). -/
def State.setKilled (s : State) (k : Nat) : State :=
  let c := s.contained k
  let s := (s.unhold k).updKernel k (fun x =>
    { x with st := .killed, share := .none, todo := [], first := x.count, contained := c,
             held := match x.src with | .queue _ => false | .task _ => x.held })
  s.harvestKernel k

/-- Kernels that wait for a killed predecessor whose dependence was not met are killed, and theirs in turn (R344). -/
def State.killDependents : Nat → Nat → State → State
  | 0, _, s => s
  | n + 1, k, s =>
    if (match s.kernel k with | some a => a.met | none => false) then s else
    ((s.kernels.filter (fun e => decide (e.2.st = .waitdep ∧ e.2.depend = some k))).map (·.1)).foldl (fun (s : State) j =>
      let rp := s.contained j
      match s.kernel j with
      | none => s
      | some x => ((s.setKilled j).kernelRecord x.ctx x.handle rp).killDependents n j) s

/-! ### Discarded tasks and reissued groups (R351, R369, R370) -/

/-- Spawn credits of the microthreads and the bales that a task holds return to homes outside its group (R40, R341, R370). -/
def State.creditAll (s : State) (t : Nat) (i : Ident) : State := if i.sp then s.credit t i else s

/-- Identities of the bales a task has not admitted. -/
def Msgs.baleIds (m : Msgs) : List Ident :=
  m.arrivals.filterMap (fun a => match a with | .bale b => some b.id | .returned b _ => some b.id | .handler _ _ => none)

/-- A task is discarded without a save (R351, R355). -/
def State.discardTask (s : State) (t : Nat) : State :=
  let k := s.task t
  let s := (k.arch.slots.toList.filter (fun x => decide (x.st ≠ .free ∧ x.st ≠ .stopped))).foldl
    (fun (s : State) x => if x.id.hgrp = k.gidx ∧ x.id.hkh = k.kh then s else s.creditAll t x.id) s
  let s := k.arch.msgs.baleIds.foldl
    (fun (s : State) i => if i.hgrp = k.gidx ∧ i.hkh = k.kh then s else s.creditAll t i) s
  let s := (k.arch.eng.cmds.filter Cmd.out).foldl (fun (s : State) c => s.release (.tload t c.uid)) s
  s.updTask t (fun k => { k with st := .discarded, halted := false, landing := none, trapSince := none, trapOpen := false, ezSince := none })

/-- The coordinate's entry names the task's home core again when its core is released, and a move in progress is over: MOVING and its forwarding entries clear (R52, R355, R363). -/
def State.unvisit (s : State) (t : Nat) : State :=
  let k := s.task t
  if k.phys = k.home ∧ k.st ≠ .moving then s
  else
    let s := s.setEntry k.coord { s.entry k.coord with phys := k.home, moving := false }
    { s with cores := { s.cores with
      fwd := (s.cores.fwd.map (fun e => (e.1, e.2.filter (fun f => decide (¬ (f.coord = k.coord ∧ f.ctx = k.ctx)))))).filter (fun e => !e.2.isEmpty) } }

/-- A distributor holds one more packet of an attempt; beyond 4,096 on its die a packet stays in its channel's buffer (R354, R370). -/
def holdMore (key : Nat × Nat) (l : List Packet) (p : Packet) : List Packet :=
  if (l.filter (fun q => q.held && decide (q.dst.d = p.dst.d))).length < 4096 then l ++ [{ p with held := true, buf := none, heldFor := some key }]
  else l ++ [{ p with heldFor := some key }]

/-- Packets of a reissued group: those its tasks sent are discarded, with the SP credits of their bales returned, and so are credits for them; others that were held for its coordinates, in `wait`, are kept for the next attempt (R40, R370). -/
def State.sortPackets (s : State) (g : Nat) (x : Group) (wait : List Coord) : State :=
  let gone := s.net.filter (fun p => decide (p.group = g) && decide (p.ch ≠ 18))
  let c := match s.kernel x.kernel with | some k => k.ctx | none => 0
  let kh := match s.kernel x.kernel with | some k => k.handle | none => 0
  let keep : List Packet := s.net.filter (fun p => (match p.body with
    | .credit h i => decide (¬ (p.ctx = c ∧ h = kh ∧ i = x.gidx))
    | _ => decide (p.group ≠ g)) && (match p.body with
    | .arrival t _ _ _ => !x.tasks.contains t
    | .nrMark h _ => decide (h ≠ g)
    | .rbTrigger h _ _ => decide (h ≠ g)
    | _ => true))
  let s : State := { s with net := keep.foldl (fun l p =>
    if p.ctx = c ∧ p.path = some [] ∧ wait.contains p.dst then holdMore (x.kernel, x.gidx) l p else l ++ [p]) [] }
  gone.foldl (fun (s : State) p =>
    let home (b : Bale) : State :=
      if b.id.sp then s.sendFrom p.goal (Packet.new p.dst b.id.home 19 p.ctx 0 (.credit b.id.hkh b.id.hgrp)) else s
    match p.body with
    | .bale b => home b
    | .retBale b _ => home b
    | _ => s) s

/-- A group is reissued whole; one of a kernel that is over is not placed again (R339, R351, R370, R372). -/
def State.reissue (s : State) (g : Nat) : State :=
  match SMap.find s.groups g with
  | none => s
  | some x =>
    if x.complete ∨ x.killed then s
    else
      let coords := x.tasks.map (fun t => (s.task t).coord)
      let wait := (x.tasks.filter (fun t => !(s.task t).active || (s.task t).ending)).map (fun t => (s.task t).coord)
      let s := x.tasks.foldl (fun (s : State) t => if (s.task t).live then (s.unvisit t).discardTask t else s) s
      let s := (s.sortPackets g x wait).releaseInsts g
      let s : State := { s with groups := s.groups.filter (fun e => decide (e.1 ≠ g)) }
      s.updKernel x.kernel (fun k =>
        if k.st.over then k else { k with todo := k.todo ++ [⟨x.gidx, x.podSeq, coords, s.now⟩], st := .running })

/-- Groups with a live task at one of the coordinates. -/
def State.groupsAt (s : State) (p : Coord → Bool) : List Nat :=
  (s.groups.filter (fun e => !e.2.complete && e.2.tasks.any (fun t => (s.task t).live && p (s.task t).coord))).map (·.1)

/-- A region is fenced: the groups in it, and those with a visitor on one of its cores, are reissued (R369). -/
def State.fenceRegion (s : State) (d g : Nat) : State :=
  let guests := (s.groups.filter (fun e => !e.2.complete && e.2.tasks.any (fun t => (s.task t).live && decide ((s.task t).st ≠ .saved) &&
    decide ((s.task t).phys.d = d ∧ (s.task t).phys.region = g)))).map (·.1)
  (s.groupsAt (fun c => decide (c.d = d ∧ c.tile = g)) ++ guests).foldl (fun (s : State) k => s.reissue k) s

/-- The retirement of a marked column: a task on it moves to the spare, an empty column is retired at once, and without a spare the region of the tile group is fenced (R16, R367 to R369). -/
def State.retireColumn (s : State) (p : Phys) : State :=
  if !s.cores.marked.contains p then s
  else
    match s.onPhys p, s.retireTarget p with
    | some t, some q =>
      s.updTask t (fun k => if k.st = .running then { k with st := .quiesceMove, landing := some q, mvWhy := .retire } else k)
    | none, some _ => s.retireEmpty p
    | u, none =>
      let c := match s.homeCoord p, u with
        | some c, _ => some c
        | none, some t => some (s.task t).coord
        | none, none => none
      let s := s.retireEmpty p
      match c with
      | some c => (s.closeTile c.d c.tile).fenceRegion c.d c.tile
      | none => s

end Sys2Proof.Machine
end

