-- ==== Sys2Proof/Machine/Accept.lean ====
section
/-! DEFINITION. Acceptance of launch records: the reads and checks in their order, the pending-launch pool, handles, and the dependence of kernels (R131 to R134, R331 to R339, R343, R344). -/
namespace Sys2Proof.Machine

/-! ### The structures (R331, R333, R334) -/

/-- The fields of a launch record (R331). -/
def LaunchRec.ofWords (l : List Word) : LaunchRec :=
  let w := fun i => (l.getD i 0).toNat
  { hdr := w 0, param := w 1, pwords := bits (w 2) 31 0, shape := bits (w 2) 39 32, policy := bits (w 2) 47 40,
    diemask := bits (w 2) 63 48, count := bits (w 3) 31 0, depend := bits (w 3) 63 32, waybill := w 4,
    wayn := bits (w 5) 31 0, rest := bits (w 5) 63 32 + w 6 + w 7 }

/-- PARAM has the local form, which names the column. -/
def LaunchRec.isLocal (r : LaunchRec) : Bool := decide (bits r.param 63 22 = 0)
/-- PARAM has the level form with scope 3. -/
def LaunchRec.isLevel (r : LaunchRec) : Bool := decide (bits r.param 63 62 = 3 ∧ bits r.param 61 59 = 3 ∧ bits r.param 58 56 = 0)
/-- PARAM has a form that the source may use (R331). -/
def LaunchRec.paramOk (r : LaunchRec) (device : Bool) : Bool :=
  if r.pwords = 0 then decide (r.param = 0)
  else decide (r.param % 8 = 0) && (r.isLevel || (device && r.isLocal))
/-- DIEMASK (R331). -/
def LaunchRec.dieOk (r : LaunchRec) : Bool :=
  if r.shape = 2 then decide (2 ≤ popCount r.diemask 16 ∧ popCount r.diemask 16 ≤ 15)
  else decide (r.shape ≠ 3 ∨ r.diemask = 0)
/-- Step 1 of R336. -/
def LaunchRec.ok (r : LaunchRec) (device : Bool) : Bool :=
  decide (r.rest = 0 ∧ r.hdr % 64 = 0 ∧ r.hdr < 2 ^ 56 ∧ r.pwords ≤ 512 ∧ r.shape ≤ 3 ∧ r.policy ≤ 1 ∧ 1 ≤ r.count) &&
  r.paramOk device && r.dieOk &&
  (if r.waybill = 0 then decide (r.wayn = 0)
   else decide (r.waybill % 32 = 0 ∧ r.waybill < 2 ^ 56 ∧ 1 ≤ r.wayn ∧ r.wayn ≤ 4096))

/-- The fields of a kernel header (R333). -/
def KHeader.ofWords (l : List Word) : KHeader :=
  let w := fun i => (l.getD i 0).toNat
  { format := bits (w 0) 15 0, cls := bits (w 0) 23 16, lines := bits (w 0) 63 32, ctentry := w 1, caps := w 2,
    patchn := bits (w 3) 31 0, wayn := bits (w 3) 63 32, pcol := bits (w 4) 31 0,
    rest := bits (w 0) 31 24 + bits (w 4) 63 32 + (l.drop 5).foldl (fun acc v => acc + v.toNat) 0 }

/-- Step 2 of R336; a CTENTRY outside its form counts as malformed (log 25). -/
def KHeader.ok (h : KHeader) : Bool :=
  decide (h.rest = 0 ∧ h.format = 1 ∧ h.cls ≤ 1 ∧ 1 ≤ h.lines ∧ h.lines ≤ 2 ^ 24 ∧ h.patchn ≤ 4096 ∧ h.wayn ≤ 4096 ∧
    h.ctentry % 2 = 0 ∧ h.ctentry < 2 ^ 56 ∧ h.caps < 32) && h.caps.testBit 2

/-- A waybill entry from its four words, where it is well formed (R334). -/
def waybillOf : List Word → Option Waybill
  | [a, b, c, d] =>
    if a.toNat % 65536 = 0 ∧ a.toNat < 2 ^ 56 ∧ 1 ≤ b.toNat ∧ b.toNat < 2 ^ 32 ∧ bits c.toNat 31 0 ≤ bits c.toNat 63 32 ∧ d = 0 then
      some ⟨a.toNat, b.toNat, bits c.toNat 31 0, bits c.toNat 63 32⟩
    else none
  | _ => none

/-- The entries of a waybill, or none where one is malformed. -/
def waybillAll (l : List Word) : Nat → Option (List Waybill)
  | 0 => some []
  | n + 1 =>
    match waybillOf (l.take 4), waybillAll (l.drop 4) n with
    | some e, some r => some (e :: r)
    | _, _ => none

/-! ### Patch sites (R133, R134) -/

/-- Heads whose immediate is a line delta (FETCH in its delta form only), a C split (that of COPY among them, log 88) or a SAFEPT mask. -/
def unpatchable (head : Nat) : Bool :=
  let major := bits head 15 9
  decide (major = 0x01 ∨ major = 0x03 ∨ major = 0x05 ∨ (major = 0x06 ∧ bits head 2 0 = 0) ∨ major = 0x09 ∨ major = 0x1C ∨ major = 0x22 ∨
    major = 0x2C ∨ major = 0x43 ∨ major = 0x4B ∨ major = 0x6C)

/-- SLOT is the lowest slot of a tail of the class WID requires, in a code line with PT = 1, whose immediate may be patched. -/
def siteOk (img : List Half) (slot wid : Nat) : Bool :=
  linePT img && decide (lineType img = 0 ∨ lineType img = 1 ∨ lineType img = 4 ∨ lineType img = 5) &&
  decide (wid ≤ 1) && (headNumbers img).any (fun i =>
    decide (tailLen img i = wid + 2 ∧ slot + tailSum img (i + 1) = lineTop img + 1) &&
    !unpatchable (slotOf img i))

/-- Halfwords of a list of words. -/
def halvesOfWords (l : List Word) : List Half := l.flatMap (fun w => (List.range 4).map (fun i => BitVec.ofNat 16 (w.toNat / 2 ^ (16 * i))))

/-! ### Reads of level memory (R332) -/

/-- Who offers a record: the source, its context, the die and tile group on which SRAM pages are judged, its kernel in the gathered state, its class and its priority. -/
structure Offer where
  src : Source
  ctx : Nat
  d : Nat
  g : Nat
  ker : Nat
  bulk : Bool
  prio : Nat
  deriving DecidableEq, Repr

/-- The memory of a location can be reached from where an offer is made: the launching core, or the gateway of the queue's processor (R23, R425). -/
def State.offerReaches (s : State) (o : Offer) (k : Nat) : Bool :=
  match o.src with
  | .task t => s.memReachable (s.task t).phys.d k
  | .queue q => s.gateReaches (s.queue q).gate k

/-- `n` words from a virtual address, each translated with R; the first failure gives its cause, one that cannot be reached 0x15 (R199, R332, R395, R425, log 26). -/
def State.vaWords (s : State) (o : Offer) (scope : Nat) : Nat → Nat → State × Except Nat (List Word)
  | 0, _ => (s, .ok [])
  | n + 1, va =>
    match s.translate o.ctx o.d o.g scope .r (va % 2 ^ 56) with
    | .error m => (s, .error m.cause)
    | .ok p =>
      let s := if (s.cachedLeaf o.ctx (va % 2 ^ 56)).isSome then s else s.keepLease o.ctx (va % 2 ^ 56)
      let r := (s.gather o.ctx (va % 2 ^ 56) false o.ker).placeWord p
      if !s.offerReaches o p.key then (s, .error 0x15)
      else if r.2.2 = .poisoned then (r.1, .error 0x09)
      else if r.2.2 = .expired then (r.1, .error 0x0A)
      else
        match r.1.vaWords o scope n (va + 8) with
        | (s', .ok l) => (s', .ok (r.2.1 :: l))
        | (s', .error e) => (s', .error e)

/-- How an offer fails: a status and, for a read, its cause (R336). -/
inductive Reply
  | bad (status : Nat) (cause : Option Nat)
  /-- A read of the column raises an exception (R147). -/
  | exc (code addr : Nat)
  | full
  | given (handle : Nat)
  deriving DecidableEq, Repr

/-- One entry of a patch-table line, or none where it fails R134 or R336. -/
def patchOf (h : KHeader) (pwords : Nat) (a b : Nat) : Option Patch :=
  let p : Patch := ⟨a, bits b 15 11, bits b 10 9, bits b 8 0⟩
  if p.wid ≤ 1 ∧ p.parm < pwords ∧ p.line < h.lines then some p else none

/-- Entries `j` and on of a patch-table line, each with the code line it names; the flag says that an all-zero entry ended the table. -/
def State.patchEntries (s : State) (o : Offer) (r : LaunchRec) (h : KHeader) (img : List Half) :
    Nat → Nat → State × Except Reply (List (Patch × List Half) × Bool)
  | 0, _ => (s, .ok ([], false))
  | n + 1, j =>
    let a := slotOf img (2 * j + 1); let b := slotOf img (2 * j + 2)
    if a = 0 ∧ b = 0 then (s, .ok ([], true))
    else
      match patchOf h r.pwords a b with
      | none => (s, .error (.bad 2 none))
      | some p =>
        match s.vaWords o 0 8 (r.hdr + 128 + 64 * p.line) with
        | (s', .error e) => (s', .error (.bad 2 (some e)))
        | (s', .ok ws) =>
          if !siteOk (halvesOfWords ws) p.slot p.wid then (s', .error (.bad 2 none))
          else
            match s'.patchEntries o r h img n (j + 1) with
            | (s', .ok (l, e)) => (s', .ok ((p, halvesOfWords ws) :: l, e))
            | (s', .error e) => (s', .error e)

/-- The patch-table lines from line `i`, each with the code lines it names (R133, R332). -/
def State.patchLines (s : State) (o : Offer) (r : LaunchRec) (h : KHeader) : Nat → Nat → State × Except Reply (List (Patch × List Half))
  | 0, _ => (s, .ok [])
  | n + 1, i =>
    match s.vaWords o 0 8 (r.hdr + 128 + 64 * (h.lines + i)) with
    | (s, .error e) => (s, .error (.bad 2 (some e)))
    | (s, .ok ws) =>
      let img := halvesOfWords ws
      if lineType img ≠ 3 ∨ slotOf img 31 ≠ 0 then (s, .error (.bad 2 none))
      else
        match s.patchEntries o r h img 15 0 with
        | (s, .error e) => (s, .error e)
        | (s, .ok (l, true)) => (s, .ok l)
        | (s, .ok (l, false)) =>
          match s.patchLines o r h n (i + 1) with
          | (s, .ok l') => (s, .ok (l ++ l'))
          | (s, .error e) => (s, .error e)

/-- The parameter block (R332): from the column of the launching task, or from level memory. -/
def State.readParams (s : State) (o : Offer) (r : LaunchRec) : State × Except Reply (List Word) :=
  if r.pwords = 0 then (s, .ok [])
  else if r.isLevel then
    match s.vaWords o 3 r.pwords (r.param % 2 ^ 56) with
    | (s, .error e) => (s, .error (.bad 2 (some e)))
    | (s, .ok l) => (s, .ok l)
  else
    match o.src with
    | .queue _ => (s, .error (.bad 2 none))
    | .task t =>
      match s.ctReadFault t r.param r.pwords with
      | some e => (s, .error (.exc e.1 e.2))
      | none => (s, .ok (s.ctWords t r.param r.pwords))

/-- The code lines that patches name, as they were read, with every patch applied (R134, R332). -/
def patchedLines (hdr : Nat) (params : List Word) (l : List (Patch × List Half)) : SMap (List Half) :=
  l.foldl (fun acc e =>
    let va := hdr + 128 + 64 * e.1.line
    SMap.put acc va (patchLine params ((SMap.find acc va).getD e.2) e.1)) []

/-- Steps 1 to 6 of R336, in the order of the reads of R332. -/
def State.readLaunch (s : State) (o : Offer) (r : LaunchRec) : State × Except Reply Parts :=
  if !r.ok (match o.src with | .task _ => true | .queue _ => false) then (s, .error (.bad 2 none))
  else
    match s.vaWords o 0 16 r.hdr with
    | (s, .error e) => (s, .error (.bad 2 (some e)))
    | (s, .ok hw) =>
      let h := KHeader.ofWords hw
      if !h.ok then (s, .error (.bad 2 none))
      else
        let at_ := if r.waybill = 0 then r.hdr + 128 + 64 * (h.lines + h.patchn) else r.waybill
        let n := if r.waybill = 0 then h.wayn else r.wayn
        match s.vaWords o 0 (4 * n) at_ with
        | (s, .error e) => (s, .error (.bad 2 (some e)))
        | (s, .ok ww) =>
          match waybillAll ww n with
          | none => (s, .error (.bad 2 none))
          | some way =>
            match s.readParams o r with
            | (s, .error e) => (s, .error e)
            | (s, .ok params) =>
              match s.patchLines o r h h.patchn 0 with
              | (s, .error e) => (s, .error e)
              | (s, .ok patches) =>
                if h.pcol ≠ 0xFFFF_FFFF ∧ (h.pcol % 8 ≠ 0 ∨ Config.undoBase < h.pcol + 8 * r.pwords) then
                  (s, .error (.bad 2 none))
                else (s, .ok ⟨h, way, params, patches.map (·.1), patchedLines r.hdr params patches⟩)

/-! ### Dependence (R343, R344) -/

/-- The predecessor that DEPEND names: no kernel for 0; the error says that it names none that R343 allows. -/
def State.dependOf (s : State) (o : Offer) (dep : Nat) : Except Unit (Option Nat) :=
  if dep = 0 then .ok none
  else
    let last : Option Nat := match o.src with | .task t => (s.task t).lastLaunch | .queue q => (s.queue q).last
    if dep = 0xFFFF_FFFF then (match last with | some k => .ok (some k) | none => .error ())
    else
      match o.src with
      | .queue _ => .error ()
      | .task _ =>
        match s.kernels.find? (fun e => decide (e.2.src = o.src ∧ e.2.handle = dep ∧ e.2.ctx = o.ctx) && e.2.held) with
        | some e => .ok (some e.1)
        | none => .error ()

/-! ### The pool (R337) -/

/-- Entries of the reserved share of a resident place. -/
def State.reservedUsed (s : State) (p : Nat) : Nat :=
  (s.kernels.filter (fun e => decide (e.2.share = .reserved p ∨ e.2.share = .kept p))).length
/-- Entries that count against the shared part: its own, and those that contexts kept when they left their place, until they are released (R337). -/
def State.sharedUsed (s : State) : Nat :=
  (s.kernels.filter (fun e =>
    match e.2.share with
    | .shared => true
    | .kept _ => true
    | _ => false)).length

/-- Tasks that wait in dt.launch.w and queues that wait in KLAUNCH, with their context and since when; an evicted context's wait again once it is resident. -/
def State.poolWaits (s : State) : List (Nat × Nat × Source) :=
  (s.tasks.filterMap (fun e =>
    match e.2.arch.ctl.wait with
    | .launchW _ _ n => if e.2.live && !e.2.ending && decide ((s.ctx e.2.ctx).st = .resident) then some (n, e.2.ctx, .task e.1) else none
    | _ => none)) ++
  (s.queues.filterMap (fun e =>
    match e.2.wait with
    | .pool n _ _ _ => if e.2.st = .waiting then some (n, e.2.ctx, .queue e.1) else none
    | _ => none))

/-- The part of the pool an entry for context `c` comes from, when `mine` of its waiters and `all` waiters of the module come first. -/
def State.takeShare (s : State) (c mine all : Nat) : Option Share :=
  let shared : Option Share := if s.sharedUsed + all < 4096 then some .shared else none
  match (s.ctx c).place with
  | some p => if s.reservedUsed p + mine < 64 then some (.reserved p) else shared
  | none => shared

/-- The share for an offer: a newcomer comes after every waiter, a waiter before the others (R337). -/
def State.shareFor (s : State) (o : Offer) : Option Share :=
  let l := s.poolWaits
  if l.any (fun w => decide (w.2.2 = o.src)) then s.takeShare o.ctx 0 0
  else s.takeShare o.ctx (l.filter (fun w => decide (w.2.1 = o.ctx))).length l.length

/-- The launch table keeps 65,536 kernels (R338). -/
def State.tableFull (s : State) : Bool := decide (65536 ≤ (s.kernels.filter (fun e => !e.2.st.over)).length)

/-- A handle that the context does not hold (R338). -/
def State.newHandle (s : State) (c : Nat) : Nat :=
  let used := s.kernels.filterMap (fun e => if e.2.ctx = c ∧ (e.2.held ∨ !e.2.st.over) then some e.2.handle else none)
  let base := (s.ctx c).nextHandle
  (((List.range (used.length + 1)).map (fun i => (base - 1 + i) % 0xFFFF_FFFE + 1)).find? (fun h => !used.contains h)).getD 1

/-! ### Acceptance (R336 to R339) -/

/-- The kernel of an accepted record. -/
def newKernel (s : State) (o : Offer) (r : LaunchRec) (x : Parts) (sem : Nat) (dep : Option Nat) (sh : Share) (key handle : Nat) : Kernel :=
  { ctx := o.ctx, handle := handle, src := o.src, held := true, hdr := r.hdr, shape := r.shape, affine := decide (r.policy = 1),
    diemask := r.diemask, count := r.count, depend := dep, bulk := o.bulk, prio := o.prio, lines := x.h.lines, ctentry := x.h.ctentry,
    caps := x.h.caps, pcol := if x.h.pcol = 0xFFFF_FFFF then none else some x.h.pcol, params := x.params, patches := x.patches, images := x.images,
    waybill := x.way, sem := sem
    st := match dep with | none => .ready | some a => if s.dependMet a then .ready else .waitdep
    order := key, since := s.now, share := sh, todo := [], first := 0, done := 0, joined := false, contained := false, met := false, starving := [] }

/-- The source remembers its latest launch (R338, R343). -/
def State.noteLaunch (s : State) (src : Source) (key : Nat) : State :=
  match src with
  | .task t => s.updTask t (fun k => { k with lastLaunch := some key })
  | .queue q => { s with queues := SMap.upd s.queues q (fun x => { x with last := some key, kernels := x.kernels ++ [key] }) }

/-- The kernel takes its entry and its handle; one whose predecessor has been KILLED is killed with it (R338, R339, R344). -/
def State.enterKernel (s : State) (o : Offer) (r : LaunchRec) (x : Parts) (sem : Nat) (dep : Option Nat) (sh : Share) : State × Nat :=
  let key := s.ids + 1
  let h := s.newHandle o.ctx
  let k := newKernel s o r x sem dep sh key h
  let s : State := { s with ids := key, kernels := SMap.put s.kernels key k }
  let s := (s.updCtx o.ctx (fun c => { c with nextHandle := h % 0xFFFF_FFFE + 1 })).noteLaunch o.src key
  match dep with
  | none => (s, h)
  | some a =>
    match s.kernel a with
    | some p => (if p.st = .killed then s.killDependents s.kernels.length a else s, h)
    | none => (s, h)

/-- A record whose parts have been read is offered to the pool: the rest of the checks in their order, then the pool (R336, R337). -/
def State.offerParts (s : State) (o : Offer) (r : LaunchRec) (x : Parts) (sem : Nat) : State × Reply :=
  match s.dependOf o r.depend with
  | .error _ => (s, .bad 2 none)
  | .ok dep =>
    let c := s.ctx o.ctx
    if x.h.caps ||| c.caps ≠ c.caps then (s, .bad 3 none)
    else if !c.classes.testBit (b01 o.bulk) ∨ (x.h.cls = 1 ∧ !o.bulk) then (s, .bad 3 none)
    else if s.tableFull then (s, .full)
    else
      match s.shareFor o with
      | none => (s, .full)
      | some sh =>
        match s.enterKernel o r x sem dep sh with
        | (s, h) => (s, .given h)

/-- Acceptance of a record (R336): the reads and checks in their order, then the pool. -/
def State.acceptLaunch (s : State) (o : Offer) (r : LaunchRec) (sem : Nat) : State × Reply :=
  match s.readLaunch o r with
  | (s, .error e) => (s, e)
  | (s, .ok x) => s.offerParts o r x sem

/-- The offer of a task's control thread: its class, and the priority of its kernel (R298, R345). -/
def State.taskOffer (s : State) (t : Nat) : Offer :=
  let k := s.task t
  { src := .task t, ctx := k.ctx, d := k.coord.d, g := k.coord.tile, ker := s.kerKey t, bulk := k.bulk,
    prio := match s.kernelOf t with | some x => x.prio | none => 0 }

/-- DEPENDENCE_MET: a kernel in WAITDEP becomes READY (R339, R344). -/
def execDependenceMet (c h : Nat) (s : State) : Host.Outcome State Fault Refusal :=
  .next { s with kernels := s.kernels.map (fun e =>
    if e.2.ctx = c ∧ e.2.handle = h ∧ e.2.st = .waitdep then
      (match e.2.depend with
       | some a => if s.dependMet a then (e.1, { e.2 with st := .ready, since := s.now }) else e
       | none => e)
    else e) }

end Sys2Proof.Machine
end

