-- ==== Sys2Proof/Machine/Barrier.lean ====
section
/-! DEFINITION. Barrier instances: arrivals, completion, the step snapshot, the watchdog, REARM, marks, and the pod tree (R371 to R382, R385, R387, R389 to R391). -/
namespace Sys2Proof.Machine

/-! ### The cut of a member at the rollback level (R377, R387) -/

/-- The heads that wait on a level are to return with the result, if any; a head that issues later waits for the next instance (R285, R288, R377). -/
def Arch.markDue (a : Arch) (l : Nat) (v : Option Word) : Arch :=
  { a with slots := a.slots.map (fun x => if x.cond = .barrier l ∧ x.barEnd = none then { x with barEnd := some (.due v) } else x) }
/-- Heads of a level that are to return do, and no slot keeps what it has read before (R66, R288, R377). -/
def Arch.returnDue (a : Arch) (l : Nat) : Arch :=
  { a.dropAhead with slots := a.dropAhead.slots.map (fun x =>
      match x.barEnd with
      | some (.due v) => if x.cond = .barrier l then { x with barEnd := some (.done v) } else x
      | _ => x) }

/-- The arrival of a task at a level that is on its way to the root. -/
def State.arrivalSent (s : State) (t l : Nat) : Option PendArr :=
  s.net.findSome? (fun p =>
    match p.body with
    | .arrival u l' op code => if u = t ∧ l' = l ∧ !p.lost then some ⟨op, code, [], []⟩ else none
    | _ => none)

/-- Arrivals of the task at inner levels, at the root or on their way to it, which a rollback makes again (R372, R387). -/
def State.innerArrivals (s : State) (t top : Nat) (b : BarCore) : BarCore :=
  ((List.range (top - 1)).map (· + 1)).foldl (fun b l =>
    match SMap.find s.insts (s.myInst t l) with
    | none => b
    | some i =>
      match i.arrived.find? (fun a => a.1 = t), s.arrivalSent t l with
      | some a, _ => b.setPend l (some ⟨a.2, none, [], []⟩)
      | none, some p => b.setPend l (some p)
      | none, none => b) b

/-- The heads of a group at its rollback level return once every member has taken its cut (R377). -/
def State.returnHeads (s : State) (g : Nat) : State :=
  if s.tasks.any (fun e => decide (e.2.group = g) && e.2.live && e.2.cutRes.isSome) then s
  else
    match SMap.find s.groups g with
    | none => s
    | some x => { s with tasks := s.tasks.map (fun e => if e.2.group = g then (e.1, e.2.updArch (fun a => a.returnDue x.top)) else e) }

/-- The member's part of a rollback-level completion: begun commands complete, the undo log and the marks are cleared, the snapshot is taken with its heads returned, and a pending retirement starts (R377, R387). -/
def State.cutNow (s : State) (t : Nat) : State :=
  match (s.task t).cutRes with
  | none => s
  | some (l, _) =>
    let s := if (s.task t).onCore then s.finishBegun t else s
    if (s.arch t).eng.cmds.any (fun c => decide (c.st = .begun)) then s else
    let s := s.updBar t (fun b =>
      { b with undo := [], undoOvf := false, undoNr := false, rbcnt := 0, memb := b.memb.map (fun m => { m with nr := false }) })
    let a := ((s.arch t).returnDue l).unquiet
    let snap : Arch := { a with bar := s.innerArrivals t l a.bar }
    let s := (s.updTask t (fun k => { k with snap := some snap, cutRes := none })).returnHeads (s.task t).group
    s.retireColumn (s.task t).phys

/-- The cut of a completion is due: no slot of the core is within a line, and no sequence is in progress (R34, R242, R387). -/
def State.cutDue (s : State) (t : Nat) : Bool :=
  (s.task t).cutRes.isSome && (s.arch t).seq.isNone && !(s.arch t).slots.toList.any (fun x => decide (x.st = .running) && x.line.entered)

/-! ### Completion (R372, R376 to R378) -/

/-- Every current member has arrived (R372). -/
def Inst.full (i : Inst) : Bool := !i.members.isEmpty && i.members.all (fun t => i.arrived.any (fun a => a.1 = t))
/-- The instance takes arrivals. -/
def Inst.live (i : Inst) : Bool := decide (i.st = .open_ ∨ i.st = .gathering ∨ i.st = .draining)

/-- The result of a completion: the combined value, or the operator's value for no contribution; none where no arrival carried an operator (R286, R378). -/
def Inst.result (i : Inst) : Option Word :=
  match i.operator with
  | none => none
  | some o => match i.total o with
    | some p => some (p.value o)
    | none => some (noContribution o)

/-- Member `t` sees the completion of level `l` (R44, R373, R377). -/
def Arch.stepDone (a : Arch) (l : Nat) (n : Word) : Arch :=
  a.updBar (fun b => { (b.updMemb l (fun m => { m with arr := false })) with steps := vset b.steps (l - 1) n })

/-- Copies counted for the next superstep of an instance now count for the current one (R376). -/
def Eng.promote (e : Eng) (k : Nat) : Eng :=
  { e with cmds := e.cmds.map (fun c => if c.counted = some (k, true) then { c with counted := some (k, false) } else c) }

/-- Every store of the members lands: it happens before what follows the barrier (R66, R67). -/
def State.landMembers (s : State) (l : List Nat) : State :=
  l.foldl (fun (s : State) t => if (s.task t).onCore then s.flushTask t else s) s

/-- The instance completes with a result; DESIGN CHOICE, log 121: every member sees it at once (R66, R376, R377). -/
def State.complete (s : State) (k : Nat) (v : Option Word) : State :=
  match SMap.find s.insts k with
  | none => s
  | some i =>
    let n := i.counter + 1
    let s := s.landMembers i.members
    let s := s.updInst k (fun i =>
      { i with st := .open_, arrived := [], pend := i.pend + i.next, next := 0, counter := n, wdRun := false, wdCount := 0,
               podKids := [], podSent := false })
    let s : State := { s with tasks := s.tasks.map (fun e =>
      if e.2.group = i.group then (e.1, e.2.updArch (fun a => a.updEng (fun g => g.promote k))) else e) }
    let s := i.members.foldl (fun (s : State) t => s.updArch t (fun a => (a.stepDone i.level n).markDue i.level v)) s
    match SMap.find s.groups i.group with
    | none => s
    | some g =>
      if g.top = i.level then
        let s := s.updGroup i.group (fun g => { g with nr := false, rbcnt := 0, reads := [], writes := [] })
        let s : State := { s with net := s.net.map (fun p => if p.group = i.group then { p with old := true } else p) }
        let s := i.members.foldl (fun (s : State) t => s.updTask t (fun k => { k with cutRes := some (i.level, v) })) s
        i.members.foldl (fun (s : State) t => if s.cutDue t then s.cutNow t else s) s
      else i.members.foldl (fun (s : State) t => s.updArch t (fun a => a.returnDue i.level)) s

/-- Every pod child has sent its arrival. -/
def State.kidsIn (s : State) (i : Inst) : Bool := s.podChildren.all (fun m => i.podKids.any (fun k => k.1 = m))

/-- An instance whose watchdog has run out expires; one whose members have all arrived drains or completes, at level 4 by POD_ARRIVAL_FORWARD (R372, R381). -/
def State.instCheck (s : State) (k : Nat) : State :=
  match SMap.find s.insts k with
  | none => s
  | some i =>
    if i.expired then s.expire k
    else if !i.live || !i.full || (decide (i.level = 4) && !s.kidsIn i) then s
    else if 0 < i.pend then s.updInst k (fun i => { i with st := .draining })
    else if i.level = 4 then s
    else s.complete k i.result

/-- Every instance that can drain or complete does. -/
def State.drainPass (s : State) : State := (s.insts.map (·.1)).foldl (fun (s : State) k => s.instCheck k) s
/-- A completion lands the words of begun copies, so a second pass follows the first (R377, R387). -/
def State.drainCheck (s : State) : State := s.drainPass.drainPass

/-! ### Arrivals (R286, R372, R375, R381) -/

/-- The watchdog limit of a level in pt; 0 disables (R381). -/
def State.wdLimit (s : State) (l : Nat) : Nat := s.mg.barwdog.toNat / 2 ^ (16 * (l - 1)) % 2 ^ 16 * 10_000

/-- An arrival reaches the root of the task's own domain (R286, R287, R372). -/
def State.rootArrive (s : State) (t l : Nat) (op : Option (BarOp × Option Word)) (code : Option Nat) : State :=
  let k := s.myInst t l
  match SMap.find s.insts k with
  | none => s
  | some i =>
    if i.expired then s.expire k
    else if !i.live then s
    else
      match code with
      | some c => s.abortHere k c
      | none =>
        let clash := match op, i.operator with
          | some (o, _), some o' => decide (o ≠ o')
          | _, _ => false
        if clash then s.abortHere k 0x8000
        else
          let lim := s.wdLimit l
          (s.updInst k (fun i =>
            let i := { i with arrived := i.arrived ++ [(t, op)] }
            if i.st = .open_ then { i with st := .gathering, wdRun := true, wdCount := 0, wdLimit := lim } else i)).drainCheck

/-- BARRIER_ARRIVAL_SEND: the copies that held the arrival back have landed or ended (R375). -/
def execBarrierArrivalSend (t : Nat) (level : BitVec 3) (s : State) : Host.Outcome State Fault Refusal :=
  .next (let k := s.task t
    match k.arch.bar.pendOf level.toNat with
    | none => s
    | some p =>
      let find : Nat → (Cmd → Bool) → Bool := fun u f => match k.arch.eng.find u with | some c => f c | none => false
      if !k.onCore || p.same.any (fun u => find u (fun c => c.started && !c.underway)) || p.lower.any (fun u => find u (fun c => c.started)) then s
      else
        (s.updBar t (fun b => b.setPend level.toNat none)).sendRoot t level.toNat (.arrival t level.toNat p.op p.code))

/-- BARRIER_ARRIVAL; one that reached no root aborts the instance (R372, R425). -/
def execBarrierArrival (n : Nat) (s : State) : Host.Outcome State Fault Refusal :=
  .next (match s.nextPacket n with
    | none => s
    | some p =>
      match p.body with
      | .arrival t l op code => if p.lost then (s.takePacket n).abortHere (s.myInst t l) 0x8001 else (s.takePacket n).rootArrive t l op code
      | _ => s)

/-- NONRESTARTABLE_MARK: a mark for a superstep that has completed since marks nothing (R385). -/
def execNonrestartableMark (n : Nat) (s : State) : Host.Outcome State Fault Refusal :=
  .next (match s.nextPacket n with
    | none => s
    | some p =>
      match p.body with
      | .nrMark g _ => if p.old || p.lost then s.takePacket n else (s.takePacket n).markGroup g
      | _ => s)

/-! ### The watchdog (R381) -/

/-- A member is in fault service (R365, R381). -/
def State.inService (s : State) (t : Nat) : Bool :=
  let k := s.task t
  decide (k.arch.ctl.d.mtfpend ≠ 0) || k.arch.ctl.d.elV || k.arch.eng.parked.toList.any id || k.trapSince.isSome ||
    decide (k.st ≠ .running) || decide ((s.ctx k.ctx).st ≠ .resident)
/-- The watchdog of an instance counts. -/
def State.counts (s : State) (i : Inst) : Bool := i.wdRun && !i.members.any (fun t => s.inService t)
/-- Watchdogs count `pt` of package time. -/
def State.countDogs (s : State) (pt : Nat) : State :=
  { s with insts := s.insts.map (fun e => if s.counts e.2 then (e.1, { e.2 with wdCount := e.2.wdCount + pt }) else e) }

/-- WATCHDOG_EXPIRY (R372, R381). -/
def execWatchdogExpiry (key : Nat) (s : State) : Host.Outcome State Fault Refusal :=
  .next (match SMap.find s.insts key with
    | none => s
    | some i => if i.expired then s.expire key else s)

/-! ### REARM (R382) -/

/-- REARM of the writer's domain at a level: arrivals and contributions are cleared (R372, R382). -/
def State.rearm (s : State) (t l : Nat) : State :=
  let k := s.myInst t l
  match SMap.find s.insts k with
  | none => s
  | some i =>
    if i.st ≠ .aborted ∧ i.st ≠ .timedout then s
    else
      let s := s.updInst k (fun i =>
        { i with st := .open_, code := 0, arrived := [], wdRun := false, wdCount := 0, podKids := [], podSent := false })
      let s := i.members.foldl (fun (s : State) u => s.updBar u (fun b =>
        (b.setPend l none).updMemb l (fun m => { m with arr := false }))) s
      { s with net := s.net.filter (fun p => match p.body with
          | .arrival u l' _ _ => !(l' == l && i.members.contains u)
          | _ => true) }

/-- The write comes from a task that can make it: one that runs on its core (R382). -/
def State.writer (s : State) (t : Nat) : Bool := (s.task t).active && !(s.task t).ending

/-- GRPCTL_REARM (R382). -/
def execGrpctlRearm (t : Nat) (level : BitVec 3) (s : State) : Host.Outcome State Fault Refusal :=
  .next (if s.writer t && decide (1 ≤ level.toNat ∧ level.toNat ≤ 4) then s.rearm t level.toNat else s)

/-! ### The pod tree (R390, R391) -/

/-- The contribution a module sends up: the operator and the partial result of its subtree; special code 5 for none. -/
def Inst.upward (i : Inst) : Option (BarOp × Int × Int × Nat) :=
  match i.operator with
  | none => none
  | some o => match i.total o with
    | some p => some (o, p.1, p.2.1, p.2.2)
    | none => some (o, 0, 0, 5)

/-- The result that a release carries (R390). -/
def releaseValue : Option (BarOp × Int × Int × Nat) → Option Word
  | none => none
  | some (o, m, e, x) => some (if x = 5 then noContribution o else Partial.value o (m, e, x))

/-- POD_ARRIVAL_FORWARD: the module's members and its children have arrived and no byte is pending: the arrival goes to the parent, or the root completes and releases (R390). -/
def execPodArrivalForward (key : Nat) (s : State) : Host.Outcome State Fault Refusal :=
  .next (match SMap.find s.insts key with
    | none => s
    | some i =>
      if decide (i.level ≠ 4) || !i.live || i.expired || !i.full || decide (0 < i.pend) || !s.kidsIn i || i.podSent || s.mg.podRefuse ||
        !s.mg.podEn then s
      else
        match s.podParent with
        | some m => (s.podSend m i.group i.upward .arrival).updInst key (fun i => { i with podSent := true })
        | none =>
          let s := s.podChildren.foldl (fun (s : State) m => s.podSend m i.group i.upward .release) s
          (s.complete key (releaseValue i.upward)).drainCheck)

end Sys2Proof.Machine
end

