-- ==== Sys2Proof/Machine/Ending.lean ====
section
/-! DEFINITION. How tasks end, how groups are killed, and rollback (R31, R341, R344, R374, R386 to R388). -/
namespace Sys2Proof.Machine

/-! ### MTKILL (R31, R160, R341) -/

/-- MTKILL of slot `i`: at once, or at the line end, the stop point or the bale's acceptance; `keep` keeps its stores for landing (R31, R160, R341). -/
def State.killSlot (s : State) (t i : Nat) (keep : Bool) : State :=
  let x := s.slot t i
  if x.st = .free then s
  else if x.st = .travelling ∨ (x.st = .running ∧ x.line.entered) then s.updSlot t i (fun x => { x with kill := some keep })
  else s.freeSlot t i keep

/-! ### The end of a task (R341, R374) -/

/-- The first step of a task's end: every slot is killed, a move or save in progress is abandoned (R341, R355). -/
def State.beginEnd (s : State) (t : Nat) : State :=
  let s := s.updTask t (fun k =>
    { k with ending := true, st := if k.st = .quiesceSave ∨ k.st = .quiesceMove then .running else k.st
             landing := if k.st = .moving then k.landing else none, trapSince := none, trapOpen := false, ezSince := none, cutRes := none })
  let s := s.returnHeads (s.task t).group
  (List.range 10).foldl (fun (s : State) i => s.killSlot t i true) s

/-- No slot is within a line or travels. -/
def Arch.settled (a : Arch) : Bool :=
  !a.slots.toList.any (fun x => decide (x.st = .travelling ∨ (x.st = .running ∧ x.line.entered)))

/-- Commands not begun are discarded; a copy saved incomplete leaves its counter (R341, R376). -/
def State.discardCmds (s : State) (t : Nat) : State :=
  let s := ((s.eng t).cmds.filter Cmd.out).foldl (fun (s : State) c =>
    (if c.again ∨ c.st = .begun then s.pendAdd c.counted (-(8 * c.unlanded : Nat)) else s).release (.tload t c.uid)) s
  s.updEng t (fun e => { e with cmds := e.cmds.map (fun c => if c.out then { c with st := .discarded } else c)
                                parked := Vector.replicate 4 false })

/-- The send buffer leaves the core: every store has landed and every copy has ended (R78). -/
def State.drainSends (s : State) (t : Nat) : State :=
  let l := (s.arch t).msgs.sendb
  l.foldl (fun (s : State) e => if e.dst = (s.task t).coord then s else s.emit t e.dst (.msg e.msg))
    (s.updMsgs t (fun q => { q with sendb := [] }))

/-- The task leaves every domain: its arrivals are withdrawn, those on their way too (R374). -/
def State.leaveDomains (s : State) (t : Nat) : State :=
  { s with
    insts := s.insts.map (fun e => (e.1, { e.2 with members := e.2.members.filter (· ≠ t), arrived := e.2.arrived.filter (fun a => a.1 ≠ t) }))
    net := s.net.filter (fun p => match p.body with | .arrival u _ _ _ => decide (u ≠ t) | _ => true) }

/-- Membership sizes of the tasks that remain (R373, R374). -/
def State.countDomains (s : State) (t : Nat) : State :=
  let k := s.task t
  { s with tasks := s.tasks.map (fun e =>
      if e.2.group = k.group ∧ e.1 ≠ t then
        (e.1, e.2.updArch (fun a => a.updBar (fun b => { b with memb := Vector.ofFn (fun (i : Fin 4) =>
          let m := vget Memb.blank b.memb i.val
          let mine := vget Memb.blank k.arch.bar.memb i.val
          if m.mem && mine.mem && decide (m.domid = mine.domid) then { m with domsize := m.domsize - 1 } else m) })))
      else e) }

/-- Steps 2 to 5 of R341, once no slot is within a line or travels: stores land, begun commands complete, arrivals are discarded with their credits, the membership ends and the core is released. A begun command that cannot complete yet holds the end back. -/
def State.finishEnd (s : State) (t : Nat) : State :=
  if !(s.task t).ending || !(s.arch t).settled then s
  else
    let s := if (s.task t).onCore then (s.flushTask t).finishBegun t else s
    if (s.eng t).cmds.any (fun c => decide (c.st = .begun)) then s
    else
      let s := (s.discardCmds t).drainSends t
      let s := (s.arch t).msgs.baleIds.foldl (fun (s : State) i => s.creditAll t i) s
      let s := s.updMsgs t (fun _ => Msgs.reset)
      let s := ((s.countDomains t).leaveDomains t).markGroup (s.task t).group
      let p := (s.task t).phys
      let s := s.unvisit t
      let s := s.updTask t (fun k => { k with st := .ended, ending := false, halted := false, landing := none, frame := none, frameImg := [] })
      let s := (s.drainCheck).groupEnded (s.task t).group
      if (s.onPhys p).isNone then s.retireColumn p else s

/-- A task ends as by TEXIT (R341). -/
def State.taskEnd (s : State) (t : Nat) : State := if (s.task t).live then (s.beginEnd t).finishEnd t else s

/-- TEXIT: the runtime's write of TEXIT.GO, or the default control routine, ends the task; a task whose end waits for a line end or a command goes on with it (R340, R341). -/
def execTexit (t : Nat) (s : State) : Host.Outcome State Fault Refusal :=
  .next (if (s.task t).ending then s.finishEnd t else if s.writer t then s.taskEnd t else s)

/-! ### Killed groups (R388) -/

/-- Every instance of a group is aborted with a code and every task ends; of a level-4 group every module of the job hears it, whatever its instance has become (R388, R390). -/
def State.endGroup (s : State) (g code : Nat) : State :=
  match SMap.find s.groups g with
  | none => s
  | some x =>
    if x.complete ∨ x.killed then s
    else
      let ks := (s.insts.filter (fun e => decide (e.2.group = g))).map (·.1)
      let s := if x.top = 4 then s.podSpread none g none (.abort code) else s
      let s := ks.foldl (fun (s : State) k => s.abortInst k code) (s.updGroup g (fun x => { x with killed := true, rolling := false }))
      x.tasks.foldl (fun (s : State) t => s.taskEnd t) s

/-- A group is killed, and with it its kernel: a kind-4 record follows, from the task that triggered it (R306, R339, R344, R388). -/
def State.killGroup (s : State) (g t cause : Nat) : State :=
  match SMap.find s.groups g with
  | none => s
  | some x =>
    if x.complete ∨ x.killed then s
    else
      let rp := s.contained x.kernel
      let step := s.stepOf t
      let k := s.task t
      let s := (s.setKilled x.kernel).endGroup g 0x8003
      let others := (s.groups.filter (fun e => decide (e.2.kernel = x.kernel ∧ e.1 ≠ g))).map (·.1)
      let s := others.foldl (fun (s : State) h => s.endGroup h 0x8003) s
      let s := (s.trapAppend k.ctx (trapRecord cause 4 (b01 rp + 2) 0xFF k.coord.code 0 0 s.now k.kh 0 0 step) rp).1
      s.killDependents s.kernels.length x.kernel

/-- GRPCTL_KILL (R382, R388). -/
def execGrpctlKill (t : Nat) (s : State) : Host.Outcome State Fault Refusal :=
  .next (if s.writer t then s.killGroup (s.task t).group t 0 else s)

/-! ### Rollback (R386, R387) -/

/-- Steps 1 and 2 of R387: the members halt, the instances are aborted with 0x8002, and the packets of the superstep are discarded, but for the words of begun commands, which complete; arrivals from before it too, which the snapshots hold; `from_` is the module a pod rollback came from (R390). -/
def State.startRollback (s : State) (g : Nat) (from_ : Option Nat) : State :=
  match SMap.find s.groups g with
  | none => s
  | some x =>
    if x.rolling ∨ x.complete ∨ x.killed then s
    else
      let s := if x.top = 4 then s.podSpread from_ g none .rollback else s
      let s : State := { s with
        groups := SMap.upd s.groups g (fun x => { x with rolling := true })
        insts := s.insts.map (fun e => if e.2.group = g then (e.1, { e.2 with st := .aborted, code := 0x8002, wdRun := false }) else e)
        net := s.net.filter (fun p => decide (p.group ≠ g) || (match p.body with | .arrival .. => false | .word .. => true | _ => p.old)) }
      x.tasks.foldl (fun (s : State) t => s.updTask t (fun k => if k.live then { k with halted := true, restored := false } else k)) s

/-- The module that decides for a level-4 group is the root of the pod tree; the next one towards it, if that is another (R390). -/
def State.podAbove (s : State) (x : Group) : Option Nat := if x.top = 4 ∧ s.mg.podEn then s.podParent else none

/-- What the root decides when a trigger arrives; a level-4 trigger goes up the pod tree to its root (R386, R390). -/
def State.decideTrigger (s : State) (g t cause : Nat) : State :=
  match SMap.find s.groups g with
  | none => s
  | some x =>
    if x.rolling ∨ x.complete ∨ x.killed then s
    else
      match s.podAbove x with
      | some m => s.podSend m g none (.trigger cause)
      | none => if x.nr ∨ 3 ≤ x.rbcnt then s.killGroup g t cause else s.startRollback g none

/-- ROLLBACK_TRIGGER (R386). -/
def execRollbackTrigger (n : Nat) (s : State) : Host.Outcome State Fault Refusal :=
  .next (match s.nextPacket n with
    | none => s
    | some p =>
      match p.body with
      | .rbTrigger g t c => if p.lost then s.takePacket n else (s.takePacket n).decideTrigger g t c
      | _ => s)

/-- GRPCTL_ROLLBACK: a trigger from the writer's core (R382, R386). -/
def execGrpctlRollback (t : Nat) (s : State) : Host.Outcome State Fault Refusal :=
  .next (if s.writer t then
      let k := s.task t
      let top := match s.groupOf t with | none => 0 | some g => g.top
      s.sendRoot t top (.rbTrigger k.group t 0)
    else s)

/-- The lines of the undo log are written back to the column (R387). -/
def State.undoBack (s : State) (t : Nat) : State :=
  let l := (s.arch t).bar.undo
  (List.range l.length).foldl (fun (s : State) i => s.copyLine (s.colKey t (Config.undoBase + 64 * i)) (s.colKey t (l.getD i 0))) s

/-- The caravanserai holds the entries of the arrival path again (R356, R387). -/
def State.caravanBack (s : State) (t : Nat) : State :=
  let m := (s.arch t).msgs; let l := m.arrivals.drop 16
  (l.zipIdx).foldl (fun (s : State) e =>
    s.write (s.colKey t (Config.caravanBase + 128 * ((m.caravan + 256 - l.length + e.2) % 256))) e.1.image 128) s

/-- Bytes of the incomplete copies of a task count again (R300, R376). -/
def State.recount (s : State) (t : Nat) : State :=
  ((s.eng t).cmds.filter (fun c => c.out && c.again)).foldl (fun (s : State) c => s.pendAdd c.counted (8 * c.unlanded : Nat)) s

/-- A member has stopped for the rollback: it is halted on its core, and no slot is within a line (R387). -/
def Task.stoppedHere (k : Task) : Bool :=
  k.onCore && k.halted && !k.arch.slots.toList.any (fun x => decide (x.st = .running) && x.line.entered)

/-- A member can restore: every member has stopped, so that no copy lands in a column after it is restored (R387). -/
def State.canRestore (s : State) (t : Nat) : Bool :=
  let k := s.task t
  !k.restored && !k.ending && k.stoppedHere &&
    (match s.groupOf t with
     | some g => g.rolling && g.tasks.all (fun u => !(s.task u).live || (s.task u).stoppedHere)
     | none => false)

/-- Step 1 of R387 at every member: a pending cut is taken, and begun commands complete. -/
def State.settleMembers (s : State) (l : List Nat) : State :=
  l.foldl (fun (s : State) u =>
    if (s.task u).live then
      let s := if s.cutDue u then s.cutNow u else s
      s.finishBegun u
    else s) s

/-- The rest of a task's state is that of the snapshot: traps and moves that the superstep asked for are forgotten, and only a move for retirement, asked for by the barrier before it, is still to come (R368, R387). -/
def Task.backTo (k : Task) (a : Arch) : Task :=
  let keep := decide (k.st = .quiesceMove ∧ k.mvWhy = .retire)
  { k with arch := a, restored := true, trapSince := none, trapOpen := false, ezSince := none,
           st := if k.st = .quiesceMove ∧ !keep then .running else k.st, landing := if keep then k.landing else none }

/-- Step 3 of R387, once the begun commands of every member have completed: unbegun ones are discarded, the column and the rest of the task's state go back to the snapshot. -/
def State.restore (s : State) (t : Nat) : State :=
  let l := match s.groupOf t with | some g => g.tasks | none => []
  let s := s.settleMembers l
  if l.any (fun u => (s.task u).live && ((s.eng u).cmds.any (fun c => decide (c.st = .begun)) || (s.task u).cutRes.isSome)) then s
  else
    let s := (s.discardCmds t).undoBack t
    match (s.task t).snap with
    | none => s
    | some a =>
      ((s.updTask t (fun k => k.backTo a)).recount t).caravanBack t

/-- ROLLBACK_RESTORE (R387). -/
def execRollbackRestore (t : Nat) (s : State) : Host.Outcome State Fault Refusal :=
  .next (if s.canRestore t then s.restore t else s)

/-- An instance after the rollback: OPEN, with the counter of the snapshot, which its members hold (R372, R387). -/
def State.instBack (s : State) (i : Inst) : Inst :=
  { i with st := .open_, code := 0, arrived := [], wdRun := false, wdCount := 0, podKids := [], podSent := false
           counter := match i.members.head? with
             | some t => vget 0 (s.arch t).bar.steps (i.level - 1)
             | none => i.counter }

/-- Step 4 of R387: RBCNT rises and the members of this module go on, those with slots that the snapshot shows in a migrate trap asking again; a level-4 group's pod children are told to (R390). -/
def State.goOn (s : State) (gid : Nat) (x : Group) : State :=
  let n := x.rbcnt + 1
  let s := if x.top = 4 ∧ s.mg.podEn then s.podChildren.foldl (fun (s : State) m => s.podSend m gid none .goOn) s else s
  let s : State := { s with
    groups := SMap.upd s.groups gid (fun x =>
      { x with rolling := false, rbcnt := n, nr := false, reads := [], writes := [], podRest := [], restSent := false })
    insts := s.insts.map (fun e => if e.2.group = gid then (e.1, s.instBack e.2) else e) }
  (x.tasks.filter (fun t => (s.task t).live)).foldl (fun (s : State) t =>
    let halt := decide ((s.ctx (s.task t).ctx).st = .fatal)
    let s := s.updTask t (fun k =>
      (Task.updArch { k with restored := false, halted := halt } (fun a => a.updBar (fun b => { b with rbcnt := n }))))
    if halt then s else s.askAnew t) s

/-- Every member of the group in this module has restored, and every pod child has said so of its own (R387, R390). -/
def State.allRestored (s : State) (x : Group) : Bool :=
  x.rolling && (x.tasks.filter (fun t => (s.task t).live)).all (fun t => (s.task t).restored) &&
    (decide (x.top ≠ 4) || !s.mg.podEn || s.podChildren.all (fun m => x.podRest.contains m))

/-- ROLLBACK_RENDEZVOUS: every member has restored: the members go on, or a module below the root of the pod tree says so to its parent (R387, R390). -/
def execRollbackRendezvous (gid : Nat) (s : State) : Host.Outcome State Fault Refusal :=
  .next (match SMap.find s.groups gid with
    | none => s
    | some x =>
      if !s.allRestored x then s
      else
        match s.podAbove x with
        | none => s.goOn gid x
        | some m => if x.restSent then s else (s.podSend m gid none .restored).updGroup gid (fun x => { x with restSent := true }))

/-! ### Frames from the pod (R390, R391) -/

/-- The group of this module that a frame names, if it is placed. -/
def State.podGroup (s : State) (f : PodFrame) : Option Nat :=
  (s.groups.find? (fun e => decide (e.2.podSeq = some f.seqnum) && !e.2.complete &&
    (match s.kernel e.2.kernel with | some k => decide ((s.ctx k.ctx).podtag = f.podtag) && (s.ctx k.ctx).caps.testBit 4 | none => false))).map (·.1)

/-- The context that belongs to the pod job under a tag (R289). -/
def State.podCtx (s : State) (tag : Nat) : Option Nat :=
  (s.ctxs.find? (fun e => decide (e.2.st ≠ .undefined) && e.2.caps.testBit 4 && decide (e.2.podtag = tag))).map (·.1)

/-- A task of the group, about which the module writes a record of a trigger from another module. -/
def State.podMember (s : State) (g : Nat) : Nat :=
  match SMap.find s.groups g with
  | some x => x.tasks.headD 0
  | none => 0

/-- A frame acts on its group (R390). -/
def State.podAct (s : State) (g : Nat) (f : PodFrame) : State :=
  let k := instKey g 4 0
  match f.body with
  | .arrival =>
    if s.mg.podRefuse then s
    else
      match SMap.find s.insts k with
      | none => s
      | some i =>
        if !i.live then s
        else if i.podKids.any (fun e => e.1 = f.src) then s
        else
          let clash := match f.contrib, i.operator with
            | some (o, _), some o' => decide (o ≠ o')
            | _, _ => false
          if clash then s.abortHere k 0x8000
          else
            let lim := s.wdLimit 4
            s.updInst k (fun i =>
              let i := { i with podKids := i.podKids ++ [(f.src, f.contrib)] }
              if i.st = .open_ then { i with st := .gathering, wdRun := true, wdCount := 0, wdLimit := lim } else i)
  | .release =>
    match SMap.find s.insts k with
    | none => s
    | some i =>
      if i.expired then s.expire k
      else if !i.live || !i.podSent then s
      else
        let s := s.podChildren.foldl (fun (s : State) m => s.podSend m g f.contrib .release) s
        (s.complete k (releaseValue f.contrib)).drainCheck
  | .abort c => if c = 0x8003 then s.killGroup g (s.podMember g) 0 else (s.podSpread (some f.src) g none (.abort c)).abortInst k c
  | .trigger c => s.decideTrigger g (s.podMember g) c
  | .nonrestart =>
    match SMap.find s.groups g with
    | some x => if x.nr then s else (s.podSpread (some f.src) g none .nonrestart).markHere g
    | none => s
  | .rollback => s.startRollback g (some f.src)
  | .restored => s.updGroup g (fun x => if x.podRest.contains f.src then x else { x with podRest := f.src :: x.podRest })
  | .goOn =>
    match SMap.find s.groups g with
    | some x => if x.rolling ∧ x.restSent then s.goOn g x else s
    | none => s
  | .ack => s

/-- A group that waits to be placed again keeps a pod sequence number (R351, R390). -/
def State.podAgain (s : State) (c n : Nat) : Bool :=
  s.kernels.any (fun e => decide (e.2.ctx = c) && e.2.todo.any (fun a => decide (a.podSeq = some n)))

/-- A received frame acts on its group, is held until the group is placed or placed again, or is discarded (R351, R390). -/
def State.podReceive (s : State) (f : PodFrame) : State :=
  match s.podGroup f with
  | some g => s.podAct g f
  | none =>
    match s.podCtx f.podtag with
    | none => s
    | some c => if (s.ctx c).podSeq ≤ f.seqnum || s.podAgain c f.seqnum then { s with podHeld := s.podHeld ++ [f] } else s

/-- POD_FRAME_ARRIVAL: a frame of the job is acknowledged, and acts unless it has been received before (R389 to R391). -/
def execPodFrameArrival (f : PodFrame) (s : State) : Host.Outcome State Fault Refusal :=
  .next (if !s.mg.podEn || decide (f.job ≠ s.mg.podJob) then s
    else
      match f.body with
      | .ack => { s with podOut := s.podOut.filter (fun e => decide (¬ (e.1.serial = f.serial ∧ e.2.1 = f.src))) }
      | _ =>
        let s := s.podEmit f.src { f with src := s.mg.podIdx, body := .ack, contrib := none }
        if s.mg.podSeen.contains (f.src, f.serial) then s
        else ({ s with mg := { s.mg with podSeen := (f.src, f.serial) :: s.mg.podSeen } } : State).podReceive f)

/-- The port has lost a peer: DOWN is set, level-4 arrivals are refused and the level-4 instance of the frame's group is aborted (R391). -/
def State.podLost (s : State) (f : PodFrame) : State :=
  let s : State := { s with mg := { s.mg with podDown := true, podRefuse := true } }
  match s.podGroup f with
  | some g => s.abortHere (instKey g 4 0) 0x8001
  | none => s

/-- POD_FRAME_RESEND: a frame that has waited 100,000 pt for its acknowledgement is sent again up to three times; then the peer is lost (R391). -/
def execPodFrameResend (n : Nat) (s : State) : Host.Outcome State Fault Refusal :=
  .next (match s.podOut[n]? with
    | none => s
    | some (f, dst, sent, at_) =>
      if s.now < at_ + 100_000 then s
      else if sent ≤ 3 then ({ s with podOut := s.podOut.set n (f, dst, sent + 1, s.now) } : State).podEmit dst f
      else ({ s with podOut := s.podOut.eraseIdx n } : State).podLost f)

end Sys2Proof.Machine
end

