-- ==== Sys2Proof/Machine/Arrivals.lean ====
section
/-! DEFINITION. Bales, messages, credits and returned packets on their way and at their destination (R37 to R41, R51, R77, R78, R203 to R205, R277 to R283, R356, R447). -/
namespace Sys2Proof.Machine

/-! ### Where a packet stands (R41, R51, R283) -/

/-- The fate of a packet at its destination. -/
inductive Fate
  | deliver (t : Nat)
  | held
  | back (cause : Nat)
  deriving DecidableEq, Repr

/-- The task of a coordinate takes packets now: it runs on its core and is neither halted nor ending. -/
def Task.takes (k : Task) : Bool := k.active && !k.ending

/-- The attempt that a packet is kept for is still to be placed (R370). -/
def State.attemptWaits (s : State) (e : Nat × Nat) : Bool :=
  match s.kernel e.1 with
  | some k => k.todo.any (fun x => decide (x.gidx = e.2))
  | none => false
/-- A task belongs to the attempt that a packet is kept for, if it is kept for one (R370). -/
def State.isFor (s : State) (p : Packet) (t : Nat) : Bool :=
  match p.heldFor, s.groupOf t with
  | none, _ => true
  | some e, some g => decide (e = (g.kernel, g.gidx))
  | some _, none => false

/-- The fate of a packet (R41, R51, R283, R293, R370, R425). -/
def State.fate (s : State) (p : Packet) : Fate :=
  if p.heldFor.any (fun e => s.attemptWaits e) then .held
  else if p.lost ∨ !s.validCoord p.dst then .back 0x15
  else
    match s.taskAt p.ctx p.dst with
    | none => .back 0x0E
    | some t => if !s.isFor p t then .back 0x0E else if (s.task t).takes then .deliver t else .held

/-- A packet comes from outside the group of its receiver: the superstep is marked (R385). -/
def State.markFrom (s : State) (t : Nat) (p : Packet) : State :=
  if p.group = (s.task t).group then s else s.markNr t

/-- A returned packet goes back on the reply class, from where the packet stands, to the core it last left (R41, R51, R283, R447). -/
def State.giveBack (s : State) (p : Packet) (b : Body) : State :=
  s.sendTo (s.answerPoint p) p.from_ { Packet.new p.dst p.src 19 p.ctx p.group b with old := p.old }

/-- Packet `n`, in its order, is delivered with `f`, stays where it is held, is refused as `r` says, or goes back as `b`. -/
def State.arriving (s : State) (n : Nat) (p : Packet) (b : Nat → Body) (f : State → Nat → Option State) (r : Nat → State) : State :=
  match s.fate p with
  | .held => s
  | .back c => (s.takePacket n).giveBack p (b c)
  | .deliver t =>
    match f (s.takePacket n) t with
    | some s' => s'.markFrom t p
    | none => r t

/-! ### Departure (R203) -/

/-- BALE_ACCEPTED: the network takes the bale of a TRAVELLING slot whose stores, and the copies that a FENCE.CORE orders before its later accesses, have landed; the slot is FREE (R31, R203). The order sent of R77 is the order in which packets enter the network: a bale does not wait for messages in the send buffer (log 95). -/
def execBaleAccepted (t slot : Nat) (s : State) : Host.Outcome State Fault Refusal :=
  .next (let x := s.slot t slot
    match x.travel with
    | none => s
    | some (c, _) =>
      if decide (x.st ≠ .travelling) || !x.sb.isEmpty || !(s.task t).onCore || (s.arch t).fenceStalls x then s
      else
        let b := s.packBale t slot
        (s.updSlot t slot (fun _ => Slot.reset)).emit t c (.bale b))

/-! ### Arrival (R39, R277, R281) -/

/-- BALE_ARRIVAL: a bale enters the arrival queue or the caravanserai, waits while both are full or another waits before it, or goes back (R39, R41, R51). -/
def execBaleArrival (n : Nat) (s : State) : Host.Outcome State Fault Refusal :=
  .next (match s.nextPacket n with
    | none => s
    | some p =>
      match p.body with
      | .bale b => s.arriving n p (fun c => .retBale b c) (fun s' t =>
          if s.takesArrival t p.turn then some (s'.enterArrival t (.bale b)) else none) (fun t => s.refuse t p.uid)
      | _ => s)

/-- A mailbox message enters the mailbox while it has room (R277). -/
def State.enterMailbox (s : State) (t : Nat) (m : Msg) : Option State :=
  if (s.arch t).msgs.mailbox.length < 64 then some (s.updMsgs t (fun q => { q with mailbox := q.mailbox ++ [m] })) else none

/-- A triggered message: an arrival for a BOUND tag, otherwise parked while there is room (R281, R282). -/
def State.enterTriggered (s : State) (t : Nat) (m : Msg) : Option State :=
  let q := (s.arch t).msgs
  match q.tag m.tag with
  | .bound line => if s.takesArrival t none && !q.parking.any (fun x => decide (x.tag = m.tag)) then some (s.enterArrival t (.handler m line)) else none
  | _ => if q.parking.length < 32 then some (s.updMsgs t (fun q => { q with parking := q.parking ++ [m] })) else none

/-- A message at its receiver. -/
def State.enterMsg (s : State) (t : Nat) (m : Msg) : Option State := if m.trig then s.enterTriggered t m else s.enterMailbox t m

/-- A message packet arrives, where its kind is `trig`. -/
def State.msgArrival (s : State) (n : Nat) (trig : Bool) : State :=
  match s.nextPacket n with
  | none => s
  | some p =>
    match p.body with
    | .msg m => if m.trig == trig then s.arriving n p (fun c => .retMsg m c p.dst) (fun s t => s.enterMsg t m) (fun _ => s) else s
    | _ => s

/-- MESSAGE_ARRIVAL (R77, R277, R283). -/
def execMessageArrival (n : Nat) (s : State) : Host.Outcome State Fault Refusal := .next (s.msgArrival n false)

/-- TRIGGERED_MESSAGE_ARRIVAL (R281 to R283). -/
def execTriggeredMessageArrival (n : Nat) (s : State) : Host.Outcome State Fault Refusal := .next (s.msgArrival n true)

/-- SPAWN_CREDIT_ARRIVAL: the count of the home task falls; a credit of a task that is gone is dropped, one for a saved task is held (R40). -/
def execSpawnCreditArrival (n : Nat) (s : State) : Host.Outcome State Fault Refusal :=
  .next (match s.nextPacket n with
    | none => s
    | some p =>
      match p.body with
      | .credit kh gi =>
        (match s.taskAt p.ctx p.dst with
         | none => s.takePacket n
         | some t =>
           let k := s.task t
           if k.kh ≠ kh ∨ k.gidx ≠ gi then s.takePacket n
           else if k.takes then (s.takePacket n).updArch t (fun a => { a with spawnOut := a.spawnOut - 1 })
           else if k.st = .saved then s.holdPacket n
           else s)
      | _ => s)

/-! ### Returned traffic (R283, R447) -/

/-- The status word of a returned message (R283). -/
def statusWord (cause : Nat) (m : Msg) (dst : Coord) : Word :=
  BitVec.ofNat 64 (cause % 256 + m.tag % 64 * 2 ^ 8 + b01 m.trig * 2 ^ 14 + dst.code * 2 ^ 32)

/-- The credit of a returned bale goes home, and the bale has SP = 0 (R41). -/
def State.returnedCredit (s : State) (p : Packet) (b : Bale) : State :=
  if b.id.sp then s.sendFrom p.goal (Packet.new p.dst b.id.home 19 p.ctx p.group (.credit b.id.hkh b.id.hgrp)) else s
def Bale.clearSp (b : Bale) : Bale := { b with id := { b.id with sp := false } }

/-- Packet `n` goes back to the task that sent it, with the launch handle `kh` and the group index `gi`: it acts with `f` where that task takes it, is refused there as `r` says, is held while the task is saved, and is dropped with `drop` where no task of the core matches (R447). -/
def State.returning (s : State) (n : Nat) (p : Packet) (kh gi : Nat) (drop : State → State) (f : State → Nat → Option State) (r : Nat → State) : State :=
  match s.taskAt p.ctx p.dst with
  | none => drop (s.takePacket n)
  | some t =>
    let k := s.task t
    if k.kh ≠ kh ∨ k.gidx ≠ gi then drop (s.takePacket n)
    else if k.takes then (f (s.takePacket n) t).getD (r t)
    else if k.st = .saved then s.holdPacket n
    else s

/-- RETURNED_PACKET_ARRIVAL: a returned bale is admitted FAULTED later, a returned message enters the mailbox on tag 63, an error reply faults its copy; without the sending task the packet is dropped (R41, R51, R283, R425, R447). -/
def execReturnedPacketArrival (n : Nat) (s : State) : Host.Outcome State Fault Refusal :=
  .next (match s.nextPacket n with
    | none => s
    | some p =>
      match p.body with
      | .retBale b c =>
        s.returning n p b.id.skh b.id.sgrp (fun s => s.returnedCredit p b) (fun s t =>
          if s.takesArrival t p.turn then some ((s.returnedCredit p b).enterArrival t (.returned b.clearSp c)) else none) (fun t => s.refuse t p.uid)
      | .retMsg m c dst =>
        s.returning n p m.kh m.grp id (fun s t => s.enterMailbox t { m with payload := statusWord c m dst, tag := 63, trig := false }) (fun _ => s)
      | .copyErr uid c kh gi =>
        s.returning n p kh gi id (fun s t => some (if c = 0x15 then (s.copyLost t uid).drainCheck else (s.copyRefused t uid c).drainCheck)) (fun _ => s)
      | _ => s)

/-! ### Admission (R32, R39, R41, R282) -/

/-- The lowest FREE slot (R32). -/
def Arch.freeSlotNo (a : Arch) : Option Nat := (List.range 10).find? (fun i => decide ((a.slot i).st = .free))

/-- A bale takes slot `i`; a local spawn has its home slot there; a line resumed at a stop point on another core is not signature checked (R31, R130, R203, R207). -/
def State.seatBale (s : State) (t i : Nat) (b : Bale) : State :=
  let me := (s.task t).coord
  s.updSlot t i (fun x => { Slot.fresh true b.pc b.id with
    m := b.m, pw := b.pw, sb := x.sb
    id := if b.id.hops = 0 ∧ b.id.home = me then { b.id with homeSlot := i } else b.id
    line := { LineSt.none with arrived := b.arrived, unchecked := b.arrived } })

/-- A handler microthread takes slot `i` (R282). -/
def State.seatHandler (s : State) (t i : Nat) (m : Msg) (line : Word) : State :=
  s.updSlot t i (fun x =>
    { Slot.fresh true (pcAt line.toNat 1) { s.newIdent t i false with nx := m.nx } with
      m := vset (vset (vset (Vector.replicate 10 0) 0 m.payload) 1 (BitVec.ofNat 64 m.src.code)) 2 (BitVec.ofNat 64 m.tag)
      sb := x.sb })

/-- An arrival is admitted to slot `i`; another NX than the core's raises 0x0D, a returned bale its cause (R41, R51, R282). -/
def State.admitTo (s : State) (t i : Nat) : Arrival → State
  | .bale b =>
    let s := s.seatBale t i b
    if b.id.nx = (s.arch t).eng.nx then s else s.slotFault t i 0x0D 0
  | .returned b c => (s.seatBale t i { b with arrived := false }).slotFault t i c b.ea
  | .handler m line =>
    let s := s.seatHandler t i m line
    if m.nx = (s.arch t).eng.nx then s else s.slotFault t i 0x0D 0

/-- Slot `i` is about to be taken: a dt.mtwait whose condition holds no longer waits for it (R161). -/
def State.noteIdle (s : State) (t i : Nat) : State :=
  s.updCtl t (fun c =>
    match c.wait with
    | .mtwait rd m =>
      let l := (List.range 10).filter (fun j => m.testBit j)
      if !(c.dflt && decide (c.mode = .u)) && l.all (fun j => ((s.arch t).slot j).idle) then
        { c with wait := .mtwait rd (maskOf 10 (fun j => m.testBit j && decide (j ≠ i))) }
      else c
    | _ => c)

/-- BALE_ADMISSION: the oldest arrival takes the lowest FREE slot; parked messages of bound tags may follow into the arrival path (R32, R39, R41, R281, R282). -/
def execBaleAdmission (t : Nat) (s : State) : Host.Outcome State Fault Refusal :=
  .next (if !(s.task t).takes then s
    else
      match (s.arch t).msgs.arrivals, (s.arch t).freeSlotNo with
      | x :: rest, some i =>
        (((s.noteIdle t i).updMsgs t (fun q => { q with arrivals := rest, refuses := false })).admitTo t i x).unpark t
      | _, _ => s)

/-! ### The send buffer (R77, R78, R278) -/

/-- The hold of a POST.REL is over (R78). -/
def State.holdOver (s : State) (t : Nat) (e : SendEnt) : Bool :=
  match e.hold with
  | none => true
  | some (n, uids) =>
    let a := s.arch t; let me := (s.task t).coord
    !(a.slot e.slot).sb.any (fun w => decide (w.serial < n)) && a.eng.pathsClear me uids (coveredPaths (enclosing me e.dst))

/-- Entry `idx` of the send buffer, behind no earlier entry for its receiver (R77, R78). -/
def Msgs.sendable (m : Msgs) (idx : Nat) : Option SendEnt :=
  match m.sendb[idx]? with
  | none => none
  | some e => if (m.sendb.take idx).any (fun f => decide (f.dst = e.dst)) then none else some e

/-- The entry leaves: to the own coordinate it is delivered on the core (R278). -/
def State.sendOut (s : State) (t idx : Nat) (e : SendEnt) : State :=
  let s' := s.updMsgs t (fun q => { q with sendb := q.sendb.eraseIdx idx })
  if e.dst = (s.task t).coord then (match s'.enterMsg t e.msg with | some s'' => s'' | none => s) else s'.emit t e.dst (.msg e.msg)

/-- A core whose send buffer empties: on its core, or while its frame is written (R277). -/
def Task.sends (k : Task) : Bool := (k.onCore || decide (k.st = .saving)) && !k.halted && !k.ending

/-- POST_RELEASE_SEND: a held message whose hold is over leaves (R78). -/
def execPostReleaseSend (t idx : Nat) (s : State) : Host.Outcome State Fault Refusal :=
  .next (match (s.arch t).msgs.sendable idx with
    | none => s
    | some e => if e.hold.isSome && s.holdOver t e && (s.task t).sends then s.sendOut t idx e else s)

/-- SEND_BUFFER_ENTRY_SENT: a message without a hold leaves (R278). -/
def execSendBufferEntrySent (t idx : Nat) (s : State) : Host.Outcome State Fault Refusal :=
  .next (match (s.arch t).msgs.sendable idx with
    | none => s
    | some e => if e.hold.isNone && (s.task t).sends then s.sendOut t idx e else s)

end Sys2Proof.Machine
end

