-- ==== Sys2Proof/Machine/BarrierHeads.lean ====
section
/-! DEFINITION. The barrier heads: EXCH, BAR, BARX and BARA (R42, R43, R284 to R288). -/
namespace Sys2Proof.Machine

/-- EXCH opens the window (R42, R43). -/
def execExch (l : BitVec 3) (g : Guard) (s : State) : Host.Outcome State Fault Refusal :=
  guarded g (fun s =>
    if !s.memberAt s.fTask l.toNat then s.fault 0x01 0
    else (s.updBar s.fTask (fun b => b.setOpen l.toNat true)).retire id) s

/-- The window of the level closes, after the commands that wait have evaluated their conditions (R42, R246). -/
def State.closeWindow (s : State) (l : Nat) : State := (s.semsMoved s.fTask).updBar s.fTask (fun b => b.setOpen l false)

/-- A BAR or BARX head: `fin` completes it with the result, if any (R285, R288). -/
def State.barHead (s : State) (l : Nat) (op : Option (BarOp × Option Word)) (fin : State → Option Word → State) : State :=
  match s.cur.barEnd with
  | some (.done v) => fin s v
  | _ =>
    if !s.memberAt s.fTask l || s.me.arch.bar.lowerOpen l then s.fault 0x01 0
    else if s.instState s.fTask l = .aborted then s.fault 0x11 0
    else if s.instState s.fTask l = .timedout then s.fault 0x12 0
    else ((s.closeWindow l).arrive l op none).waitAt .barrier (.barrier l)

/-- A BARA head: it waits until the abort is recorded; on a core whose arrival has been sent the instance is aborted at issue, so that it cannot complete first (R287, R288, log 89). -/
def State.baraHead (s : State) (l code : Nat) : State :=
  match s.cur.barEnd with
  | some .recorded => s.retire id
  | _ =>
    if !s.memberAt s.fTask l || s.me.arch.bar.lowerOpen l then s.fault 0x01 0
    else
      let s := s.closeWindow l
      if s.instState s.fTask l = .aborted ∨ s.instState s.fTask l = .timedout then s.retire id
      else
        let sent := (s.me.arch.bar.membOf l).arr && (s.me.arch.bar.pendOf l).isNone
        let t := (s.arrive l none (some code)).waitAt .barrier (.abort l)
        if sent then t.abortHere (s.myInst s.fTask l) code else t

/-- BAR (R284, R285). -/
def execBar (l : BitVec 3) (g : Guard) (s : State) : Host.Outcome State Fault Refusal :=
  guarded g (fun s => s.barHead l.toNat none (fun s _ => s.retire id)) s

/-- BARX with a contribution (R284 to R286). -/
def execBarx (op : BarOp) (l : BitVec 3) (d a : Reg) (g : Guard) (s : State) : Host.Outcome State Fault Refusal :=
  guarded g (fun s => s.barHead l.toNat (some (op, some (s.cur.getM a)))
    (fun s v => s.retire (fun x => x.setM d (v.getD (noContribution op))))) s

/-- BARX without a contribution (R284 to R286). -/
def execBarxNc (op : BarOp) (l : BitVec 3) (d : Reg) (g : Guard) (s : State) : Host.Outcome State Fault Refusal :=
  guarded g (fun s => s.barHead l.toNat (some (op, none))
    (fun s v => s.retire (fun x => x.setM d (v.getD (noContribution op))))) s

/-- BARA with a code in a register (R287). -/
def execBara (l : BitVec 3) (a : Reg) (g : Guard) (s : State) : Host.Outcome State Fault Refusal :=
  guarded g (fun s => s.baraHead l.toNat (bits (s.cur.getM a).toNat 14 0)) s

/-- BARA with an immediate code (R287). -/
def execBaraImm (l : BitVec 3) (code : BitVec 15) (g : Guard) (s : State) : Host.Outcome State Fault Refusal :=
  guarded g (fun s => s.baraHead l.toNat code.toNat) s

end Sys2Proof.Machine
end

