-- ==== Sys2Proof/Machine/CtCsr.lean ====
section
/-! DEFINITION. The CSRs of the control thread: standard S-mode CSRs, device CSRs, what reading gives, what writing does, and the interrupts (R10, R46, R56, R145, R146, R148, R150, R152, R154, R155, R248, R304, R341, R380, R382, R383). -/
namespace Sys2Proof.Machine

/-! ### Interrupts (R146, R150) -/

/-- The supervisor timer interrupt is pending (R146). -/
def State.timerDue (s : State) (t : Nat) : Bool := decide ((s.ctl t).s.stimecmp.toNat ≤ s.now)

/-- sip (R150). -/
def State.sip (s : State) (t : Nat) : Word :=
  let c := s.ctl t
  BitVec.ofNat 64 (b01 c.s.ssip * 2 + b01 (s.timerDue t) * 32 + b01 (decide (c.d.mtfpend ≠ 0)) * 2 ^ 16 + b01 c.d.elV * 2 ^ 17 +
    b01 (decide (c.d.upPq ≠ 0)) * 2 ^ 18)

/-- The control thread takes interrupts: in U-mode, or with sstatus.SIE. -/
def Ctl.interruptible (c : Ctl) : Bool := decide (c.mode = .u) || c.s.stSie

/-- The pending and enabled interrupt that is taken first: 17, 16, 18, then external, software and timer (R150). -/
def State.interrupt (s : State) (t : Nat) : Option Nat :=
  let p := (s.sip t &&& (s.ctl t).s.sie).toNat
  if (s.ctl t).interruptible then [17, 16, 18, 9, 1, 5].find? (fun i => p.testBit i) else none

/-- The control thread of a task can act now. -/
def State.ctActive (s : State) (t : Nat) : Bool := (s.task t).active && !(s.task t).ending

/-- Interrupt `n` is taken; sepc holds the instruction it interrupts, a waiting one among them (R150). -/
def State.takeInterrupt (s : State) (t n : Nat) : State :=
  (s.updCtl t (fun c => c.trap true n 0)).updTask t (fun k => { k with resumedFor := none })

/-- A control thread that takes interrupts now: its task runs, and no save or move of it is under way; what arises in a quiescence is delivered on resumption (R299, R302). -/
def State.ctTakes (s : State) (t : Nat) : Bool := s.ctActive t && decide ((s.task t).st = .running)

/-- An interrupt is pending and enabled: it is taken before the next instruction executes or a waiting one returns (R150, log 115). -/
def State.intrFirst (s : State) (t : Nat) : Bool := s.ctTakes t && (s.interrupt t).isSome

/-- CT_INTERRUPT (R150). -/
def execCtInterrupt (t : Nat) (s : State) : Host.Outcome State Fault Refusal :=
  .next (match s.interrupt t with
    | some n => if s.ctTakes t ∧ n ≠ 5 then s.takeInterrupt t n else s
    | none => s)

/-- TIMER_INTERRUPT (R146). -/
def execTimerInterrupt (t : Nat) (s : State) : Host.Outcome State Fault Refusal :=
  .next (if s.ctTakes t && decide (s.interrupt t = some 5) then s.takeInterrupt t 5 else s)

/-! ### Reading -/

/-- ELFAULT (R155). -/
def DCsr.elfault (d : DCsr) : Word :=
  BitVec.ofNat 64 (d.elSeq % 256 + d.elCause % 256 * 256 + d.elQueue % 8 * 65536 + b01 d.elMore * 2 ^ 19 + b01 d.elV * 2 ^ 63)

/-- CTSYNC (R155). -/
def DCsr.ctsync (d : DCsr) : Word := BitVec.ofNat 64 (d.sig.toNat + d.go.toNat * 65536)

/-- States of a command in ECENT (R248). -/
def CmdSt.code : CmdSt → Nat
  | .accepted => 0
  | .begun => 1
  | .completed => 2
  | .discarded => 3

/-- ECENT: the entry whose sequence number ECSEL holds; DESIGN CHOICE, log 127: where none is held, SEQ still reads as ECSEL (R248). -/
def Arch.ecent (a : Arch) : Word :=
  match a.eng.cmds.find? (fun c => decide (c.uid % 256 = a.ctl.d.ecsel.toNat)) with
  | some c => BitVec.ofNat 64 (c.uid % 256 + c.major % 128 * 2 ^ 8 + c.queue % 8 * 2 ^ 15 + c.slot % 16 * 2 ^ 18 + c.st.code * 2 ^ 22 + 2 ^ 24)
  | none => BitVec.ofNat 64 a.ctl.d.ecsel.toNat

def InstSt.code : InstSt → Nat
  | .open_ => 0
  | .gathering => 1
  | .draining => 2
  | .aborted => 3
  | .timedout => 4

/-- BARSTL (R380). -/
def State.barst (s : State) (t l : Nat) : Word :=
  match SMap.find s.insts (s.myInst t l) with
  | some i => BitVec.ofNat 64 (i.st.code + i.code % 2 ^ 16 * 8 + i.arrived.length % 2 ^ 15 * 2 ^ 19)
  | none => 0
/-- BARPENDL (R380). -/
def State.barpend (s : State) (t l : Nat) : Word :=
  match SMap.find s.insts (s.myInst t l) with
  | some i => BitVec.ofNat 64 (wrap i.pend 48)
  | none => 0

/-- UNDOST (R383). -/
def State.undost (s : State) (t : Nat) : Word :=
  let b := (s.arch t).bar
  BitVec.ofNat 64 (b.undo.length % 2 ^ 14 + b01 b.undoOvf * 2 ^ 14 + b01 b.undoNr * 2 ^ 15 + b.rbcnt % 4 * 2 ^ 16)

/-- The standard S-mode CSRs by number (R145, R146, R148). -/
def State.stdCsr (s : State) (t n : Nat) : Option Word :=
  let c := (s.ctl t).s
  if n = 0x100 then some c.sstatus
  else if n = 0x104 then some c.sie
  else if n = 0x105 then some c.stvec
  else if n = 0x106 then some c.scounteren
  else if n = 0x10A then some c.senvcfg
  else if n = 0x140 then some c.sscratch
  else if n = 0x141 then some c.sepc
  else if n = 0x142 then some c.scause
  else if n = 0x143 then some c.stval
  else if n = 0x144 then some (s.sip t)
  else if n = 0x14D then some c.stimecmp
  else if n = 0x180 then some 0
  else none

/-- The device CSRs by number; write-only ones read 0 (R10, R56, R154, R155, R248, R304, R341, R380, R382, R383). -/
def State.devCsr (s : State) (t n : Nat) : Option Word :=
  let d := (s.ctl t).d
  if 0x5C0 ≤ n ∧ n ≤ 0x5CF then some (vget 0 d.lpa (n - 0x5C0))
  else if n = 0x5D0 then some d.elfault
  else if n = 0x5D1 then some (d.mtfpend.setWidth 64)
  else if n = 0x5D2 then some (d.upPq.setWidth 64)
  else if n = 0x5D3 then some (BitVec.ofNat 64 d.fibre)
  else if n = 0x5D4 then some d.ctsync
  else if n = 0x5D5 then some (d.ecsel.setWidth 64)
  else if 0x5D6 ≤ n ∧ n ≤ 0x5D8 then some 0
  else if 0xDC0 ≤ n ∧ n ≤ 0xDC9 then some (vget 0 d.mtfinfo (n - 0xDC0))
  else if 0xDD0 ≤ n ∧ n ≤ 0xDD9 then some (vget 0 d.mtfval (n - 0xDD0))
  else if n = 0xDDA then some d.elval
  else if 0xDDB ≤ n ∧ n ≤ 0xDDE then some (vget 0 d.upaddr (n - 0xDDB))
  else if n = 0xDDF then some (s.arch t).ecent
  else if n = 0xDE0 then some (BitVec.ofNat 64 (d.tqSt + d.tqIdx * 2 ^ 32))
  else if 0xDE1 ≤ n ∧ n ≤ 0xDE4 then some (s.barst t (n - 0xDE0))
  else if 0xDE5 ≤ n ∧ n ≤ 0xDE8 then some (s.barpend t (n - 0xDE4))
  else if n = 0xDE9 then some (s.undost t)
  else none

/-- The value of a CSR, where the number names one (R46, R145, R154). -/
def State.csrValue (s : State) (t n : Nat) : Option Word :=
  match s.stdCsr t n with
  | some v => some v
  | none =>
    match s.devCsr t n with
    | some v => some v
    | none => s.userCsr t n (decide ((s.ctl t).mode = .s))

/-- The access is legal: the number's lowest mode, no write to a read-only number, and scounteren in U-mode (R146, R154). -/
def Ctl.csrAllowed (c : Ctl) (n : Nat) (write : Bool) : Bool :=
  (decide (bits n 9 8 = 0) || (decide (bits n 9 8 = 1) && decide (c.mode = .s))) &&
  !(write && decide (bits n 11 10 = 3)) && (decide (c.mode = .s) || c.counterOk n)

/-! ### Writing -/

/-- Bits a write to sie can set (R145, R150). -/
def sieMask : Word := 0x7_0222
/-- Fields of LPAREA (R56). -/
def lpaMask : Word := 0x8000_000F_03FF_03FF

/-- A write of a standard S-mode CSR (R145). -/
def SCsr.write (c : SCsr) (n : Nat) (v : Word) : SCsr :=
  if n = 0x100 then
    { c with stSie := v.getLsbD 1, stSpie := v.getLsbD 5, stSpp := v.getLsbD 8, stSum := v.getLsbD 18, stMxr := v.getLsbD 19 }
  else if n = 0x104 then { c with sie := v &&& sieMask }
  else if n = 0x105 then { c with stvec := v &&& ~~~ 2 }
  else if n = 0x106 then { c with scounteren := v &&& 7 }
  else if n = 0x10A then { c with senvcfg := v &&& 1 }
  else if n = 0x140 then { c with sscratch := v }
  else if n = 0x141 then { c with sepc := v &&& ~~~ 1 }
  else if n = 0x142 then { c with scause := v }
  else if n = 0x143 then { c with stval := v }
  else if n = 0x144 then { c with ssip := v.getLsbD 1 }
  else if n = 0x14D then { c with stimecmp := v }
  else c

/-- Clearing ELFAULT.V clears MORE with it (R152, R155). -/
def DCsr.clearEl (d : DCsr) (v : Word) : DCsr := if v.getLsbD 63 then { d with elV := false, elMore := false } else d
/-- W1C of MTFPEND (R155). -/
def DCsr.clearMtf (d : DCsr) (v : Word) : DCsr := { d with mtfpend := d.mtfpend &&& ~~~ (v.setWidth 10) }
/-- CTSYNC: SIG is W1C, GO is written (R155). -/
def DCsr.writeSync (d : DCsr) (v : Word) : DCsr :=
  { d with sig := d.sig &&& ~~~ (v.setWidth 10), go := (v >>> 16).setWidth 10 }

/-- A write of LPAREAi: slots keep the old areas until their line end or stop point (R57). -/
def State.writeLpa (s : State) (t i : Nat) (v : Word) : State :=
  s.updArch t (fun a => a.keepLag.updD (fun d => { d with lpa := vset d.lpa i (v &&& lpaMask) }))

/-- The 512 bits of a record: MOD is 0 and STAMP is written by the module (R304). -/
def postRecord (l : List Word) (now : Nat) : Nat :=
  let w := fun i => (l.getD i 0).toNat
  (w 0 - b01 ((w 0).testBit 17) * 2 ^ 17) + w 1 * 2 ^ 64 + w 2 * 2 ^ 128 + now % 2 ^ 64 * 2 ^ 192 + w 4 * 2 ^ 256 + w 5 * 2 ^ 320 +
    w 6 * 2 ^ 384 + w 7 * 2 ^ 448

/-- A reserved field of a posted record is not zero, or its KIND may not be posted (R303, R304). -/
def postRefused (l : List Word) : Bool :=
  let w := fun i => (l.getD i 0).toNat
  decide (7 ≤ bits (w 0) 15 8 ∨ bits (w 0) 23 18 ≠ 0 ∨ bits (w 4) 63 48 ≠ 0)

/-- A write to TQPOST (R304, R305). TQRES.IDX is a free value unless ST is 0 (log 27). -/
def State.tqPost (s : State) (t : Nat) (v : Word) : State :=
  let off := bits v.toNat 21 6 * 64
  match s.ctReadFault t off 8 with
  | some e => s.ctRaise t e
  | none =>
    let l := s.ctWords t off 8
    if postRefused l then (s.updD t (fun d => { d with tqSt := 3, tqIdx := (Config.freeWord s.free).toNat % 2 ^ 32 })).draw
    else
      let r := s.trapAppend (s.task t).ctx (postRecord l s.now) ((l.getD 0 0).getLsbD 16)
      let idx := if r.2.1 = 0 then r.2.2 else (Config.freeWord s.free).toNat % 2 ^ 32
      (r.1.updD t (fun d => { d with tqSt := r.2.1, tqIdx := idx })).draw

/-- A write to GRPCTL (R382). -/
def State.writeGrpctl (s : State) (t : Nat) (v : Word) : State :=
  let op := bits v.toNat 1 0; let l := bits v.toNat 4 2
  if op = 1 then (if 1 ≤ l ∧ l ≤ 4 then s.rearm t l else s)
  else if op = 2 then
    let k := s.task t
    let top := match s.groupOf t with | none => 0 | some g => g.top
    s.sendRoot t top (.rbTrigger k.group t 0)
  else if op = 3 then s.killGroup (s.task t).group t 0
  else s

/-- A write to a CSR that its number and its mode permit; fields that are read-only are unchanged (R10). -/
def State.csrWrite (s : State) (t n : Nat) (v : Word) : State :=
  if n < 0x200 then s.updCtl t (fun c => { c with s := c.s.write n v })
  else if 0x5C0 ≤ n ∧ n ≤ 0x5CF then s.writeLpa t (n - 0x5C0) v
  else if n = 0x5D0 then s.updD t (fun d => d.clearEl v)
  else if n = 0x5D1 then s.updD t (fun d => d.clearMtf v)
  else if n = 0x5D3 then s.updD t (fun d => { d with fibre := bits v.toNat 21 9 * 512 })
  else if n = 0x5D4 then s.updD t (fun d => d.writeSync v)
  else if n = 0x5D5 then s.updD t (fun d => { d with ecsel := v.setWidth 8 })
  else if n = 0x5D6 then s.tqPost t v
  else if n = 0x5D7 then (if v.getLsbD 0 then s.taskEnd t else s)
  else if n = 0x5D8 then s.writeGrpctl t v
  else s

/-! ### Register writes as events (log 28) -/

/-- TQPOST: the runtime's write appends a record (R304). -/
def execTqpost (t : Nat) (v : Word) (s : State) : Host.Outcome State Fault Refusal :=
  .next (if s.writer t then s.tqPost t v else s)

/-- ELFAULT_CLEAR (R152). -/
def execElfaultClear (t : Nat) (s : State) : Host.Outcome State Fault Refusal :=
  .next (if s.writer t then s.updD t (fun d => d.clearEl (BitVec.ofNat 64 (2 ^ 63))) else s)

/-- MTFPEND_CLEAR (R155). -/
def execMtfpendClear (t : Nat) (v : Word) (s : State) : Host.Outcome State Fault Refusal :=
  .next (if s.writer t then s.updD t (fun d => d.clearMtf v) else s)

/-- CTSYNC_GO: bits of GO are set (R210). -/
def execCtsyncGo (t : Nat) (v : Word) (s : State) : Host.Outcome State Fault Refusal :=
  .next (if s.writer t then s.updD t (fun d => { d with go := d.go ||| (v >>> 16).setWidth 10 }) else s)

/-- LPAREA_WRITE (R56, R57). -/
def execLpareaWrite (t : Nat) (i : BitVec 4) (v : Word) (s : State) : Host.Outcome State Fault Refusal :=
  .next (if s.writer t then s.writeLpa t i.toNat v else s)

end Sys2Proof.Machine
end

