-- ==== Sys2Proof/Machine/CommandEvents.lean ====
section
/-! DEFINITION. The events of engine commands: COMMAND_BEGIN, WORD_LANDED, COMMAND_COMPLETE, COPY_LEASE_EXPIRY and TLOAD_DEADLINE; a barrier instance that no byte holds any more completes with them (R246, R247, R255, R258, R372, R399). -/
namespace Sys2Proof.Machine

/-- COMMAND_BEGIN (R246, R247). -/
def execCommandBegin (t q : Nat) (s : State) : Host.Outcome State Fault Refusal :=
  .next (State.drainCheck (match s.headCmd t q with
    | none => s
    | some c =>
      match c.fault with
      | some f => s.lateFault t c.uid f.1 f.2
      | none =>
        if !(s.arch t).mayBegin (s.task t).coord c then s
        else
          let s := s.flushBefore t c.slot c.after
          match c.op with
          | .copy d => s.beginCopy t c d
          | .tload d => s.beginTload t c d
          | _ => s.beginEasel t c))

/-- A location of the column that a begun easel command reads is read now: each takes effect for itself (R64). -/
def State.readEarly (s : State) (t : Nat) (c : Cmd) (idx : Nat) : State :=
  if c.op.readsTiles && decide (8 * idx < Config.undoBase) && !c.seen.any (fun e => decide (e.1 = 8 * idx)) then
    let k := s.colKey t (8 * idx)
    s.updEng t (fun e => e.updCmd c.uid (fun c => { c with seen := SMap.put c.seen (8 * idx) (BitVec.ofNat 64 (s.read k 8), s.poisonOf k) }))
  else s

/-- WORD_LANDED: one word of a begun copy is read and lands; a begun EZZST lands one of its words, and an easel command that reads the column reads one of its locations (R64, R65, R255, R376, log 106). -/
def execWordLanded (t num idx : Nat) (s : State) : Host.Outcome State Fault Refusal :=
  .next (State.drainCheck (match (s.eng t).find num with
    | none => s
    | some c =>
      if ¬ (c.st = .begun ∧ (s.task t).onCore) then s
      else
        match c.op with
        | .copy d => if idx < d.words ∧ idx ∉ c.landed then s.moveWord t c d idx else s
        | .ezzst z off mode =>
          if idx < zWords mode ∧ idx ∉ c.landed then
            (s.landZ t z off mode idx).updEng t (fun e => e.updCmd num (fun c => { c with landed := idx :: c.landed }))
          else s
        | _ => s.readEarly t c idx))

/-- COMMAND_COMPLETE: the begun command at the head of a queue (R82, R246). -/
def execCommandComplete (t q : Nat) (s : State) : Host.Outcome State Fault Refusal :=
  .next (State.drainCheck (match ((s.eng t).queue q).head? with
    | none => s
    | some c => if (s.task t).onCore then s.tryComplete t c else s))

/-- COPY_LEASE_EXPIRY: lease `idx` of a begun copy has ended before every word of its page moved; the entry is read again (R399). -/
def execCopyLeaseExpiry (t num idx : Nat) (s : State) : Host.Outcome State Fault Refusal :=
  .next (State.drainCheck (match (s.eng t).find num with
    | none => s
    | some c =>
      match c.op, c.leases[idx]? with
      | .copy d, some l =>
        if c.st = .begun ∧ (s.task t).onCore ∧ l.expiry ≤ s.now ∧ c.pageOpen l then
          match s.taskTranslate t (d.scopeOf l.write) (if l.write then .w else .r) (l.vpage * 65536) with
          | .error _ => s.lateFault t num 0x08 ((c.lowestOn l).getD 0)
          | .ok p =>
            let new : PageLease := ⟨l.vpage, l.write, p.key, p.tier, p.eph, s.grantedAt (s.task t).ctx (l.vpage * 65536) + Config.leaseLen⟩
            (s.useLeases t [new]).updEng t (fun e => e.updCmd num (fun c => { c with leases := c.leases.set idx new }))
        else s
      | _, _ => s))

/-- TLOAD_DEADLINE: a begun TLOAD whose deadline has come (R258). -/
def execTloadDeadline (t num : Nat) (s : State) : Host.Outcome State Fault Refusal :=
  .next (State.drainCheck (match (s.eng t).find num with
    | none => s
    | some c =>
      match c.op with
      | .tload d => if c.st = .begun ∧ d.deadline ≤ s.now then s.tloadTry t num else s
      | _ => s))

end Sys2Proof.Machine
end

