-- ==== Sys2Proof/Machine/Control.lean ====
section
/-! DEFINITION. Line and branch control and the system heads (R180 to R187, R211 to R213). -/
namespace Sys2Proof.Machine

/-- NOP (R180). -/
def execNop (s : State) : Host.Outcome State Fault Refusal := .next (s.retire id)

/-- The branch is taken: the line ends at this head and goes on at `pc`; `f` changes the slot first (R181). -/
def State.branch (s : State) (pc : BitVec 56) (f : Slot → Slot) : State :=
  s.retire (fun x => let x := f x; { x with line := { x.line with target := some pc } })

/-- The line of the current slot (R181). -/
def State.curLine (s : State) : Nat := s.cur.line_

/-- A branch by a register: the two checks of R181. -/
def State.viaReg (s : State) (v : Word) (k : BitVec 56 → State) : State :=
  if bits v.toNat 63 56 ≠ 0 then s.fault 0x08 v.toNat
  else if bits v.toNat 5 0 ≠ 0 then s.fault 0x05 v.toNat
  else k (pcAt v.toNat 1)

/-- A line address plus a delta, at its first head. -/
def State.viaDelta (s : State) (d : Int) : BitVec 56 := pcAt (deltaLine s.curLine d).toNat 1

/-- The link value of CALL and CALLX (R181). -/
def State.linkValue (s : State) : Word := BitVec.ofNat 64 ((s.curLine + 64) % 2 ^ 56)

/-- In follow mode a branch whose guard holds raises 0x01 (R182). -/
def State.unlessFollow (s : State) (k : State) : State := if s.cur.ind then k else s.fault 0x01 0

/-- BR (R181, R182). -/
def execBr (delta : Imm) (g : Guard) (s : State) : Host.Outcome State Fault Refusal :=
  guarded g (fun s => s.unlessFollow (s.branch (s.viaDelta (immInt delta)) id)) s

/-- BRX (R181, R182). -/
def execBrx (d : Reg) (g : Guard) (s : State) : Host.Outcome State Fault Refusal :=
  guarded g (fun s => s.unlessFollow (s.viaReg (s.cur.getM d) (fun pc => s.branch pc id))) s

/-- CALL (R181, R182). -/
def execCall (d : Reg) (delta : Imm) (g : Guard) (s : State) : Host.Outcome State Fault Refusal :=
  guarded g (fun s => s.unlessFollow (s.branch (s.viaDelta (immInt delta)) (fun x => x.setM d s.linkValue))) s

/-- CALLX: the target is read before the link is written (R181, R182). -/
def execCallx (d a : Reg) (g : Guard) (s : State) : Host.Outcome State Fault Refusal :=
  guarded g (fun s => s.unlessFollow
    (s.viaReg (s.cur.getM a) (fun pc => s.branch pc (fun x => x.setM d s.linkValue)))) s

/-- LOOP; in follow mode only delta 0 is legal (R182, R183). -/
def execLoop (d : Reg) (delta : BitVec 16) (g : Guard) (s : State) : Host.Outcome State Fault Refusal :=
  guarded g (fun s =>
    if s.cur.ind || decide (delta = 0) then
      let v := s.cur.getM d - 1
      if v = 0 then s.retire (fun x => x.setM d v) else s.branch (s.viaDelta delta.toInt) (fun x => x.setM d v)
    else s.fault 0x01 0) s

/-- The slot leaves follow mode (R184). -/
def Slot.independent (x : Slot) : Slot := { x with ind := true }

/-- FETCH with a line delta (R184). -/
def execFetch (delta : Imm) (g : Guard) (s : State) : Host.Outcome State Fault Refusal :=
  guarded g (fun s => s.branch (s.viaDelta (immInt delta)) Slot.independent) s

/-- FETCH with an address in a register (R184). -/
def execFetchReg (a : Reg) (g : Guard) (s : State) : Host.Outcome State Fault Refusal :=
  guarded g (fun s => s.viaReg (s.cur.getM a) (fun pc => s.branch pc Slot.independent)) s

/-- The signature of the line differs: FAULTED with 0x0B and the pc at the line's first head (R130). -/
def State.signatureFault (s : State) (t i : Nat) : State :=
  (s.updSlot t i (fun x => { x with pc := pcAt x.line_ 1, line := LineSt.none })).slotFault t i 0x0B 0

/-- The current slot stops: STOPPED, out of independent mode, with its registers and its inbox; an SP credit returns (R30, R31, R185). -/
def State.stopSlot (s : State) : State :=
  let x := s.cur
  let s := if x.id.sp then s.credit s.fTask x.id else s
  (s.updCur (fun x => { x with
    st := .stopped, ind := false, wr := .none, line := LineSt.none, cond := .none, cut := none, barEnd := none, part := [], far := none
    id := { x.id with sp := false } })).settle s.fTask s.fSlot

/-- STOP; the signature of the line is compared first (R128, R185). -/
def execStop (g : Guard) (s : State) : Host.Outcome State Fault Refusal :=
  guarded g (fun s => if s.cur.sigBad then s.signatureFault s.fTask s.fSlot else s.stopSlot) s

/-- YIELD (R186). -/
def execYield (g : Guard) (s : State) : Host.Outcome State Fault Refusal :=
  guarded g (fun s => s.retire (fun x => { x with budget := Config.runBudget })) s

/-- SAFEPT: the line has executed it; a second one raises 0x01 (R187). -/
def execSafept (mask : BitVec 27) (s : State) : Host.Outcome State Fault Refusal :=
  .next (if s.cur.line.safept.isSome then s.fault 0x01 0
    else s.retire (fun x => { x with line := { x.line with safept := some mask } }))

/-- RDSYS: one CSR of the core in the unprivileged view (R212). -/
def execRdsys (d : Reg) (csr : BitVec 12) (g : Guard) (s : State) : Host.Outcome State Fault Refusal :=
  guarded g (fun s =>
    match s.userCsr s.fTask csr.toNat false with
    | none => s.fault 0x01 0
    | some v => if (s.ctl s.fTask).counterOk csr.toNat then s.retire (fun x => x.setM d v) else s.fault 0x03 0) s

/-- The copies a slot has issued that are outstanding (R70). -/
def Arch.slotCopies (a : Arch) (i : Nat) : List Nat :=
  (a.eng.cmds.filter (fun c => c.out && decide (c.slot = i) && (match c.op with | .copy _ => true | _ => false))).map (·.uid)

/-- FENCE.CORE: the slot's store buffer empties, and the copies it has issued come before its later accesses (R70, R211). -/
def execFenceCore (g : Guard) (s : State) : Host.Outcome State Fault Refusal :=
  guarded g (fun s =>
    let l := (s.arch s.fTask).slotCopies s.fSlot
    (s.flushSlot s.fTask s.fSlot).retireOrd (fun x => { x with fenced := l })) s

/-- The value of ID (R213). -/
def State.idValue (s : State) (f : IdSel) : Nat :=
  match f with
  | .coord => s.me.coord.code
  | .slot => s.fSlot
  | .hops => s.cur.id.hops
  | .ident => s.cur.id.word
  | .ctx => s.me.ctx

/-- ID (R213). -/
def execId (f : IdSel) (d : Reg) (g : Guard) (s : State) : Host.Outcome State Fault Refusal :=
  guarded g (fun s => s.retire (fun x => x.setM d (BitVec.ofNat 64 (s.idValue f)))) s

end Sys2Proof.Machine
end

