-- ==== Sys2Proof/Machine/Pipe.lean ====
section
/-! DEFINITION. The issue pipe: what it does next, line entry, line end, the run budget, passing the pipe, wait conditions, and stores that land (R31 to R36, R65, R125 to R130, R181, R187). -/
namespace Sys2Proof.Machine

/-- The RUNNING slot of a core. -/
def Arch.runner (a : Arch) : Option Nat := (List.range 10).find? (fun i => decide ((a.slot i).st = .running))

/-- The task comes to quiescence (R299). -/
def Task.quiescing (k : Task) : Bool := decide (k.st = .quiesceSave ∨ k.st = .quiesceMove)
/-- Slot `x` may take the pipe and enter a line: not while the task is halted, while ELFAULT.V is 1, or, for a save or move, once it has stopped; a bulk-class task lets none (R34, R152, R293, R299). -/
def Task.mayEnter (k : Task) (x : Slot) : Bool :=
  !k.halted && !k.arch.ctl.d.elV && k.cutRes.isNone &&
    (decide (k.st = .running) || (k.quiescing && !k.bulk && x.quiet.isNone))

/-- What the pipe does next. -/
inductive PipeAct
  | head (slot : Nat) (i : Instr)
  /-- The head fails step 2 of R126. -/
  | bad (slot : Nat)
  | event (i : Instr)
  deriving DecidableEq, Repr

/-- Step 2 of R126 beyond the head's own fields: a terminator that is not last, a SAFEPT in a line with SP = 0. -/
def placeOk (img : List Half) (k : Nat) (i : Instr) : Bool :=
  (!isTerminator i || decide (k = lineHeads img)) && (match i with | .safept _ => lineSP img | _ => true)

/-- What the pipe of task `t` does next (R35, R125, R126). -/
def State.pipeAct (s : State) (t : Nat) : PipeAct :=
  let a := s.arch t
  match a.runner with
  | none => .event (.pipeIdleWake t)
  | some i =>
    let l := (a.slot i).line
    if !l.entered then (if Config.runBudget ≤ (a.slot i).budget then .event (.runBudgetReached t) else .event (.lineEntry t))
    else
      let img := l.img.getD []
      if lineHeads img < l.next then .event (.lineEnd t)
      else
        match headInstr img l.next with
        | .error _ => .bad i
        | .ok h => if placeOk img l.next h then .head i h else .bad i

/-- A line cannot be entered: FAULTED at slot 1 of the line, whose address goes to MTFVAL, also where the slot would have gone on at a stop point (R126, R181). -/
def State.entryFault (s : State) (t i cause : Nat) : State :=
  (s.updSlot t i (fun x => { x with pc := pcAt x.line_ 1, line := LineSt.none })).slotFault t i cause (s.slot t i).line_

/-- The mask of a SAFEPT among the heads before slot `n`, which a slot that goes on in mid-line has executed (R33, R187). -/
def safeptBefore (img : List Half) (n : Nat) : Option (BitVec 27) :=
  ((headNumbers img).filter (· < n)).findSome? (fun k =>
    match headInstr img k with
    | .ok (.safept m) => some m
    | _ => none)

/-- The line's image is checked and entered, at its first head or at the stop point the slot goes on at (R33, R126). -/
def State.enterImage (s : State) (t i : Nat) (img : List Half) : State :=
  if !lineOk img then s.entryFault t i 0x01
  else
    s.updSlot t i (fun x =>
      { x with budget := x.budget + 1
               line := { img := some img, entered := true, next := if headOfPc x.pc = 0 then 1 else headOfPc x.pc,
                         target := none, unchecked := x.line.unchecked, safept := safeptBefore img (headOfPc x.pc), arrived := x.line.arrived } })

/-- A rollback-level completion that waits for the core's line end takes its cut before anything else of the pipe (R377, R387). -/
def State.afterCut (s : State) (t : Nat) (k : State) : State := if s.cutDue t then (s.cutNow t).drainCheck else k

/-- LINE_ENTRY (R126, R127, R181). -/
def execLineEntry (t : Nat) (s : State) : Host.Outcome State Fault Refusal :=
  .next (s.afterCut t <| match (s.arch t).runner with
    | none => s
    | some i =>
      let x := s.slot t i
      if x.line.entered || !(s.task t).mayEnter x then s
      else
        match x.line.img with
        | some img => s.enterImage t i img
        | none =>
          let r := s.fetchLine t x.line_
          match r.2 with
          | .error c => r.1.entryFault t i c
          | .ok img => r.1.enterImage t i img)

/-- A slot saved at the end of a SAFEPT line keeps the registers of the mask (R187). -/
def Slot.keepMask (x : Slot) (mask : BitVec 27) : Slot :=
  { x with
    m := Vector.ofFn (fun (i : Fin 10) => if mask.getLsbD i.val then vget 0 x.m i.val else 0)
    q := Vector.ofFn (fun (i : Fin 16) => if mask.getLsbD (10 + i.val) then vget 0 x.q i.val else 0)
    pw := if mask.getLsbD 26 then x.pw else 0 }

/-- The slot after its line: the branch target, the next line, or a wait for the next broadcast (R125, R181, R182). -/
def Slot.afterLine (x : Slot) : Slot :=
  match x.line.target with
  | some p =>
    { x with pc := p, line := { LineSt.none with img := if x.ind then none else x.line.img } }
  | none =>
    if x.ind then { x with pc := pcAt (x.line_ + 64) 1, line := LineSt.none }
    else { x with st := .waiting, wr := .broadcast, cond := .none, line := LineSt.none }

/-- A prompt-class slot that a save or move waits for stops at the end of its SAFEPT line (R187, R299). -/
def Slot.stopQuiet (x : Slot) (mask : BitVec 27) : Slot :=
  { x with quiet := some mask, st := if x.st = .running then .ready else x.st }

/-- LINE_END (R31, R125, R128, R130, R187, R299). A line at whose own end a pending MTKILL takes effect has run all its heads: the model does not count it as ended by MTKILL and checks it first (log 109). -/
def execLineEnd (t : Nat) (s : State) : Host.Outcome State Fault Refusal :=
  .next (match (s.arch t).runner with
    | none => s
    | some i =>
      let x := s.slot t i
      if !x.line.entered || !decide (lineHeads (x.line.img.getD []) < x.line.next) then s
      else if x.sigBad then s.signatureFault t i
      else
        let save := (s.task t).quiescing && !(s.task t).bulk
        let s := s.updSlot t i (fun x =>
          let y := x.afterLine
          match x.line.safept with
          | some m => if save then y.stopQuiet m else y
          | none => y)
        s.settle t i)

/-- The next holder of the pipe after slot `h` (R35, R299). -/
def Task.nextHolder (k : Task) (h : Nat) : Option Nat :=
  ((List.range 10).map (fun i => (h + 1 + i) % 10)).find? (fun c =>
    decide ((k.arch.slot c).st = .ready) && k.mayEnter (k.arch.slot c))

/-- A READY slot takes the pipe; a resumption at a stop point counts as one line (R31, R35). -/
def Arch.give (a : Arch) (c : Nat) : Arch :=
  { a.updSlot c (fun x => { x with st := .running, budget := b01 x.line.entered }) with holder := c }

/-- RUN_BUDGET_REACHED (R35). -/
def execRunBudgetReached (t : Nat) (s : State) : Host.Outcome State Fault Refusal :=
  .next (s.afterCut t <| match (s.arch t).runner with
    | none => s
    | some i =>
      let x := s.slot t i
      if x.line.entered || decide (x.budget < Config.runBudget) || !(s.task t).mayEnter x then s
      else
        match (s.task t).nextHolder i with
        | none => s.updSlot t i (fun x => { x with budget := 0 })
        | some c => s.updArch t (fun a => (a.updSlot i (fun x => { x with st := .ready })).give c))

/-- PIPE_IDLE_WAKE: the pipe is free and passes to the next READY slot (R35). -/
def execPipeIdleWake (t : Nat) (s : State) : Host.Outcome State Fault Refusal :=
  .next (s.afterCut t <| if !(s.task t).active || (s.arch t).runner.isSome then s
    else
      match (s.task t).nextHolder (s.arch t).holder with
      | none => s
      | some c => s.updArch t (fun a => a.give c))

/-- The wait condition of a slot holds (R31, R33). -/
def State.condHolds (s : State) (t : Nat) (x : Slot) : Bool :=
  let a := s.arch t
  match x.cond with
  | .none => false
  | .message tag => a.msgs.mailbox.any (fun m => decide (m.tag = tag))
  | .join mask => a.eng.joined (x.cut.getD []) mask
  | .drain p => a.eng.pathsClear (s.task t).coord (x.cut.getD []) [p]
  | .sem i thr => decide (thr ≤ (a.eng.sem i).toNat)
  | .ring => !a.eng.full
  | .barrier _ => (match x.barEnd with | some (.done _) => true | _ => false)
  | .abort _ => decide (x.barEnd = some .recorded)
  | .inbox => !x.inbox.isEmpty
  | .go => false
  | .generation v _ => s.onVega t == v

/-- The condition of slot `i`, with the GO bit of R210. -/
def State.waitOver (s : State) (t i : Nat) : Bool :=
  let x := s.slot t i
  match x.cond with
  | .go => (s.ctl t).d.go.getLsbD i
  | _ => s.condHolds t x

/-- WAIT_CONDITION_HOLDS: the slot is READY and its head executes again (R31, R34). -/
def execWaitConditionHolds (t slot : Nat) (s : State) : Host.Outcome State Fault Refusal :=
  .next (s.afterCut t <| if decide ((s.slot t slot).st = .waiting ∧ (s.task t).st = .running) && !(s.task t).halted && s.waitOver t slot then
      s.updSlot t slot (fun x => { x with st := .ready, wr := .none, cond := .none })
    else s)

/-- No earlier entry of the buffer lies in the location of entry `idx` (R65, R68). -/
def landable (sb : List SbEntry) (idx : Nat) : Option SbEntry :=
  match sb[idx]? with
  | none => none
  | some e => if (sb.take idx).any (fun f => decide (f.off / 8 = e.off / 8)) then none else some e

/-- STORE_BUFFER_LAND: entry `idx` of the store buffer of a slot, or of the control thread as slot 10, lands (R65). -/
def execStoreBufferLand (t slot idx : Nat) (s : State) : Host.Outcome State Fault Refusal :=
  .next (if !(s.task t).onCore then s
    else if slot = 10 then
      match landable (s.ctl t).sb idx with
      | none => s
      | some e => (s.landColumn t e.off e.n e.val).updCtl t (fun c => { c with sb := c.sb.eraseIdx idx })
    else
      match landable (s.slot t slot).sb idx with
      | none => s
      | some e => (s.landColumn t e.off e.n e.val).updSlot t slot (fun x => { x with sb := x.sb.eraseIdx idx }))

end Sys2Proof.Machine
end

