-- ==== Sys2Proof/Machine/Moves.lean ====
section
/-! DEFINITION. Quiescence, moves and saves of tasks (R85 to R87, R187, R294, R299 to R302, R355 to R367, R439). -/
namespace Sys2Proof.Machine

/-! ### Quiescence (R299, R300, R360) -/

/-- A slot is at rest for a save or a move: a prompt-class slot has passed a SAFEPT line end or a stop point, unless ELFAULT holds the pipe (R152, R299). -/
def Task.slotRests (k : Task) (x : Slot) : Bool :=
  match x.st with
  | .travelling => false
  | .running => !x.line.entered && (k.bulk || k.arch.ctl.d.elV || x.quiet.isSome)
  | .ready => k.bulk || k.arch.ctl.d.elV || x.quiet.isSome
  | _ => true

/-- The instruction that the control thread waits in is one whose wait saves the task (R166, R168). -/
def CtWait.saves : CtWait → Bool
  | .joink .. => true
  | .launchW .. => true
  | _ => false
/-- The control thread is at a boundary where it can stop: in U-mode, in S-mode with SIE = 1, or in an instruction that itself saves or moves the task (R166, R168, R173, R299). -/
def Task.ctRests (k : Task) : Bool :=
  let c := k.arch.ctl
  decide (c.mode = .u) || c.s.stSie || c.wait.saves || c.dflt || (decide (k.st = .quiesceMove) && decide (k.mvWhy = .lmigr))

def CmdOp.isEasel : CmdOp → Bool
  | .copy _ => false
  | .tload _ => false
  | _ => true

/-- A begun command of the bulk class, or an easel command that a move carries, begins again later; the words of a copy count again (R272, R300, R360, R376). -/
def State.revert (s : State) (t : Nat) (c : Cmd) : State :=
  let s := match c.op with
    | .copy _ => s.pendAdd c.counted (8 * c.landed.length : Nat)
    | _ => s
  (s.dropWords (.copy t c.uid)).updEng t (fun e => e.updCmd c.uid (fun c => { c with st := .accepted, again := true, landed := [], sent := [], leases := [], seen := [] }))

/-- Begun commands that may not be left behind: in the prompt class every copy and TLOAD, and for a save or dt.lmigr every easel command too (R299, R360, R367). -/
def Task.mustEnd (k : Task) (move : Bool) (c : Cmd) : Bool :=
  decide (c.st = .begun) && !k.bulk && !(move && decide (k.mvWhy ≠ .lmigr) && c.op.isEasel)

/-- Begun commands at quiescence: easel commands complete with `easelDone`, the others begin again later (R272, R299, R300). -/
def State.restCmds (s : State) (t : Nat) (easelDone : Bool) : State :=
  ((s.eng t).cmds.filter (fun c => decide (c.st = .begun))).foldl (fun (s : State) c =>
    if easelDone && c.op.isEasel then
      match (s.eng t).find c.uid with
      | some c => s.tryComplete t c
      | none => s
    else s.revert t c) s

/-- The slots as they are saved: a RUNNING slot is READY, under `mask` a slot that stopped after a SAFEPT line keeps the registers of its mask, and a line left at a stop point is not signature checked (R130, R187, R299, R301). -/
def Slot.atRest (x : Slot) (mask : Bool) : Slot :=
  let x := match x.quiet with
    | some m => if mask then x.keepMask m else x
    | none => x
  { x.reread with
    quiet := none
    st := if x.st = .running then .ready else x.st
    line := { x.line with unchecked := x.line.unchecked || x.line.entered } }

/-- The task has come to quiescence: store buffers are empty and no command is begun (R85, R299). -/
def State.quiesce (s : State) (t : Nat) (easelDone move : Bool) : Option State :=
  let k := s.task t
  if k.halted || k.ending || k.cutRes.isSome || k.arch.seq.isSome || !k.ctRests || !k.arch.slots.toList.all k.slotRests ||
      k.arch.eng.cmds.any (k.mustEnd move) then none
  else
    let s := (s.flushTask t).restCmds t easelDone
    some (s.updArch t (fun a => { a.dropAhead with slots := a.slots.map (fun x => x.atRest (!move)) }))

/-! ### Save requests (R355) -/

/-- A save of the task is requested (R355). -/
def Task.askSave (k : Task) (w : SaveWhy) : Task :=
  if k.ending then k
  else
    match k.st with
    | .running => { k with st := .quiesceSave, why := w, resumedFor := none }
    | .quiesceMove => { k with st := .quiesceSave, why := w, landing := none, trapSince := none, ezSince := none }
    | .moving => { k with why := w }
    | .quiesceSave => { k with why := if k.why = .wait then w else k.why }
    | .saving => { k with why := if k.why = .wait then w else k.why }
    | .saved => { k with why := if k.why = .wait then k.why else w }
    | _ => k

/-- A save of every task of a group is requested (R349, R355). -/
def State.saveGroup (s : State) (g : Nat) (w : SaveWhy) : State :=
  match SMap.find s.groups g with
  | none => s
  | some x => x.tasks.foldl (fun (s : State) t => s.updTask t (fun k => if k.live then k.askSave w else k)) s

/-! ### Moves (R358 to R367) -/

/-- The slot has waited 100,000 pt for another generation (R359). -/
def State.overdue (s : State) (x : Slot) : Bool :=
  decide (x.st = .waiting) && (match x.cond with | .generation _ n => decide (n + 100_000 ≤ s.now) | _ => false)

/-- The request of the trap still stands: 100,000 pt have not passed since it was made, or since a slot or the easel joined it (R357, R359). -/
def State.trapLives (s : State) (t : Nat) : Bool :=
  let k := s.task t
  (match k.trapSince with | some n => decide (s.now < n + 100_000) | none => false) ||
    k.arch.slots.toList.any (fun x => decide (x.st = .waiting ∧ x.wr = .migrate) && !s.overdue x) ||
    (match k.ezSince with | some n => decide (s.now < n + 100_000) | none => false)

/-- A slot or the easel command has waited 100,000 pt for a grant (R359). -/
def State.trapLate (s : State) (t : Nat) : Bool :=
  let k := s.task t
  k.arch.slots.toList.any (fun x => s.overdue x) || (match k.ezSince with | some n => decide (n + 100_000 ≤ s.now) | none => false)

/-- LANDING_GRANT: the distributors answer an ask, none while a slot or the easel has waited too long: one grants a landing place of the other generation, or none has one (R358, R359). -/
def execLandingGrant (t : Nat) (s : State) : Host.Outcome State Fault Refusal :=
  .next (let k := s.task t
    if decide (k.st = .running) && k.trapSince.isSome && k.trapOpen && s.trapLives t && !s.trapLate t && !k.halted && !k.ending then
      match s.landingFor t (!s.onVega t) with
      | some p => s.updTask t (fun k => { k with st := .quiesceMove, landing := some p, mvWhy := .trap, trapOpen := false })
      | none => s.updTask t (fun k => { k with trapOpen := false })
    else s)

/-- LANDING_RETRY: the trap asks again every 10,000 pt (R359). -/
def execLandingRetry (t : Nat) (s : State) : Host.Outcome State Fault Refusal :=
  .next (let k := s.task t
    if k.trapSince.isSome && decide (k.trapAsk + 10_000 ≤ s.now) then s.updTask t (fun k => { k with trapAsk := s.now, trapOpen := true })
    else s)

/-- The head of the easel queue has waited 100,000 pt: a late fault 0x13 and the module's record (R306, R359). -/
def State.easelTimeout (s : State) (t : Nat) : State :=
  match ((s.eng t).queue 4).head? with
  | none => s
  | some c =>
    (s.lateFault t c.uid 0x13 0).moduleRecord t 0x13 1 0x14 0 0 (c.uid % 256) false

/-- The trap asks on while a slot or the easel still waits, and for 100,000 pt also where the waiting slot has been killed (R357, R359). -/
def State.endTrap (s : State) (t : Nat) : State :=
  if (s.arch t).slots.toList.any (fun x => decide (x.wr = .migrate)) || (s.task t).ezSince.isSome || s.trapLives t then s
  else s.updTask t (fun k => { k with trapSince := none, trapOpen := false })

/-- Without a grant for 100,000 pt the trapping slots are FAULTED with 0x13, and an easel command that could not begin faults late; the module appends its records (R306, R359). -/
def State.trapOut (s : State) (t : Nat) : State :=
  let k := s.task t
  if decide (k.st ≠ .running) || k.trapSince.isNone then s
  else
    let due := (List.range 10).filter (fun i => s.overdue (s.slot t i))
    let s := due.foldl (fun (s : State) i =>
      let pc := (s.slot t i).pc.toNat
      (s.slotFault t i 0x13 0).moduleRecord t 0x13 0 i pc 0 0 false) s
    let s := match (s.task t).ezSince with
      | some n => if n + 100_000 ≤ s.now then (s.easelTimeout t).updTask t (fun k => { k with ezSince := none }) else s
      | none => s
    s.endTrap t

/-- LANDING_TIMEOUT (R306, R359). -/
def execLandingTimeout (t : Nat) (s : State) : Host.Outcome State Fault Refusal := .next (s.trapOut t)

def State.setFwd (s : State) (p : Phys) (l : List Fwd) : State :=
  { s with cores := { s.cores with fwd := SMap.set [] s.cores.fwd p.index l } }

/-- Channels on which a move sends markers: each context channel, the data class and the reply class (R366). -/
def markerChannels : List Nat := List.range 16 ++ [16, 19]

/-- The markers of every network interface on a channel can be in: each follows the packets that its interface resolved under the old entry, and none of those for the moving task is still on its way; new ones are held at their senders (R53, R366, log 108). -/
def State.markersIn (s : State) (k : Task) (ch : Nat) : Bool :=
  !s.net.any (fun p => decide (p.dst = k.coord ∧ p.ctx = k.ctx ∧ p.ch = ch) && (match p.path with | some (_ :: _) => true | _ => false))

/-- The packets that stand at a vacated core are passed on (R360, R366). -/
def State.passOn (s : State) (old : Phys) (c : Coord) (ctx : Nat) : State :=
  { s with net := s.net.map (fun p =>
      if p.dst = c ∧ p.ctx = ctx ∧ p.goal = old ∧ p.path = some [] ∧ p.heldFor = none ∧ p.lost = false then s.atGoal p else p) }

/-- Send-buffer entries without a hold enter the network before a save ends or a move begins; one for the own coordinate whose mailbox is full waits there as any message does (R277). -/
def State.sendUnheld (s : State) (t : Nat) : Nat → State
  | 0 => s
  | n + 1 =>
    match (List.range 16).find? (fun i => match (s.arch t).msgs.sendable i with | some e => s.holdOver t e | none => false) with
    | none => s
    | some i =>
      match (s.arch t).msgs.sendable i with
      | some e =>
        let s' := s.sendOut t i e
        let s' := if (s'.arch t).msgs.sendb.length < (s.arch t).msgs.sendb.length then s'
          else (s.updMsgs t (fun q => { q with sendb := q.sendb.eraseIdx i })).emit t e.dst (.msg e.msg)
        s'.sendUnheld t n
      | none => s

/-- MOVE_QUIESCENCE: MOVING is set, the forwarding entry is made and the transfer begins; a seventeenth entry waits (R277, R360, R366). -/
def execMoveQuiescence (t : Nat) (easelDone : Bool) (s : State) : Host.Outcome State Fault Refusal :=
  .next (let k := s.task t
    match k.landing with
    | none => s
    | some q =>
      if decide (k.st ≠ .quiesceMove) || decide (16 ≤ (s.fwdOf k.phys).length) then s
      else
        match s.quiesce t easelDone true with
        | none => s
        | some s =>
          let s := s.sendUnheld t 16
          let s := s.setEntry k.coord { s.entry k.coord with moving := true }
          let s := (s.setFwd k.phys (s.fwdOf k.phys ++ [⟨k.coord, k.ctx, q⟩])).passOn k.phys k.coord k.ctx
          s.updTask t (fun k => { k with st := .moving, markers := markerChannels, trapSince := none, trapOpen := false }))

/-- Bytes of a column. -/
def columnBytes : Nat := 0x30_0000

/-- MOVE_TRANSFER_COMPLETE: the column and the state are on the new core and the core table names it; a move for retirement retires the old core, and its spare is the new home (R16, R360, R361, R368). -/
def execMoveTransferComplete (t : Nat) (s : State) : Host.Outcome State Fault Refusal :=
  .next (let k := s.task t
    match k.landing with
    | none => s
    | some q =>
      if k.st ≠ .moving then s
      else
        let old := k.phys
        let gone := decide (k.mvWhy = .retire)
        let s := s.copyMem (columnKey old 0) (columnKey q 0) columnBytes
        let s := (s.setEntry k.coord { s.entry k.coord with phys := q }).dropICopies q
        let s := s.updTask t (fun k => { k with phys := q, landing := none })
        let s := if gone && decide (k.home = old) then (s.noteMap k.coord q).rehome old q else s
        if gone then s.retireEmpty old else s.retireColumn old)

/-- The slot that stopped first at the trapping head, among those the new core serves (R364). -/
def State.trapped (s : State) (t : Nat) : Option Nat :=
  let l := (List.range 10).filterMap (fun i =>
    match (s.slot t i).cond with
    | .generation v n => if (s.slot t i).st = .waiting ∧ s.onVega t = v then some (n, i) else none
    | _ => none)
  (l.foldl (fun (acc : Option (Nat × Nat)) x => match acc with | none => some x | some y => if x.1 < y.1 then some x else acc) none).map (·.2)

/-- The task runs on its new core: MOVING and the forwarding entry clear; the trapping slot takes the pipe first, and a slot that needs another core still asks again (R355, R364, R366). -/
def State.landed (s : State) (t : Nat) : State :=
  let k := s.task t
  let s := s.setEntry k.coord { s.entry k.coord with moving := false }
  let s : State := { s with cores := { s.cores with
    fwd := (s.cores.fwd.map (fun e => (e.1, e.2.filter (fun f => decide (¬ (f.coord = k.coord ∧ f.ctx = k.ctx)))))).filter (fun e => !e.2.isEmpty) } }
  let h := match s.trapped t with
    | some i => (i + 9) % 10
    | none => if k.ezSince.isSome then 9 else k.arch.holder
  let s := s.updArch t (fun a => { a with holder := h })
  let s := s.updTask t (fun k =>
    let k := { k with st := .running, markers := [], ezSince := none, trapSince := none, trapOpen := false }
    if k.why = .none then k else k.askSave k.why)
  s.askAnew t

/-- MARKER_ARRIVAL: the markers on one more channel are in; with the last the task runs, and packets held at their senders go on (R53, R366). -/
def execMarkerArrival (t : Nat) (s : State) : Host.Outcome State Fault Refusal :=
  .next (let k := s.task t
    if decide (k.st ≠ .moving) || k.landing.isSome then s
    else
      match k.markers.find? (fun c => s.markersIn k c) with
      | none => s
      | some c =>
        if k.markers.length = 1 then (s.landed t).pump
        else s.updTask t (fun k => { k with markers := k.markers.erase c }))

/-! ### Saves (R299 to R302) -/

/-- The lowest save frame of the context that no task uses. -/
def State.freeSaveFrame (s : State) (c : Nat) : Option Nat :=
  let used := s.tasks.filterMap (fun e => if e.2.live ∧ e.2.ctx = c then e.2.frame else none)
  (List.range (min (s.ctx c).saveframes (used.length + 1))).find? (fun f => !used.contains f)

/-- SAVE_QUIESCENCE: the task is quiescent and its frame is written next (R299, R355). -/
def execSaveQuiescence (t : Nat) (easelDone : Bool) (s : State) : Host.Outcome State Fault Refusal :=
  .next (let k := s.task t
    match (if k.frame.isSome then k.frame else s.freeSaveFrame k.ctx) with
    | none => s
    | some f =>
      if k.st ≠ .quiesceSave then s
      else
        match s.quiesce t easelDone false with
        | none => s
        | some s => s.updTask t (fun k => { k with st := .saving, frame := some f, landing := none, trapSince := none, ezSince := none }))

/-- Address of a save frame of a context (R289, R301). -/
def State.frameVa (s : State) (c f : Nat) : Nat := (s.ctx c).savebase + f * 0x40_0000

/-- Keys of the 64 pages of a save frame, the first 48 for the column image; none where one does not translate or cannot be written now (R301). -/
def State.framePages (s : State) (c f : Nat) (need : Perm) : Option (List Place) :=
  ((List.range 64).map (fun i => s.frameVa c f + 65536 * i)).foldr (fun va acc =>
    match acc, s.translate c 0 0 3 need va with
    | some l, .ok p => if need = .w ∧ s.writeHeld p.key then none else some (p :: l)
    | _, _ => none) (some [])

/-- The cells of `n` bytes from a key, numbered from `base`. -/
def State.cells (s : State) (k n base : Nat) : List Host.Cell :=
  (s.mem.filter (fun e => decide (k ≤ e.1 ∧ e.1 < k + n))).map (fun e => (e.1 - k + base, e.2))

/-- `n` words from a key take free values. -/
def State.fillFree (s : State) (k : Nat) : Nat → State
  | 0 => s
  | n + 1 => ((s.write k (Config.freeWord s.free).toNat 8).draw).fillFree (k + 8) n

/-- The accesses to the pages of a save frame are gathered (R401). -/
def State.gatherFrame (s : State) (t f : Nat) (write : Bool) : State :=
  let c := (s.task t).ctx
  (List.range 64).foldl (fun (s : State) i => s.gather c (s.frameVa c f + 65536 * i) write (s.kerKey t)) s

/-- A page of a save frame takes writes: not an ephemeral one past its deadline (R409). -/
def State.takesWrite (s : State) (p : Place) : Bool := !(p.eph && decide ((s.ephOf (p.key / 65536)).deadline ≤ s.now))
/-- A page of a save frame has been written whole: a resident copy is dirty, and the words of an ephemeral page hold data but for those that took expired poison (R404, R409). -/
def State.pageWritten (s : State) (p : Place) : State :=
  if p.eph then
    let l := (List.range 8192).filter (fun w => decide (s.poisonOf (p.key / 65536 * 65536 + 8 * w) ≠ .expired))
    s.setEph (p.key / 65536) { s.ephOf (p.key / 65536) with good := l }
  else if isLpddr p.key && decide ((s.resid (p.key / 65536)).st = .resident) then
    s.setResid (p.key / 65536) { s.resid (p.key / 65536) with dirty := true }
  else s

/-- The column goes to the first 48 pages of the frame, but for ephemeral ones past their deadline (R409); the opaque state is kept in the task, and the bytes that hold it and its tag are free values (R301, log 12). -/
def State.writeFrame (s : State) (t : Nat) (ps : List Place) : State :=
  (ps.drop 48).foldl (fun (s : State) p => if s.takesWrite p then (s.fillFree (s.served p.key) 8192).pageWritten p else s)
    ((ps.take 48).zipIdx.foldl (fun (s : State) e =>
      if s.takesWrite e.1 then (s.copyMem (s.colKey t (65536 * e.2)) (s.served e.1.key) 65536).pageWritten e.1 else s) s)

/-- The frame's contents as its tag covers them (R301). -/
def State.frameCells (s : State) (ps : List Place) : List Host.Cell :=
  (ps.zipIdx).flatMap (fun e => s.cells (s.served e.1.key) 65536 (65536 * e.2))

/-- SAVE_FRAME_WRITTEN: the frame holds the column; the core is released, and a visitor's place with it (R301, R302, R355, R363). -/
def execSaveFrameWritten (t : Nat) (s : State) : Host.Outcome State Fault Refusal :=
  .next (let k := s.task t
    match k.frame with
    | none => s
    | some f =>
      if k.st ≠ .saving then s
      else
        match s.framePages k.ctx f .w with
        | none => s
        | some ps =>
          let s := ((s.sendUnheld t 16).writeFrame t ps).gatherFrame t f true
          let img := s.frameCells ps
          let s := s.unvisit t
          let s := s.updTask t (fun k => { k with st := .saved, phys := k.home, frameImg := img, savedAt := s.now })
          s.retireColumn k.phys)

/-! ### Resumption (R301, R346, R355, R363, R439) -/

/-- A group still has a task running, quiescing or moving (R346). -/
def State.partlySaved (s : State) (g : Nat) : Bool := s.tasks.any (fun e => decide (e.2.group = g) && e.2.live && decide (e.2.st ≠ .saved))

/-- The task can take its home core: its context is RESIDENT, no other task runs there or at its coordinate, has it reserved or is moving to it, and no saved task of another partly saved group holds it (R294, R346, R355, R362). -/
def State.canSeat (s : State) (t : Nat) : Bool :=
  let k := s.task t
  decide (k.st = .saved) && decide ((s.ctx k.ctx).st = .resident) && s.validCoord k.coord && !s.cores.marked.contains k.home &&
    !s.tasks.any (fun e => decide (e.1 ≠ t) && e.2.live &&
      (decide ((e.2.st ≠ .saved ∧ (e.2.phys = k.home ∨ e.2.home = k.home ∨ e.2.coord = k.coord)) ∨ e.2.landing = some k.home) ||
        (decide (e.2.coord = k.coord ∧ e.2.group ≠ k.group) && s.partlySaved e.2.group)))

/-- The frame goes back to the column. -/
def State.readFrame (s : State) (t : Nat) (ps : List Place) : State :=
  (ps.take 48).zipIdx.foldl (fun (s : State) e => s.copyMem (s.served e.1.key) (s.colKey t (65536 * e.2)) 65536) s

/-- The state of a resumed task: a slot that needs the other generation than its home core's asks again (R363). -/
def Task.resumed (k : Task) (now : Nat) (halt : Bool) : Task :=
  let a := { k.arch with slots := k.arch.slots.map (fun x => x.trapOn (Config.vegaken k.phys.d) now) }
  let again := a.slots.toList.any (fun x => decide (x.wr = .migrate))
  { k with st := .running, why := .none, halted := halt, trapSince := if again then some now else none, trapAsk := now, trapOpen := again
           arch := a }

/-- The credits that the distributor holds for a task are applied to its count (R40). -/
def State.applyCredits (s : State) (t : Nat) : State :=
  let k := s.task t
  let mine : Packet → Bool := fun p => p.held && decide (p.ctx = k.ctx ∧ p.dst = k.coord) &&
    (match p.body with | .credit kh gi => decide (kh = k.kh ∧ gi = k.gidx) | _ => false)
  ({ s with net := s.net.filter (fun p => !mine p) } : State).updArch t (fun a => { a with spawnOut := a.spawnOut - (s.net.filter mine).length })

/-- A saved task resumes on its home core: held credits are applied and parked messages of BOUND tags enter the arrival path before anything else; a frame whose tag fails, as one with an expired page does, sends the context to FATAL (R40, R281, R294, R301, R306, R355). -/
def State.resume (s : State) (t : Nat) : State :=
  let k := s.task t
  match k.frame with
  | none => s
  | some f =>
    match s.framePages k.ctx f .r with
    | none => s
    | some ps =>
      let s := s.gatherFrame t f false
      if s.frameCells ps ≠ k.frameImg ∨ ps.any (fun p => !s.takesWrite p) then s.moduleRecord t 0x16 4 0xFF 0 0 0 false
      else
        let roll := match s.groupOf t with | some g => g.rolling | none => false
        ((((s.readFrame t ps).dropICopies k.phys).updTask t (fun k => k.resumed s.now roll)).applyCredits t).unpark t

/-- A member of the task's group waits for a message (R48, R439). -/
def State.groupWaits (s : State) (t : Nat) : Bool :=
  match s.groupOf t with
  | none => false
  | some g => g.tasks.any (fun u => (s.task u).live && (s.arch u).slots.toList.any (fun x => decide (x.st = .waiting ∧ x.wr = .message)))

/-- A saved task runs again for a member that waits; one saved by dt.launch.w or dt.joink notes it, and its instruction goes on waiting (R48, R439). -/
def State.resumeSender (s : State) (t : Nat) : State :=
  let s' := s.resume t
  if (s.task t).why = .wait ∧ (s'.task t).st = .running then s'.updTask t (fun k => { k with resumedFor := some s.now }) else s'

/-- Other groups that keep a saved task from its home core or its coordinate: of a task that holds one, or is moving to the core, or of a saved one there while the rest of its group is not (R346, R355). -/
def State.seatHolders (s : State) (t : Nat) : List Nat :=
  let k := s.task t
  ((s.tasks.filter (fun e => decide (e.1 ≠ t ∧ e.2.group ≠ k.group) && e.2.live &&
    (decide ((e.2.st ≠ .saved ∧ (e.2.phys = k.home ∨ e.2.home = k.home ∨ e.2.coord = k.coord)) ∨ e.2.landing = some k.home) ||
      (decide (e.2.coord = k.coord) && s.partlySaved e.2.group)))).map (fun e => e.2.group)).eraseDups

/-- A task saved by dt.launch.w, dt.joink or pre-emption runs again while a member of its group waits for a message; the groups that hold its core are pre-empted first (R48, R439, log 93). -/
def State.wakeSender (s : State) (t : Nat) : State :=
  if decide ((s.task t).why = .wait ∨ (s.task t).why = .preempt) && s.groupWaits t then
    if s.canSeat t then s.resumeSender t
    else if (s.task t).st = .saved then
      (s.seatHolders t).foldl (fun (s : State) g => s.saveGroup g .preempt) s
    else s
  else s

/-- A task that runs for members that waited is saved again once none has waited for 100,000 pt (R439). -/
def State.resave (s : State) (t : Nat) : State :=
  let k := s.task t
  match k.resumedFor with
  | none => s
  | some n =>
    if decide (k.st = .running) && decide (n + 100_000 ≤ s.now) && !s.groupWaits t &&
        (match k.arch.ctl.wait with | .launchW .. => true | .joink .. => true | _ => false) then
      s.updTask t (fun k => k.askSave .wait)
    else s

/-- SAVED_SENDER_RESUME (R48, R439). -/
def execSavedSenderResume (t : Nat) (s : State) : Host.Outcome State Fault Refusal := .next (s.wakeSender t)

/-- SAVED_SENDER_RESAVE (R439). -/
def execSavedSenderResave (t : Nat) (s : State) : Host.Outcome State Fault Refusal := .next (s.resave t)

/-- A saved task that a waiting member may need. -/
def Task.savedSender (k : Task) : Bool := decide (k.st = .saved ∧ (k.why = .wait ∨ k.why = .preempt))

/-- When the waits for a message began in which slots of the task's group are (R48, R439). -/
def State.waitBegan (s : State) (t : Nat) : List Nat :=
  match s.groupOf t with
  | none => []
  | some g => g.tasks.flatMap (fun u =>
      if (s.task u).live then (s.arch u).slots.toList.filterMap (fun x => if x.st = .waiting ∧ x.wr = .message then some x.since else none) else [])

/-- Tasks note when a member of their group waits for a message: one that runs for it, the last such time; a saved one, since when the first of these waits lasts (R48, R439). -/
def State.noteWaits (s : State) : State :=
  { s with tasks := s.tasks.map (fun e =>
      let w := s.groupWaits e.1
      (e.1, { e.2 with
        resumedFor := if w then e.2.resumedFor.map (fun _ => s.now) else e.2.resumedFor
        senderSince := if e.2.savedSender && w then some ((s.waitBegan e.1).foldl min s.now) else none })) }

/-- Saved senders whose members have waited for 50,000 pt are resumed, and tasks that ran long enough for members are saved again (R48, R439, log 93). -/
def State.senders (s : State) : State :=
  s.tasks.foldl (fun (s : State) e =>
    match (s.task e.1).senderSince with
    | some n => if n + 50_000 ≤ s.now then s.wakeSender e.1 else s
    | none => s.resave e.1) s

/-- Traps of every task that have waited too long (R359). -/
def State.trapsOut (s : State) : State := s.tasks.foldl (fun (s : State) e => if s.trapLate e.1 then s.trapOut e.1 else s) s

/-- When a trapping slot or easel command has waited too long (R359). -/
def Task.trapDue (k : Task) : List Nat :=
  if k.st = .running ∧ k.trapSince.isSome then
    k.arch.slots.toList.filterMap (fun x => match x.cond with | .generation _ n => some (n + 100_000) | _ => none) ++
      (k.ezSince.map (· + 100_000)).toList
  else []

/-- When a saved sender must be resumed, a task that runs for members saved again, or a trap ended (R48, R359, R439). -/
def Task.due (k : Task) : List Nat :=
  k.trapDue ++ k.senderSince.toList.flatMap (fun n => [n + 50_000, n + 100_000]) ++ (k.resumedFor.map (· + 100_000)).toList

end Sys2Proof.Machine
end

