-- ==== Sys2Proof/Machine/Flags.lean ====
section
/-! DEFINITION. The predicates: relations that compares write, and the logic of predicates (R193, R194). No other head writes a flag, and no integer head does (R189). -/
namespace Sys2Proof.Machine

/-- The relation of a compare (R193). -/
def relation (f : CmpOp) (a b : Word) : Bool :=
  match f with
  | .eq => a == b
  | .ne => a != b
  | .lt => a.slt b
  | .ltu => a.ult b
  | .ge => !a.slt b
  | .geu => !a.ult b

/-- Predicate logic (R194). -/
def predLogic (f : PlogOp) (a b : Bool) : Bool :=
  match f with
  | .and => a && b
  | .or => a || b
  | .xor => a != b
  | .andn => a && !b
  | .orn => a || !b

end Sys2Proof.Machine
end

