-- ==== Sys2Proof/Machine/Integer.lean ====
section
/-! DEFINITION. Predicates, compares, integer and address arithmetic (R188 to R194). -/
namespace Sys2Proof.Machine

/-- PAND, POR, PXOR, PANDN, PORN (R194). -/
def execPlog (f : PlogOp) (d a b : Reg) (g : Guard) (s : State) : Host.Outcome State Fault Refusal :=
  guarded g (fun s => s.retire (fun x => x.setP d (predLogic f (x.getP a) (x.getP b)))) s

/-- PMOV mD, pw (R194). -/
def execPmov (d : Reg) (g : Guard) (s : State) : Host.Outcome State Fault Refusal :=
  guarded g (fun s => s.retire (fun x => x.setM d (x.pw.setWidth 64))) s

/-- PMOV pw, mA (R194). -/
def execPmovPw (a : Reg) (g : Guard) (s : State) : Host.Outcome State Fault Refusal :=
  guarded g (fun s => s.retire (fun x => { x with pw := (x.getM a).setWidth 16 })) s

/-- PSET (R194). -/
def execPset (v : Bool) (d : Reg) (g : Guard) (s : State) : Host.Outcome State Fault Refusal :=
  guarded g (fun s => s.retire (fun x => x.setP d v)) s

/-- The bitwise and additive operations (R189). -/
def aluOp (f : AluOp) (a b : Word) : Word :=
  match f with
  | .add => a + b
  | .sub => a - b
  | .and => a &&& b
  | .or => a ||| b
  | .xor => a ^^^ b
  | .andn => a &&& ~~~ b
  | .orn => a ||| ~~~ b
  | .xnor => ~~~ (a ^^^ b)

/-- ADD to XNOR (R189). -/
def execAlu (f : AluOp) (d a b : Reg) (g : Guard) (s : State) : Host.Outcome State Fault Refusal :=
  guarded g (fun s => s.retire (fun x => x.setM d (aluOp f (x.getM a) (x.getM b)))) s

/-- Shifts and rotates by an amount below 64 (R189). -/
def shiftOp (f : ShOp) (a : Word) (n : Nat) : Word :=
  match f with
  | .shl => a <<< n
  | .shr => a >>> n
  | .sra => a.sshiftRight n
  | .rol => a.rotateLeft n
  | .ror => a.rotateRight n

/-- SHL, SHR, SRA, ROL, ROR: bits [5:0] of B are the amount (R189). -/
def execShf (f : ShOp) (d a b : Reg) (g : Guard) (s : State) : Host.Outcome State Fault Refusal :=
  guarded g (fun s => s.retire (fun x => x.setM d (shiftOp f (x.getM a) ((x.getM b).toNat % 64)))) s

/-- The products (R189). -/
def mulOp (f : MulOp) (a b : Word) : Word :=
  match f with
  | .mul => a * b
  | .mulh => word (a.toInt * b.toInt / 2 ^ 64)
  | .mulhu => word ((a.toNat : Int) * b.toNat / 2 ^ 64)
  | .mulhsu => word (a.toInt * b.toNat / 2 ^ 64)

/-- MUL, MULH, MULHU, MULHSU (R189). -/
def execMul (f : MulOp) (d a b : Reg) (g : Guard) (s : State) : Host.Outcome State Fault Refusal :=
  guarded g (fun s => s.retire (fun x => x.setM d (mulOp f (x.getM a) (x.getM b)))) s

/-- Division, with its border cases (R190). -/
def divOp (f : DivOp) (a b : Word) : Word :=
  match f with
  | .div => if b = 0 then word (-1) else word (a.toInt.tdiv b.toInt)
  | .divu => if b = 0 then word (-1) else BitVec.ofNat 64 (a.toNat / b.toNat)
  | .rem => if b = 0 then a else word (a.toInt.tmod b.toInt)
  | .remu => if b = 0 then a else BitVec.ofNat 64 (a.toNat % b.toNat)

/-- DIV, DIVU, REM, REMU (R190). -/
def execDiv (f : DivOp) (d a b : Reg) (g : Guard) (s : State) : Host.Outcome State Fault Refusal :=
  guarded g (fun s => s.retire (fun x => x.setM d (divOp f (x.getM a) (x.getM b)))) s

/-- Minimum and maximum (R189). -/
def minmaxOp (f : MmOp) (a b : Word) : Word :=
  match f with
  | .min => if a.slt b then a else b
  | .max => if a.slt b then b else a
  | .minu => if a.ult b then a else b
  | .maxu => if a.ult b then b else a

/-- MIN, MAX, MINU, MAXU (R189). -/
def execMinmax (f : MmOp) (d a b : Reg) (g : Guard) (s : State) : Host.Outcome State Fault Refusal :=
  guarded g (fun s => s.retire (fun x => x.setM d (minmaxOp f (x.getM a) (x.getM b)))) s

/-- Bit counts and reversals (R189). -/
def bitOp (f : BitOp) (a : Word) : Word :=
  let u := a.toNat
  BitVec.ofNat 64 (match f with
    | .clz => 64 - bitLen u
    | .ctz => lowestFrom u 0 64
    | .popc => popCount u 64
    | .brev => reverseBits u 64
    | .bswap => ofBytesLE (bytesLE u 8).reverse)

/-- CLZ, CTZ, POPC, BREV, BSWAP (R189). -/
def execBitc (f : BitOp) (d a : Reg) (g : Guard) (s : State) : Host.Outcome State Fault Refusal :=
  guarded g (fun s => s.retire (fun x => x.setM d (bitOp f (x.getM a)))) s

/-- Bits a field covers: n of R191. -/
def fieldBits (off w : Nat) : Nat := if 64 ≤ off ∨ w = 0 then 0 else min w (64 - off)
/-- BEXT (R191). -/
def bextOp (a : Word) (off w : Nat) : Word := BitVec.ofNat 64 (a.toNat / 2 ^ off % 2 ^ fieldBits off w)
/-- BINS (R191). -/
def binsOp (d a : Word) (off w : Nat) : Word :=
  let field : Word := BitVec.ofNat 64 ((2 ^ fieldBits off w - 1) * 2 ^ off)
  (d &&& ~~~ field) ||| (BitVec.ofNat 64 (a.toNat * 2 ^ off) &&& field)
/-- Offset and width of the register form (R191). -/
def offOf (b : Word) : Nat := bits b.toNat 7 0
def widOf (b : Word) : Nat := min (bits b.toNat 15 8) 64

/-- BEXT, immediate form (R191). -/
def execBext (d a : Reg) (off wid : BitVec 7) (g : Guard) (s : State) : Host.Outcome State Fault Refusal :=
  guarded g (fun s => s.retire (fun x => x.setM d (bextOp (x.getM a) off.toNat wid.toNat))) s

/-- BEXT, register form (R191). -/
def execBextReg (d a b : Reg) (g : Guard) (s : State) : Host.Outcome State Fault Refusal :=
  guarded g (fun s => s.retire (fun x => x.setM d (bextOp (x.getM a) (offOf (x.getM b)) (widOf (x.getM b))))) s

/-- BINS, immediate form (R191). -/
def execBins (d a : Reg) (off wid : BitVec 7) (g : Guard) (s : State) : Host.Outcome State Fault Refusal :=
  guarded g (fun s => s.retire (fun x => x.setM d (binsOp (x.getM d) (x.getM a) off.toNat wid.toNat))) s

/-- BINS, register form (R191). -/
def execBinsReg (d a b : Reg) (g : Guard) (s : State) : Host.Outcome State Fault Refusal :=
  guarded g (fun s => s.retire (fun x =>
    x.setM d (binsOp (x.getM d) (x.getM a) (offOf (x.getM b)) (widOf (x.getM b))))) s

/-- ADDI (R189). -/
def execAddi (d a : Reg) (imm : Imm) (g : Guard) (s : State) : Host.Outcome State Fault Refusal :=
  guarded g (fun s => s.retire (fun x => x.setM d (x.getM a + immWord imm))) s

/-- The operations of ALUI (R189). -/
def aluiOp (f : AluiOp) (a b : Word) : Word :=
  match f with
  | .and => a &&& b
  | .or => a ||| b
  | .xor => a ^^^ b

/-- ANDI, ORI, XORI (R189). -/
def execAlui (f : AluiOp) (d a : Reg) (imm : Imm) (g : Guard) (s : State) : Host.Outcome State Fault Refusal :=
  guarded g (fun s => s.retire (fun x => x.setM d (aluiOp f (x.getM a) (immWord imm)))) s

/-- SHLI to RORI (R189). -/
def execShfi (f : ShOp) (d a : Reg) (n : BitVec 6) (g : Guard) (s : State) : Host.Outcome State Fault Refusal :=
  guarded g (fun s => s.retire (fun x => x.setM d (shiftOp f (x.getM a) n.toNat))) s

/-- MOVI (R189). -/
def execMovi (d : Reg) (imm : Imm) (g : Guard) (s : State) : Host.Outcome State Fault Refusal :=
  guarded g (fun s => s.retire (fun x => x.setM d (immWord imm))) s

/-- MOVHI: the upper half is replaced (R189). -/
def execMovhi (d : Reg) (imm : BitVec 32) (g : Guard) (s : State) : Host.Outcome State Fault Refusal :=
  guarded g (fun s => s.retire (fun x => x.setM d (imm ++ (x.getM d).setWidth 32))) s

/-- SEL (R189). -/
def execSel (d c a b : Reg) (g : Guard) (s : State) : Host.Outcome State Fault Refusal :=
  guarded g (fun s => s.retire (fun x => x.setM d (if x.getP c then x.getM a else x.getM b))) s

/-- The address of MKADR (`f` = 0) and MKREL (`f` = 1) (R192). -/
def makeAddr (f : Nat) (a b : Word) : Word :=
  let u := a.toNat
  BitVec.ofNat 64 ((1 + f) * 2 ^ 62 + bits u 4 0 * 2 ^ 57 + bits u 10 5 * 2 ^ 51 + bits u 16 11 * 2 ^ 45 + bits b.toNat 21 0)

/-- MKADR (R192). -/
def execMkadr (d a b : Reg) (g : Guard) (s : State) : Host.Outcome State Fault Refusal :=
  guarded g (fun s => s.retire (fun x => x.setM d (makeAddr 0 (x.getM a) (x.getM b)))) s

/-- MKREL (R192). -/
def execMkrel (d a b : Reg) (g : Guard) (s : State) : Host.Outcome State Fault Refusal :=
  guarded g (fun s => s.retire (fun x => x.setM d (makeAddr 1 (x.getM a) (x.getM b)))) s

/-- CMP (R193). -/
def execCmp (f : CmpOp) (d a b : Reg) (g : Guard) (s : State) : Host.Outcome State Fault Refusal :=
  guarded g (fun s => s.retire (fun x => x.setP d (relation f (x.getM a) (x.getM b)))) s

/-- CMPI: the immediate is sign-extended in the unsigned forms as well (R193). -/
def execCmpi (f : CmpOp) (d a : Reg) (imm : Imm) (g : Guard) (s : State) : Host.Outcome State Fault Refusal :=
  guarded g (fun s => s.retire (fun x => x.setP d (relation f (x.getM a) (immWord imm)))) s

end Sys2Proof.Machine
end

