-- ==== Sys2Proof/Machine/Rv.lean ====
section
/-! DEFINITION. The standard instructions of the control thread: RV64IMAC with Zicsr, Zifencei, Zicntr and Sstc in S- and U-mode (R71, R145 to R150). -/
namespace Sys2Proof.Machine

/-- The current instruction completes: the change `f`, then the next pc. -/
def State.rvNext (s : State) (f : Ctl → Ctl) : State := s.ctNext s.fTask s.fLen f
/-- The current instruction completes with a result in rd. -/
def State.rvSet (s : State) (rd : XReg) (v : Word) : State := s.rvNext (fun c => c.setX rd v)
/-- The current instruction completes and goes to `pc`. -/
def State.rvGo (s : State) (pc : Word) (f : Ctl → Ctl) : State :=
  s.updCtl s.fTask (fun c =>
    let c' := f c
    { c' with pc := pc, s := { c'.s with instret := c'.s.instret + 1 } })
/-- A word in custom-0 or custom-1 (R136, R140). -/
def isCustom (w : Nat) : Bool := decide (w % 128 = 0x0B ∨ w % 128 = 0x2B)

/-- The illegal-instruction exception; stval holds the instruction where it lies in custom-0 or custom-1 or the mode is below its lowest mode, otherwise the instruction's bits or 0 (R140, R145, log 24). -/
def State.rvIllegal (s : State) (stated : Bool) : State :=
  s.ctTrap s.fTask excIllegal (if stated || Config.illegalStval then BitVec.ofNat 64 s.fWord else 0)

/-! ### Arithmetic (R145) -/

/-- A 32-bit result, sign-extended. -/
def ext32 (n : Nat) : Word := sextW n 32

/-- Register-immediate operations. -/
def rvOpI (op : RvOpI) (a i : Word) : Word :=
  let n := i.toNat % 64; let n32 := i.toNat % 32; let lo := a.toNat % 2 ^ 32
  match op with
  | .addi => a + i
  | .slti => if a.slt i then 1 else 0
  | .sltiu => if a.ult i then 1 else 0
  | .xori => a ^^^ i
  | .ori => a ||| i
  | .andi => a &&& i
  | .slli => a <<< n
  | .srli => a >>> n
  | .srai => a.sshiftRight n
  | .addiw => ext32 (a + i).toNat
  | .slliw => ext32 (lo * 2 ^ n32)
  | .srliw => ext32 (lo / 2 ^ n32)
  | .sraiw => word (sx lo 32 / 2 ^ n32)

/-- Register-register operations. -/
def rvOp (op : RvOp) (a b : Word) : Word :=
  let n := b.toNat % 64; let n32 := b.toNat % 32; let x := a.toNat % 2 ^ 32; let y := b.toNat % 2 ^ 32
  match op with
  | .add => a + b
  | .sub => a - b
  | .sll => a <<< n
  | .slt => if a.slt b then 1 else 0
  | .sltu => if a.ult b then 1 else 0
  | .xor => a ^^^ b
  | .srl => a >>> n
  | .sra => a.sshiftRight n
  | .or => a ||| b
  | .and => a &&& b
  | .addw => ext32 (a + b).toNat
  | .subw => ext32 (a - b).toNat
  | .sllw => ext32 (x * 2 ^ n32)
  | .srlw => ext32 (x / 2 ^ n32)
  | .sraw => word (sx x 32 / 2 ^ n32)
  | .mul => mulOp .mul a b
  | .mulh => mulOp .mulh a b
  | .mulhsu => mulOp .mulhsu a b
  | .mulhu => mulOp .mulhu a b
  | .div => divOp .div a b
  | .divu => divOp .divu a b
  | .rem => divOp .rem a b
  | .remu => divOp .remu a b
  | .mulw => ext32 (a * b).toNat
  | .divw => if y = 0 then word (-1) else ext32 (wrap ((sx x 32).tdiv (sx y 32)) 32)
  | .divuw => if y = 0 then word (-1) else ext32 (x / y)
  | .remw => if y = 0 then ext32 x else ext32 (wrap ((sx x 32).tmod (sx y 32)) 32)
  | .remuw => if y = 0 then ext32 x else ext32 (x % y)

/-- The condition of a branch. -/
def rvTaken (op : BrOp) (a b : Word) : Bool :=
  match op with
  | .beq => relation .eq a b
  | .bne => relation .ne a b
  | .blt => relation .lt a b
  | .bge => relation .ge a b
  | .bltu => relation .ltu a b
  | .bgeu => relation .geu a b

/-! ### Loads, stores and atomics (R147, R149) -/

/-- Bytes of a load, and whether it is sign-extended. -/
def rvLdW : RvLd → Nat × Bool
  | .lb => (1, true) | .lh => (2, true) | .lw => (4, true) | .ld => (8, false)
  | .lbu => (1, false) | .lhu => (2, false) | .lwu => (4, false)
def rvStW : StW → Nat
  | .b => 1 | .h => 2 | .w => 4 | .d => 8

/-- A load of the control thread. -/
def State.rvLoad (s : State) (op : RvLd) (rd : XReg) (a : Nat) : State :=
  let k := rvLdW op
  s.ctAccess s.fTask .rd false true a k.1
    (let v := s.ctRead s.fTask a k.1
     s.rvSet rd (if k.2 then sextW v (8 * k.1) else BitVec.ofNat 64 v))

/-- A store of the control thread; only one narrower than 8 bytes consumes what it writes into (R147). -/
def State.rvStore (s : State) (f : StW) (v : Word) (a : Nat) : State :=
  s.ctAccess s.fTask .wr true (decide (f ≠ .d)) a (rvStW f) ((s.ctStore s.fTask a (rvStW f) v.toNat).rvNext id)

/-- The bytes of an LR, SC or AMO. -/
def amoBytes (dbl : Bool) : Nat := if dbl then 8 else 4
/-- A value read by an LR or AMO in rd. -/
def amoResult (dbl : Bool) (v : Nat) : Word := if dbl then BitVec.ofNat 64 v else ext32 v

/-- LR: the reservation is the aligned location (R149). -/
def State.rvLr (s : State) (dbl : Bool) (rd : XReg) (a : Nat) (rl : Bool) : State :=
  let n := amoBytes dbl
  s.ctAccess s.fTask .rd false true a n
    (let s := s.flushFor s.fTask a rl
     let v := s.ctRead s.fTask a n
     s.rvNext (fun c => { c.setX rd (amoResult dbl v) with resv := some (a / 8 * 8) }))

/-- SC: it stores and gives 0 while the reservation holds its location, gives 1 otherwise, and ends the reservation; a fault of the access, the poison of a narrower one included, comes first (R147, R149). -/
def State.rvSc (s : State) (dbl : Bool) (rd : XReg) (v : Word) (a : Nat) (rl : Bool) : State :=
  let n := amoBytes dbl; let t := s.fTask
  s.ctAccess t .wr true (!dbl) a n
    (let s := s.flushFor t a rl
     if (s.ctl t).resv = some (a / 8 * 8) then
       (s.landColumn t a n (v.toNat % 2 ^ (8 * n))).rvNext (fun c => { c.setX rd 0 with resv := none })
     else s.rvNext (fun c => { c.setX rd 1 with resv := none }))

/-- The new value of an AMO on `n` bits. -/
def amoOp (op : AmoOp) (n old v : Nat) : Nat :=
  match op with
  | .swap => v
  | .add => old + v
  | .xor => old ^^^ v
  | .and => old &&& v
  | .or => old ||| v
  | .min => minmaxN .min n old v
  | .max => minmaxN .max n old v
  | .minu => minmaxN .minu n old v
  | .maxu => minmaxN .maxu n old v

/-- An AMO acts on the column at once (R65, R149). -/
def State.rvAmo (s : State) (op : AmoOp) (dbl : Bool) (rd : XReg) (v : Word) (a : Nat) (rl : Bool) : State :=
  let n := amoBytes dbl
  s.ctAccess s.fTask .rw true true a n
    (let s := s.flushFor s.fTask a rl
     let old := s.read (s.colKey s.fTask a) n
     (s.landColumn s.fTask a n (amoOp op (8 * n) old (v.toNat % 2 ^ (8 * n)) % 2 ^ (8 * n))).rvSet rd (amoResult dbl old))

/-! ### System instructions (R145, R147, R150) -/

/-- The value of a function of the SBI base extension: probe_extension gives 0 for every extension but the base extension itself (R145, log 10). -/
def sbiValue (fid arg : Word) : Word :=
  if fid = 3 then (if arg = 0x10 then Config.sbiBase fid arg ||| 1 else 0) else Config.sbiBase fid arg

/-- ECALL from S-mode: the firmware answers the seven functions of the SBI base extension; everything else gives −2; DESIGN CHOICE, log 123: the ECALL counts in instret (R145, R146, log 10). -/
def State.sbi (s : State) : State :=
  let c := s.ctl s.fTask
  if c.getX 17 = 0x10 ∧ c.getX 16 ≤ 6 then
    s.rvNext (fun c => { (c.setX 10 0).setX 11 (sbiValue (c.getX 16) (c.getX 10)) with resv := none })
  else (s.rvNext (fun c => { (c.setX 10 (word (-2))).setX 11 (Config.freeWord s.free) with resv := none })).draw

/-- ECALL (R145): exception 8 from U-mode. -/
def State.rvEcall (s : State) : State :=
  if (s.ctl s.fTask).mode = .u then s.ctTrap s.fTask 8 0 else s.sbi

/-- A privileged instruction is illegal in U-mode. -/
def State.rvPriv (s : State) (k : State) : State := if (s.ctl s.fTask).mode = .u then s.rvIllegal true else k

/-- SRET (R145). -/
def State.rvSret (s : State) : State :=
  s.updCtl s.fTask (fun c => let c' := c.sret; { c' with s := { c'.s with instret := c'.s.instret + 1 } })

/-- The source operand of a CSR instruction, and whether it writes: CSRRW always, CSRRS and CSRRC unless the source is x0 or 0. -/
def Ctl.csrSrc (c : Ctl) : CsrSrc → Word
  | .reg r => c.getX r
  | .imm v => v.setWidth 64
def csrWrites (op : CsrOp) (src : CsrSrc) : Bool :=
  match op, src with
  | .rw, _ => true
  | _, .reg r => r ≠ 0
  | _, .imm v => v ≠ 0
/-- The value written. -/
def csrNew (op : CsrOp) (old v : Word) : Word :=
  match op with
  | .rw => v
  | .rs => old ||| v
  | .rc => old &&& ~~~ v

/-- A read-modify-write of sip sees the pending bits, and one of a write-only register sees 0. A posted record that cannot be read raises its exception before anything else (R304). -/
def State.rvCsr (s : State) (op : CsrOp) (rd : XReg) (n : Nat) (src : CsrSrc) : State :=
  let t := s.fTask; let c := s.ctl t; let wr := csrWrites op src
  match s.csrValue t n with
  | none => s.rvIllegal false
  | some old =>
    if !c.csrAllowed n wr then s.rvIllegal (decide (c.mode = .u ∧ 1 ≤ bits n 9 8))
    else
      let v := csrNew op old (c.csrSrc src)
      match (if n = 0x5D6 ∧ wr then s.ctReadFault t (bits v.toNat 21 6 * 64) 8 else none) with
      | some e => s.ctRaise t e
      | none =>
        let s := s.rvSet rd old
        if wr then s.csrWrite t n v else s

/-! ### CONTROL_THREAD_INSTRUCTION -/

/-- A standard instruction of the control thread of the current task (R145 to R150). -/
def execControlThreadInstruction (i : Rv) (s : State) : Host.Outcome State Fault Refusal :=
  let c := s.ctl s.fTask
  let link : Word := c.pc + BitVec.ofNat 64 s.fLen
  .next (match i with
    | .lui rd imm => s.rvSet rd imm
    | .auipc rd imm => s.rvSet rd (c.pc + imm)
    | .jal rd imm => s.rvGo (c.pc + imm) (fun c => c.setX rd link)
    | .jalr rd rs1 imm => s.rvGo ((c.getX rs1 + imm) &&& ~~~ 1) (fun c => c.setX rd link)
    | .br op rs1 rs2 imm => if rvTaken op (c.getX rs1) (c.getX rs2) then s.rvGo (c.pc + imm) id else s.rvNext id
    | .load op rd rs1 imm => s.rvLoad op rd (c.getX rs1 + imm).toNat
    | .store f rs1 rs2 imm => s.rvStore f (c.getX rs2) (c.getX rs1 + imm).toNat
    | .opImm op rd rs1 imm => s.rvSet rd (rvOpI op (c.getX rs1) imm)
    | .op op rd rs1 rs2 => s.rvSet rd (rvOp op (c.getX rs1) (c.getX rs2))
    | .fence both => if both then (s.flushCtl s.fTask).rvNext id else s.rvNext id
    | .fenceI => ((s.flushCtl s.fTask).cutCode s.fTask).rvNext id
    | .ecall => s.rvEcall
    | .ebreak => s.ctTrap s.fTask 3 (if Config.ebreakStval then c.pc else 0)
    | .sret => s.rvPriv s.rvSret
    | .wfi => s.rvNext id
    | .sfenceVma => s.rvPriv (s.rvNext id)
    | .csr op rd n src => s.rvCsr op rd n.toNat src
    | .lr dbl rd rs1 _ rl => s.rvLr dbl rd (c.getX rs1).toNat rl
    | .sc dbl rd rs1 rs2 _ rl => s.rvSc dbl rd (c.getX rs2) (c.getX rs1).toNat rl
    | .amo op dbl rd rs1 rs2 _ rl => s.rvAmo op dbl rd (c.getX rs2) (c.getX rs1).toNat rl)

end Sys2Proof.Machine
end

