-- ==== Sys2Proof/Machine/Dt.lean ====
section
/-! DEFINITION. The custom instructions of the control thread: slot control, the end of a core superstep, launches and joins, fibres, live migration, capabilities, NX and harvest, and the default control routine (R157 to R176, R340). -/
namespace Sys2Proof.Machine

/-- The x register of the control thread that executes. -/
def State.rx (s : State) (r : XReg) : Word := (s.ctl s.fTask).getX r

/-! ### Slot control (R157 to R162) -/

/-- A slot that takes a broadcast line (R31, R157). -/
def Slot.takesLine (x : Slot) : Bool := decide (x.st = .free ∨ x.st = .stopped ∨ (x.st = .waiting ∧ x.wr = .broadcast))

/-- A microthread begins in slot `i` at a line: a FREE slot is cleared, a STOPPED one keeps its registers (R31, R38). -/
def State.startSlot (s : State) (t i : Nat) (ind : Bool) (line : Nat) (img : Option (List Half)) : State :=
  let id := s.newIdent t i false
  s.updSlot t i (fun x =>
    let l : LineSt := { LineSt.none with img := img }
    if x.st = .stopped then { x with st := .ready, wr := .none, ind := ind, pc := pcAt line 1, id := id, line := l, cond := .none }
    else { Slot.fresh ind (pcAt line 1) id with line := l })

/-- The line is delivered to slot `i` (R31, R157). -/
def State.deliver (s : State) (t i line : Nat) (img : List Half) : State :=
  if (s.slot t i).st = .waiting then
    s.updSlot t i (fun x => { x with st := .ready, wr := .none, cond := .none, pc := pcAt line 1, line := { LineSt.none with img := some img } })
  else s.startSlot t i false line (some img)

/-- Slots 0 to 9 of a register-held mask. -/
def slotsOf (v : Word) : List Nat := (List.range 10).filter (fun i => v.getLsbD i)
/-- The mask of a list of slots. -/
def maskOfSlots (l : List Nat) : Nat := maskOf 10 (fun i => l.contains i)

/-- DT_BCAST (R157). R157 gives no stval for a line that cannot be fetched: the model writes the line's address (log 101). -/
def execDtBcast (rd rs1 rs2 : XReg) (s : State) : Host.Outcome State Fault Refusal :=
  .next (let t := s.fTask; let l := slotsOf (s.rx rs2); let a := (s.rx rs1).toNat
    let refused : Word := BitVec.ofNat 64 (2 ^ 63 + maskOfSlots l)
    if 2 ^ 56 ≤ a ∨ a % 64 ≠ 0 then s.rvSet rd refused
    else
      match s.fetchLine t a with
      | (s, .error c) => s.ctTrap t (fetchExc c) (BitVec.ofNat 64 a)
      | (s, .ok img) =>
        if lineType img ≠ 1 ∧ lineType img ≠ 5 then s.rvSet rd refused
        else
          let go := l.filter (fun i => (s.slot t i).takesLine)
          (go.foldl (fun (s : State) i => s.deliver t i a img) s).rvSet rd
            (BitVec.ofNat 64 (maskOfSlots (l.filter (fun i => !go.contains i)))))

/-- DT_START (R158). -/
def execDtStart (rd rs1 rs2 : XReg) (s : State) : Host.Outcome State Fault Refusal :=
  .next (let t := s.fTask; let a := (s.rx rs1).toNat; let i := (s.rx rs2).toNat
    if 9 < i then s.rvSet rd 3
    else if 2 ^ 56 ≤ a ∨ a % 64 ≠ 0 then s.rvSet rd 2
    else if (s.slot t i).st = .free ∨ (s.slot t i).st = .stopped then (s.startSlot t i true a none).rvSet rd 0
    else s.rvSet rd 1)

/-- MTFINFO.CAUSE of slot `i`. -/
def Arch.slotCause (a : Arch) (i : Nat) : Nat := (vget 0 a.ctl.d.mtfinfo i).toNat / 2 ^ 56

/-- The status word of dt.mtstat (R159). -/
def Arch.slotStatus (a : Arch) (i : Nat) : Nat :=
  let x := a.slot i
  x.st.code + b01 x.ind * 8 + x.wr.code * 16 + (if x.st = .faulted then a.slotCause i * 256 else 0)

/-- DT_MTSTAT (R159). -/
def execDtMtstat (rd rs1 : XReg) (s : State) : Host.Outcome State Fault Refusal :=
  .next (let i := (s.rx rs1).toNat
    s.rvSet rd (if 9 < i then word (-1) else BitVec.ofNat 64 ((s.arch s.fTask).slotStatus i)))

/-- A slot that dt.mtkill frees at once (R31, R160). -/
def Slot.killable (x : Slot) : Bool := decide (x.st = .ready ∨ x.st = .waiting ∨ x.st = .faulted ∨ x.st = .stopped)

/-- DT_MTKILL (R160). -/
def execDtMtkill (rd rs1 : XReg) (s : State) : Host.Outcome State Fault Refusal :=
  .next (let t := s.fTask; let l := slotsOf (s.rx rs1)
    let now := l.filter (fun i => (s.slot t i).killable)
    (l.foldl (fun (s : State) i => s.killSlot t i false) s).rvSet rd (BitVec.ofNat 64 (maskOfSlots now)))

/-- Every slot of a mask is idle. -/
def Arch.allIdle (a : Arch) (mask : Nat) : Bool := (slotsOf (BitVec.ofNat 64 mask)).all (fun i => (a.slot i).idle)
/-- The FAULTED slots of a mask. -/
def Arch.faultedOf (a : Arch) (mask : Nat) : Nat :=
  maskOfSlots ((slotsOf (BitVec.ofNat 64 mask)).filter (fun i => decide ((a.slot i).st = .faulted)))

/-- The control thread waits in the current instruction (R150). -/
def State.rvWait (s : State) (w : CtWait) : State := s.updCtl s.fTask (fun c => { c with wait := w, ahead := [] })

/-- DT_MTWAIT (R161). -/
def execDtMtwait (rd rs1 : XReg) (s : State) : Host.Outcome State Fault Refusal :=
  .next (let m := (s.rx rs1).toNat % 1024; let a := s.arch s.fTask
    if a.allIdle m then s.rvSet rd (BitVec.ofNat 64 (a.faultedOf m)) else s.rvWait (.mtwait rd.toNat m))

/-- DT_MTGO (R162). -/
def execDtMtgo (rd rs1 : XReg) (s : State) : Host.Outcome State Fault Refusal :=
  .next (let t := s.fTask; let i := (s.rx rs1).toNat
    if 9 < i then s.rvSet rd 3
    else if (s.slot t i).st ≠ .faulted then s.rvSet rd 1
    else if rollbackSet ((s.arch t).slotCause i) then s.rvSet rd 2
    else
      (s.updArch t (fun a => (a.updSlot i (fun x => { x with st := .ready })).updD (fun d =>
        { d with mtfpend := d.mtfpend &&& ~~~ (BitVec.ofNat 10 (2 ^ i)) }))).rvSet rd 0)

/-! ### The default control routine (R340) -/

/-- Where the default control routine stands: at its start, or at its dt.mtwait (log 29). -/
def Ctl.dfltStart (c : Ctl) : Bool := c.dflt && decide (c.mode = .u ∧ c.pc = 0)
def Ctl.dfltWait (c : Ctl) : Bool := c.dflt && decide (c.mode = .u ∧ c.pc = 4)

/-- Line 0 of the code image of a task's kernel. -/
def State.lineZero (s : State) (t : Nat) : Nat :=
  match s.kernelOf t with
  | some k => (k.hdr + 128) % 2 ^ 56
  | none => 0

/-- Slot 0 is STOPPED or FREE: the routine ends the task; otherwise it waits (R340). -/
def State.dfltTurn (s : State) (t : Nat) : State :=
  let c := s.ctl t
  if c.dfltStart then
    let s := if (s.slot t 0).st = .free ∨ (s.slot t 0).st = .stopped then s.startSlot t 0 true (s.lineZero t) none else s
    s.updCtl t (fun c => { c with pc := 4, wait := .mtwait 0 1 })
  else if (s.slot t 0).st = .free ∨ (s.slot t 0).st = .stopped then s.taskEnd t
  else s.updCtl t (fun c => { c with wait := .mtwait 0 1 })

/-- A waiting instruction returns with a result in rd. -/
def State.waitDone (s : State) (t rd : Nat) (v : Word) : State :=
  s.ctNext t 4 (fun c => { c.setX (BitVec.ofNat 5 rd) v with wait := .none })

/-- MTWAIT_RETURN (R161, R340). -/
def execMtwaitReturn (t : Nat) (s : State) : Host.Outcome State Fault Refusal :=
  .next (match (s.ctl t).wait with
    | .mtwait rd m =>
      if !s.ctActive t || s.intrFirst t then s
      else if (s.ctl t).dfltWait then (if (s.slot t 0).st = .free ∨ (s.slot t 0).st = .stopped then s.taskEnd t else s)
      else if (s.arch t).allIdle m then s.waitDone t rd (BitVec.ofNat 64 ((s.arch t).faultedOf m)) else s
    | _ => s)

/-! ### The core superstep (R71, R163) -/

/-- Copies that have begun and not landed whose destination is the column of a task, those that a save or a move has put back among them: task and number (R71, R85). -/
def State.copiesInto (s : State) (t : Nat) : List (Nat × Nat) :=
  s.tasks.flatMap (fun e =>
    if e.2.live then
      e.2.arch.eng.cmds.filterMap (fun c =>
        match c.op with
        | .copy d =>
          if c.underway && (match d.dEnd with | .level _ => false | x => decide (s.endTask e.1 x = some t)) then some (e.1, c.uid) else none
        | _ => none)
    else [])

/-- DT_CBAR fixes the cuts: a slot within a line is cut at its next line end or stop point (R163). -/
def execDtCbar (s : State) : Host.Outcome State Fault Refusal :=
  .next (let t := s.fTask; let a := s.arch t
    let mid := (List.range 10).find? (fun i => decide ((a.slot i).st = .running) && (a.slot i).line.entered)
    s.rvWait (.cbar a.serial mid a.serial (s.copiesInto t)))

/-- The cut of dt.cbar has drained: no store made before it is in a buffer, and every awaited copy has landed or ended (R71, R163). -/
def State.cbarOver (s : State) (t serial : Nat) (copies : List (Nat × Nat)) : Bool :=
  let a := s.arch t
  !(a.slots.toList.any (fun x => x.sb.any (fun e => decide (e.serial < serial)))) && !a.ctl.sb.any (fun e => decide (e.serial < serial)) &&
    !copies.any (fun c => match (s.eng c.1).find c.2 with | some k => k.underway && (s.task c.1).live | none => false)

/-- CBAR_COMPLETE: STEPCNT0 rises, and fetches see the code written before (R127, R163). -/
def execCbarComplete (t : Nat) (s : State) : Host.Outcome State Fault Refusal :=
  .next (match (s.ctl t).wait with
    | .cbar n none m copies =>
      if s.ctActive t && !s.intrFirst t && s.cbarOver t (max n m) copies then
        (((s.updBar t (fun b => { b with step0 := b.step0 + 1 })).updArch t Arch.dropAhead).cutCode t).ctNext t 4 (fun c => { c with wait := .none })
      else s
    | _ => s)

/-! ### Launch and join (R165 to R168) -/

/-- The offer of the record at column offset `a` (R165, R336). -/
def State.launchAt (s : State) (t a : Nat) : State × Reply :=
  if a % 64 ≠ 0 then (s, .bad 2 none)
  else
    match s.ctReadFault t a 8 with
    | some e => (s, .exc e.1 e.2)
    | none => s.acceptLaunch (s.taskOffer t) (LaunchRec.ofWords (s.ctWords t a 8)) 0

/-- The status word of a launch (R165). -/
def Reply.word : Reply → Word
  | .bad st _ => BitVec.ofNat 64 (st * 2 ^ 56)
  | .exc _ _ => 0
  | .full => BitVec.ofNat 64 (2 ^ 56)
  | .given h => BitVec.ofNat 64 h

/-- A launch that returns status 0 marks the superstep as non-restartable (R385). -/
def State.launched (s : State) (t : Nat) (r : Reply) : State :=
  match r with
  | .given _ => s.markNr t
  | _ => s

/-- DT_LAUNCH; while the distributors elect a master it waits (R165, R351, R385). -/
def execDtLaunch (rd rs1 : XReg) (s : State) : Host.Outcome State Fault Refusal :=
  .next (if s.dies.electing then s
    else
      match s.launchAt s.fTask (s.rx rs1).toNat with
      | (s, .exc c a) => s.ctRaise s.fTask (c, a)
      | (s, r) => (s.launched s.fTask r).rvSet rd r.word)

/-- DT_LAUNCH_W: while the pool is full the task is saved and the instruction waits (R166, R351, R385). -/
def execDtLaunchW (rd rs1 : XReg) (s : State) : Host.Outcome State Fault Refusal :=
  .next (if s.dies.electing then s
    else
      let a := (s.rx rs1).toNat
      match s.launchAt s.fTask a with
      | (s, .exc c a) => s.ctRaise s.fTask (c, a)
      | (s, .full) => (s.rvWait (.launchW rd.toNat a s.now)).updTask s.fTask (fun k => k.askSave .wait)
      | (s, r) => (s.launched s.fTask r).rvSet rd r.word)

/-- The kernel of a task may have met the dependence of later kernels: the first such instant counts (R344). -/
def State.noteTrigger (s : State) (t : Nat) : State :=
  match s.groupOf t with
  | some g => s.noteMet g.kernel
  | none => s

/-- DT_TRIGGER: every execution marks the superstep (R167, R344, R385, log 100). -/
def execDtTrigger (s : State) : Host.Outcome State Fault Refusal :=
  .next ((((s.updArch s.fTask (fun a => { a with triggered := true })).markNr s.fTask).noteTrigger s.fTask).rvNext id)

/-- The kernel whose handle the context holds (R168, R338). -/
def State.heldKernel (s : State) (c h : Nat) : Option Nat :=
  (s.kernels.find? (fun e => decide (e.2.ctx = c ∧ e.2.handle = h) && e.2.held)).map (·.1)

/-- The status dt.joink gives for a kernel that is over (R168). -/
def Kernel.joinStatus (k : Kernel) : Nat := if k.joined then 1 else if k.st = .complete then 0 else 2

/-- The handle is joined: once, and then released (R168, R338). -/
def State.join (s : State) (k : Nat) : State := s.updKernel k (fun x => { x with joined := true, held := false })

/-- DT_JOINK (R168). -/
def execDtJoink (rd rs1 : XReg) (s : State) : Host.Outcome State Fault Refusal :=
  .next (match s.heldKernel s.me.ctx (s.rx rs1).toNat with
    | none => s.rvSet rd 1
    | some k =>
      match s.kernel k with
      | none => s.rvSet rd 1
      | some x =>
        if x.st.over then (s.join k).rvSet rd (BitVec.ofNat 64 x.joinStatus)
        else (s.rvWait (.joink rd.toNat k)).updTask s.fTask (fun k => k.askSave .wait))

/-- A quiescence ends without a save: slots that had stopped for it go on (R187, R299). -/
def Task.goesOn (k : Task) : Task :=
  { k.unquiet with st := .running, why := .none, resumedFor := none }

/-- A task whose waiting instruction can complete: one on its core goes on, one that its wait has saved is resumed where it can be seated (R166, R168, R439). The flag says that it runs. -/
def State.wakeWaiter (s : State) (t : Nat) : State × Bool :=
  let k := s.task t
  if k.halted || k.ending then (s, false)
  else if k.onCore then
    (s.updTask t (fun k =>
      if k.st = .quiesceSave ∧ k.why = .wait then k.goesOn else { k with resumedFor := none }), true)
  else if k.why = .wait && s.canSeat t then
    let s' := s.resume t
    (s'.updTask t (fun k => { k with resumedFor := none }), decide ((s'.task t).st = .running) && !(s'.task t).halted)
  else (s, false)

/-- JOINK_RETURN: a wait that has begun returns the status of its kernel, also where the handle has been released meanwhile (R168, log 102). -/
def execJoinkReturn (t : Nat) (s : State) : Host.Outcome State Fault Refusal :=
  .next (match (s.ctl t).wait with
    | .joink rd k =>
      match s.kernel k with
      | some x =>
        if x.st.over then
          let r := s.wakeWaiter t
          if r.2 && !r.1.intrFirst t then (r.1.join k).waitDone t rd (BitVec.ofNat 64 x.joinStatus) else r.1
        else s
      | none => s
    | _ => s)

/-! ### Fibres (R169 to R171) -/

/-- The exception of an access to the words of a fibre record: its place and alignment, then each word it reads and writes (R147, R170). -/
def State.fibreFault (s : State) (t a : Nat) (reads : List Nat) : Option (Nat × Nat) :=
  if Config.undoBase ≤ a then some (excStoreAccess, a)
  else if a % 512 ≠ 0 then some (excStoreAlign, a)
  else
    match s.ctFault t .rw true true (a + 256) 8 with
    | some e => some e
    | none =>
      match s.ctFault t .wr true false (a + 264) 8 with
      | some e => some e
      | none => reads.findSome? (fun o => s.ctFault t .rd true true (a + o) 8)

/-- A word of the record is written at once, after the control thread's own stores to it. -/
def State.putFibre (s : State) (t a v : Nat) : State := (s.flushCtlLoc t a).landColumn t a 8 v

/-- DT_PARK (R170). -/
def execDtPark (rd rs1 : XReg) (s : State) : Host.Outcome State Fault Refusal :=
  .next (let t := s.fTask; let a := (s.rx rs1).toNat
    s.rvPriv (match s.fibreFault t a [] with
      | some e => s.ctRaise t e
      | none =>
        let m := s.ctRead t (a + 256) 8 ||| (s.ctl t).d.upPq.toNat
        (((s.putFibre t (a + 256) m).putFibre t (a + 264) 1).updD t (fun d => { d with upPq := 0 })).rvSet rd (BitVec.ofNat 64 m)))

/-- The registers of a fibre, each location for itself (R64). -/
def State.loadFibre (s : State) (t a : Nat) : Vector Word 32 :=
  Vector.ofFn (fun (i : Fin 32) => if i.val = 0 then 0 else s.ctLoc t (a + 8 * i.val))

/-- DT_RESUME: unparking is an acquire, so what the control thread has stored lands before the restarted commands read (R171). Bit 0 of the record's pc is cleared, as sepc would hold it (log 103). -/
def execDtResume (rs1 : XReg) (s : State) : Host.Outcome State Fault Refusal :=
  .next (let t := s.fTask; let a := (s.rx rs1).toNat
    s.rvPriv (match s.fibreFault t a ((List.range 32).map (8 * ·)) with
      | some e => s.ctRaise t e
      | none =>
        let m := (s.ctLoc t (a + 256)).toNat; let x := s.loadFibre t a; let pc := s.ctLoc t a
        let s := (s.putFibre t (a + 256) 0).putFibre t (a + 264) 2
        let s := if m % 16 = 0 then s else s.flushCtl t
        let s := s.updEng t (fun e => { e with parked := Vector.ofFn (fun (q : Fin 4) => vget false e.parked q.val && !m.testBit q.val) })
        s.updCtl t (fun c =>
          { c with x := x, pc := pc &&& ~~~ 1, mode := .u, ahead := [], d := { c.d with fibre := bits a 21 9 * 512 }
                   s := { c.s with stSie := c.s.stSpie, stSpie := true, instret := c.s.instret + 1 } })))

/-! ### Migration, capabilities, NX and harvest (R173 to R176) -/

/-- A physical core in the core-table layout (R52). -/
def physOf (v : Nat) : Phys := ⟨bits v 4 0, bits v 9 5, bits v 16 10⟩

/-- The status of dt.lmigr (R173). The order of the conditions, status 4 while a save of the task is under way, status 3 for a bit of x[rs1] above bit 16, and status 1 for a core that another task has reserved are the model's (log 30). -/
def State.lmigrStatus (s : State) (t v flags : Nat) : Nat :=
  let k := s.task t; let p := physOf v
  if flags ≠ 0 then 5
  else if k.st ≠ .running then 4
  else if 2 ^ 17 ≤ v ∨ !p.exists ∨ s.fencedDie p.d ∨ s.regionFenced p.d p.region ∨ s.cores.retired.contains p then 3
  else if Config.vegaken p.d ≠ Config.vegaken k.phys.d then 2
  else if (s.coordOn p).isSome ∨ s.takenFor t p then 1
  else 0

/-- DT_LMIGR (R173, R355, R367). -/
def execDtLmigr (rd rs1 rs2 : XReg) (s : State) : Host.Outcome State Fault Refusal :=
  .next (let t := s.fTask; let v := (s.rx rs1).toNat
    s.rvPriv (let st := s.lmigrStatus t v (s.rx rs2).toNat
      let s' := s.rvSet rd (BitVec.ofNat 64 st)
      if st = 0 then s'.updTask t (fun k => { k with st := .quiesceMove, landing := some (physOf v), mvWhy := .lmigr }) else s'))

/-- The capabilities of a physical core and its context (R174). -/
def State.coreCaps (s : State) (t : Nat) : Nat :=
  let v := s.onVega t
  b01 (!v) + 2 * b01 v + 4 + 8 + 16 * b01 ((s.ctx (s.task t).ctx).caps.testBit 4)

/-- DT_CAPS (R174). -/
def execDtCaps (rd rs1 : XReg) (s : State) : Host.Outcome State Fault Refusal :=
  .next (let sel := s.rx rs1
    s.rvSet rd (BitVec.ofNat 64
      (if sel = 0 then s.coreCaps s.fTask
       else if sel = 1 then (match s.kernelOf s.fTask with | some k => k.caps | none => 0)
       else 0)))

/-- DT_NXSET (R106, R175). -/
def execDtNxset (nx : Bool) (s : State) : Host.Outcome State Fault Refusal :=
  .next ((s.updArch s.fTask (fun a => a.keepLag.updEng (fun e => { e with nx := nx }))).rvNext id)

/-- A harvest of a range begins; its time lies at most 32,000 pt ahead (R176, R401, log 31). -/
def State.beginHarvest (s : State) (c va pages sem : Nat) : State × Nat :=
  let s := s.harvestTick
  let due := s.now + (Config.freeWord s.free).toNat % 32001
  (({ s with pg := { s.pg with jobs := s.pg.jobs ++ [.harvest c va pages sem due] } } : State).draw, due)

/-- DT_HARVEST; DESIGN CHOICE, log 124: bits 63:56 of the record's virtual address are dropped (R176). -/
def execDtHarvest (rd rs1 : XReg) (s : State) : Host.Outcome State Fault Refusal :=
  .next (let t := s.fTask; let a := (s.rx rs1).toNat
    s.rvPriv (s.ctAccess t .rd false true a 16
      (let va := s.ctRead t a 8 % 2 ^ 56 / 65536 * 65536; let n := s.ctRead t (a + 8) 8
       if n = 0 then s.rvSet rd (BitVec.ofNat 64 s.now)
       else
         let r := s.beginHarvest s.me.ctx va n 0
         r.1.rvSet rd (BitVec.ofNat 64 r.2))))

end Sys2Proof.Machine
end

