-- ==== Sys2Proof/Machine/Groups.lean ====
section
/-! DEFINITION. Placing groups: the order, the places, the policies, pre-emption, the start of tasks, resumption of saved groups, and elections (R28, R340, R345 to R354, R371 to R374, R390). -/
namespace Sys2Proof.Machine

/-! ### Places (R346, R353, R369) -/

/-- Every task of the group that has not ended is saved by dt.launch.w or dt.joink: it has given up its places to its children too (R352, log 99). -/
def State.givesUp (s : State) (g : Nat) : Bool :=
  s.tasks.all (fun e => !(e.2.live && decide (e.2.group = g)) || decide (e.2.st = .saved ∧ e.2.why = .wait))

/-- A place is free for a context (R346, R352). -/
def State.placeFree (s : State) (c : Nat) (x : Coord) : Bool :=
  !s.tasks.any (fun e => e.2.live && decide (e.2.coord = x) &&
    ((decide (e.2.ctx = c) && !s.givesUp e.2.group) || decide (e.2.st ≠ .saved) || s.partlySaved e.2.group))

/-- Physical cores of a logical tile group. -/
def State.tilePhys (s : State) (d g : Nat) : List Phys := (tileCoords d g).map (fun c => (s.entry c).phys)

/-- A core of the tile group holds a task of another coordinate or is reserved as a landing place, or a visitor is on a core of its region, a spare included (R358, R363, R442). -/
def State.tileVisited (s : State) (d g : Nat) : Bool :=
  let ps := s.tilePhys d g
  s.visited d g || s.tasks.any (fun e => e.2.live &&
    ((decide (e.2.st ≠ .saved) && ps.contains e.2.phys && !(tileCoords d g).contains e.2.coord) ||
     (match e.2.landing with | some p => ps.contains p | none => false)))

/-- A logical tile group is free for a context (R346, R353, R363). -/
def State.tileFree (s : State) (c d g : Nat) : Bool :=
  !s.fencedDie d && !s.regionFenced d g && (tileCoords d g).all (fun x => s.placeFree c x) && !s.tileVisited d g

/-- Free tile groups of a die, in rising number. -/
def State.freeTiles (s : State) (c d : Nat) : List Nat := (List.range (Config.groupsOf d)).filter (fun g => s.tileFree c d g)

/-- Every core of a die is free. -/
def State.dieFree (s : State) (c d : Nat) : Bool := (List.range (Config.groupsOf d)).all (fun g => s.tileFree c d g)

/-! ### Candidates (R345) -/

/-- Dies a kernel's groups could use (R331). -/
def Kernel.dies (k : Kernel) : List Nat :=
  (List.range 16).filter (fun d => decide (k.shape = 3) || (decide (k.diemask = 0) && decide (k.shape ≤ 1)) || k.diemask.testBit d)

/-- Top level of a group (R28). -/
def State.topOf (s : State) (k : Kernel) : Nat :=
  if k.shape = 0 then 1
  else if (s.ctx k.ctx).caps.testBit 4 then 4
  else if k.shape = 1 then 2 else 3

/-- The groups of a kernel to consider: those to reissue, and the lowest not placed yet, since later ones fit only where it does (R345, R351). -/
def Kernel.waiting (k : Kernel) : List Nat := k.todo.map (·.gidx) ++ (if k.first < k.count then [k.first] else [])

/-- A group that waits for its places. -/
inductive Waiter
  | saved (g : Nat)
  | fresh (k gidx : Nat)
  deriving DecidableEq, Repr

/-- A candidate with what orders it: priority, whether it is unplaced, acceptance, index. -/
structure Ranked where
  prio : Nat
  late : Nat
  order : Nat
  gidx : Nat
  cand : Waiter
  deriving DecidableEq, Repr

/-- `a` is considered before `b` (R345). -/
def Ranked.before (a b : Ranked) : Bool :=
  decide (b.prio < a.prio ∨ (a.prio = b.prio ∧ (a.late < b.late ∨ (a.late = b.late ∧ (a.order < b.order ∨ (a.order = b.order ∧ a.gidx < b.gidx))))))

def rankInsert (x : Ranked) : List Ranked → List Ranked
  | [] => [x]
  | y :: l => if x.before y then x :: y :: l else y :: rankInsert x l
def rankSort (l : List Ranked) : List Ranked := l.foldl (fun acc x => rankInsert x acc) []

/-- The group has been saved and awaits resumption (R48, R345). -/
def State.awaits (s : State) (x : Group) : Bool :=
  !x.complete && !x.killed && x.tasks.any (fun t => decide ((s.task t).st = .saved ∧ (s.task t).why ≠ .wait))

/-- Groups to consider, in order (R345). -/
def State.ranked (s : State) : List Ranked :=
  rankSort (
    (s.groups.filterMap (fun e =>
      match s.kernel e.2.kernel with
      | some k => if s.awaits e.2 ∧ (s.ctx k.ctx).st = .resident then some ⟨e.2.prio, 0, e.2.order, e.2.gidx, .saved e.1⟩ else none
      | none => none)) ++
    (s.kernels.flatMap (fun e =>
      if (e.2.st = .ready ∨ e.2.st = .running) ∧ (s.ctx e.2.ctx).st = .resident then
        e.2.waiting.map (fun g => ⟨e.2.prio, 1, e.2.order, g, .fresh e.1 g⟩)
      else [])))

/-- Dies a candidate could use. -/
def State.candDies (s : State) : Waiter → List Nat
  | .saved g => match SMap.find s.groups g with | some x => x.tasks.map (fun t => (s.task t).coord.d) | none => []
  | .fresh key _ => match s.kernel key with | some k => k.dies | none => []

/-- Since when a candidate waits: a saved group since the first of its tasks was saved, an unplaced one since its kernel was READY or it was to be reissued (R345). -/
def State.waitsSince (s : State) : Waiter → Option Nat
  | .saved g =>
    match SMap.find s.groups g with
    | some x => (x.tasks.filterMap (fun t =>
        if (s.task t).st = .saved ∧ (s.task t).why ≠ .wait then some (s.task t).savedAt else none)).min?
    | none => none
  | .fresh key gidx =>
    match s.kernel key with
    | some k => some (match k.todo.find? (fun x => decide (x.gidx = gidx)) with | some x => x.since | none => k.since)
    | none => none

/-- A candidate starves: it has waited 1,000,000 pt, or is known to (R345). -/
def State.starves (s : State) (w : Waiter) : Bool :=
  (match w with
   | .fresh key gidx => (match s.kernel key with | some k => k.starving.contains gidx | none => false)
   | .saved _ => false) ||
  match s.waitsSince w with
  | some n => decide (n + 1_000_000 ≤ s.now)
  | none => false

/-- The candidates that starve. -/
def State.starving (s : State) : List Ranked := s.ranked.filter (fun r => s.starves r.cand)

/-- How a candidate stands in the order. -/
def State.rankOf (s : State) (w : Waiter) : Option Ranked := s.ranked.find? (fun r => decide (r.cand = w))

/-- Dies closed to a candidate: those that one before it in the order could use which starves (R345). -/
def State.closedTo (s : State) (w : Waiter) : List Nat :=
  match s.rankOf w with
  | none => []
  | some r => (s.starving.filter (fun q => q.before r)).flatMap (fun q => s.candDies q.cand)

/-! ### The die (R346 to R348) -/

/-- Running groups of a kernel on a die. -/
def State.groupsOn (s : State) (key d : Nat) : Nat :=
  (s.groups.filter (fun e => decide (e.2.kernel = key) && !e.2.complete &&
    e.2.tasks.any (fun t => (s.task t).live && decide ((s.task t).st ≠ .saved ∧ (s.task t).coord.d = d)))).length

/-- The gateway in whose HBM a page of a context lies now: an HBM page, an LPDDR page that is resident or still being written back, or a pod page at home here (R348, R404, R410, log 32). -/
def State.pageGateway (s : State) (c page : Nat) : Option Nat :=
  match s.leafOf c (page * 65536) with
  | .error _ => none
  | .ok l =>
    let f := l.frame (page * 65536)
    if !bit l.entry 7 then none
    else if bits l.entry 9 8 = 0 then (if isHbm (f * 65536) then some (gatewayOf (f * 65536)) else none)
    else if bits l.entry 9 8 = 1 ∧ ((s.resid f).st = .resident ∨ (s.resid f).st = .writeback) then
      some (gatewayOf ((s.resid f).frame * 65536))
    else if bits l.entry 9 8 = 2 then
      match SMap.find s.pg.pod f with
      | some p => if p.home = s.mg.podIdx then some (gatewayOf (p.frame * 65536)) else none
      | none => none
    else none

/-- The affine score of a gateway for a group index (R348). -/
def State.score (s : State) (k : Kernel) (gidx g : Nat) : Nat :=
  ((k.waybill.filter (fun w => decide (w.gfirst ≤ gidx ∧ gidx ≤ w.glast))).map (fun w =>
    ((List.range w.pages).filter (fun i => decide (s.pageGateway k.ctx (w.va / 65536 + i) = some g))).length)).sum

/-- Die `a` is preferred to die `b`: by the affine score, then fewest running groups, most free tile groups, lowest number (R347, R348). -/
def State.prefers (s : State) (key : Nat) (k : Kernel) (gidx a b : Nat) : Bool :=
  let score := fun d => if k.affine then s.score k gidx (Config.homeGateway d) else 0
  let n := fun d => s.groupsOn key d
  let f := fun d => (s.freeTiles k.ctx d).length
  decide (score b < score a ∨ (score a = score b ∧ (n a < n b ∨ (n a = n b ∧ (f b < f a ∨ (f a = f b ∧ a < b))))))

/-- The preferred die of a list. -/
def State.bestDie (s : State) (key : Nat) (k : Kernel) (gidx : Nat) (l : List Nat) : Option Nat :=
  l.foldl (fun acc d =>
    match acc with
    | none => some d
    | some b => if s.prefers key k gidx d b then some d else some b) none

/-- A second pod group of a context waits (R390). -/
def State.podBusy (s : State) (k : Kernel) : Bool :=
  decide (s.topOf k = 4) && s.groups.any (fun e => !e.2.complete && decide (e.2.top = 4) &&
    (match s.kernel e.2.kernel with | some j => decide (j.ctx = k.ctx) | none => false))

/-- The coordinates a group takes, in task order, where it fits (R340, R346, R353). -/
def State.placesFor (s : State) (key : Nat) (k : Kernel) (gidx : Nat) : Option (List Coord) :=
  let free := fun d => s.dieFree k.ctx d
  let shut := s.closedTo (.fresh key gidx)
  let opened := k.dies.filter (fun d => !shut.contains d)
  if s.podBusy k then none
  else if k.shape = 0 then
    match s.bestDie key k gidx (opened.filter (fun d => !(s.freeTiles k.ctx d).isEmpty)) with
    | none => none
    | some d => (s.freeTiles k.ctx d).head?.map (fun g => tileCoords d g)
  else if k.shape = 1 then
    (s.bestDie key k gidx (opened.filter free)).map dieCoords
  else if opened.length = k.dies.length && k.dies.all free then some (k.dies.flatMap dieCoords)
  else none

/-- Every saved task of the group can be resumed at its place (R346, R355). -/
def State.groupSeats (s : State) (x : Group) : Bool :=
  x.tasks.all (fun t =>
    let k := s.task t
    !decide (k.st = .saved ∧ k.why ≠ .wait) ||
      (s.canSeat t && (match k.frame with | some f => (s.framePages k.ctx f .r).isSome | none => false)))

/-- A task of the group is saved in dt.launch.w: it counts as pre-empted (R166). -/
def State.launchSaved (s : State) (x : Group) : Bool :=
  !x.complete && !x.killed && x.tasks.any (fun t => decide ((s.task t).st = .saved) &&
    (match (s.ctl t).wait with | .launchW .. => true | _ => false))

/-- A pre-empted group of the same context and a higher priority awaits resumption, or one with a task saved in dt.launch.w: nothing lower of the context starts (R48, R166). -/
def State.promised (s : State) (k : Kernel) : Bool :=
  s.groups.any (fun e => (s.awaits e.2 || s.launchSaved e.2) && decide (k.prio < e.2.prio) &&
    (match s.kernel e.2.kernel with | some j => decide (j.ctx = k.ctx) | none => false))

/-- The candidate can be placed or resumed now. -/
def State.candFits (s : State) : Waiter → Bool
  | .saved g =>
    match SMap.find s.groups g with
    | some x => s.groupSeats x && (let shut := s.closedTo (.saved g); (s.candDies (.saved g)).all (fun d => !shut.contains d))
    | none => false
  | .fresh key gidx =>
    match s.kernel key with
    | some k => !s.promised k && (s.placesFor key k gidx).isSome
    | none => false

/-- The first candidate in order that fits; a group that does not fit holds back no later one (R345). -/
def State.firstFit (s : State) : Option Waiter := ((s.ranked.map (·.cand)).find? (fun c => s.candFits c))

/-! ### The start of a task (R340, R354, R374) -/

/-- LPAREA0 of a new task: the whole program-data range. -/
def lpareaStart : Word := 0x8000_0007_0277_0000

/-- Membership of a level of a new task. -/
def membOf (top l : Nat) (c : Coord) (all : List Coord) : Memb :=
  if l = 0 ∨ top < l then ⟨false, false, false, false, 0, 0⟩
  else
    let same : Coord → Bool := fun x =>
      if l = 1 then decide (x.d = c.d ∧ x.tile = c.tile) else if l = 2 then decide (x.d = c.d) else true
    ⟨true, decide (l = top), false, false, (all.filter same).length,
      if l = 1 then c.d * 16 + c.tile else if l = 2 then c.d else 0⟩

/-- The state a task starts with (R340). -/
def startArch (k : Kernel) (gidx idx top : Nat) (c : Coord) (all : List Coord) : Arch :=
  let x : Vector Word 32 := Vector.ofFn (fun (i : Fin 32) =>
    BitVec.ofNat 64 (if i.val = 10 then gidx else if i.val = 11 then idx else if i.val = 12 then k.handle else if i.val = 13 then k.count else 0))
  { Arch.reset with
    ctl := { Ctl.reset with
      x := x, pc := BitVec.ofNat 64 k.ctentry, mode := .u, dflt := decide (k.ctentry = 0)
      s := { SCsr.reset with scounteren := 7 }
      d := { DCsr.reset with lpa := vset DCsr.reset.lpa 0 lpareaStart } }
    bar := { BarCore.reset with memb := Vector.ofFn (fun (i : Fin 4) => membOf top (i.val + 1) c all) } }

/-- A new task of group `g` at a coordinate. -/
def State.newTask (s : State) (k : Kernel) (g gidx idx top : Nat) (c : Coord) (all : List Coord) : Task :=
  let a := startArch k gidx idx top c all
  let p := (s.entry c).phys
  { Task.blank with
    st := .running, ctx := k.ctx, kh := k.handle, gidx := gidx, group := g, index := idx, coord := c, phys := p, home := p
    bulk := k.bulk, arch := a, snap := some a }

/-- Words written to a column before its task starts. -/
def State.putWords (s : State) (key : Nat) : List Word → State
  | [] => s
  | w :: l => ((s.write key w.toNat 8).setPoison key .none).putWords (key + 8) l

/-- The parameter block is at PCOL before the control thread starts (R340). -/
def State.putParams (s : State) (k : Kernel) (c : Coord) : State :=
  match k.pcol with
  | some o => s.putWords (columnKey (s.entry c).phys o) k.params
  | none => s

/-- The instances of a group, one for each domain (R371, R372). -/
def newInsts (g top : Nat) (ts : List (Nat × Coord)) : List (Nat × Inst) :=
  ((List.range top).map (· + 1)).flatMap (fun l =>
    let dom : Coord → Nat := fun c => if l = 1 then c.d * 16 + c.tile else if l = 2 then c.d else 0
    (((ts.map (fun e => dom e.2)).eraseDups).map (fun d =>
      (instKey g l d, Inst.new g l d ((ts.filter (fun e => decide (dom e.2 = d))).map (·.1))))))

/-- Packets held for a reissued group go to its new coordinates (R370). -/
def State.redirect (s : State) (key gidx : Nat) (old all : List Coord) : State :=
  { s with net := s.net.map (fun p =>
      if p.heldFor = some (key, gidx) ∧ old.contains p.dst then { p with dst := all.getD (old.idxOf p.dst) p.dst } else p) }

/-- Frames of the pod that were held for the group act on it, oldest first (R390). -/
def State.podDeliver (s : State) (g : Nat) : State :=
  let mine := s.podHeld.filter (fun f => decide (s.podGroup f = some g))
  mine.foldl (fun (s : State) f => s.podAct g f) { s with podHeld := s.podHeld.filter (fun f => decide (s.podGroup f ≠ some g)) }

/-- GROUP_PLACEMENT of a group on its coordinates: its tasks start (R339, R340, R346, R354, R390). -/
def State.placeGroup (s : State) (key : Nat) (k : Kernel) (gidx : Nat) (all : List Coord) : State :=
  let g := s.ids + 1
  let ts : List (Nat × Coord) := all.zipIdx.map (fun e => (g + 1 + e.2, e.1))
  let again := k.todo.find? (fun e => decide (e.gidx = gidx))
  let top := s.topOf k
  let seq : Option Nat :=
    if top = 4 then (match again with | some e => e.podSeq | none => some (s.ctx k.ctx).podSeq) else none
  let next := decide (top = 4) && again.isNone
  let grp : Group :=
    { kernel := key, gidx := gidx, top := top, tasks := ts.map (·.1), placedAt := s.now, prio := k.prio, order := k.order, rbcnt := 0,
      nr := false, rolling := false, reads := [], writes := [], podSeq := seq, podRest := [], restSent := false, complete := false,
      killed := false }
  let s := all.foldl (fun (s : State) c => s.putParams k c) s
  let s := ts.foldl (fun (s : State) e => s.setTask e.1 (s.newTask k g gidx (e.1 - g - 1) top e.2 all)) s
  let s := ts.foldl (fun (s : State) e => s.cutCode e.1) s
  let s : State := { s with ids := g + all.length, groups := SMap.put s.groups g grp, insts := s.insts ++ newInsts g top ts }
  let s := if next then s.updCtx k.ctx (fun c => { c with podSeq := c.podSeq + 1 }) else s
  let s := match again with | some e => s.redirect key gidx e.coords all | none => s
  let s := s.updKernel key (fun k =>
    { k with todo := k.todo.filter (fun e => decide (e.gidx ≠ gidx)), first := if again.isNone && decide (k.first = gidx) then k.first + 1 else k.first
             starving := k.starving.filter (· ≠ gidx) })
  (s.notePlaced key).podDeliver g

/-! ### Pre-emption (R349) -/

/-- A task has its place on one of some dies, or is a visitor on one (R349, R363). -/
def Task.standsOn (k : Task) (ds : List Nat) : Bool := ds.contains k.coord.d || (k.visitor && ds.contains k.phys.d)

/-- A running group that may be saved for a group of priority `p` on some dies. -/
def State.preemptable (s : State) (p : Nat) (ds : List Nat) (x : Group) : Bool :=
  !x.complete && !x.killed && !x.rolling && decide (x.prio < p) &&
    x.tasks.any (fun t => decide ((s.task t).st = .running) && (s.task t).standsOn ds) &&
    (match s.kernel x.kernel with | some k => decide ((s.ctx k.ctx).st = .resident) | none => false)

/-- A save for pre-emption is under way on one of the dies. -/
def State.preempting (s : State) (ds : List Nat) : Bool :=
  s.tasks.any (fun e => e.2.live && decide (e.2.why = .preempt ∧ e.2.st ≠ .saved) && e.2.standsOn ds)

/-- The group to save: of the lowest priority, the one placed last (R349). -/
def State.victimGroup (s : State) (p : Nat) (ds : List Nat) : Option Nat :=
  ((s.groups.filter (fun e => s.preemptable p ds e.2)).foldl (fun (acc : Option (Nat × Group)) e =>
    match acc with
    | none => some e
    | some b =>
      if e.2.prio < b.2.prio ∨ (e.2.prio = b.2.prio ∧ (b.2.placedAt < e.2.placedAt ∨ (b.2.placedAt = e.2.placedAt ∧ b.1 < e.1))) then some e else acc)
    none).map (·.1)

/-- The first group in order that does not fit saves another, one at a time; otherwise the first that fits is placed (R345, R349). -/
def State.placeNext (s : State) : State :=
  let l := s.ranked
  let pre : Option Nat :=
    match l.head? with
    | none => none
    | some r =>
      let ds := s.candDies r.cand
      if s.candFits r.cand || s.preempting ds then none else s.victimGroup r.prio ds
  match pre with
  | some g => s.saveGroup g .preempt
  | none =>
    match s.firstFit with
    | some (.fresh key gidx) =>
      match s.kernel key with
      | some k => (match s.placesFor key k gidx with | some all => s.placeGroup key k gidx all | none => s)
      | none => s
    | _ => s

/-- GROUP_PLACEMENT; none while a master is elected (R345, R346, R349, R351). -/
def execGroupPlacement (s : State) : Host.Outcome State Fault Refusal := .next (if s.dies.electing then s else s.placeNext)

/-- A saved task is next: its group has begun to resume, or it is the first that fits (R345, R355). -/
def State.mayResume (s : State) (t : Nat) : Bool :=
  let g := (s.task t).group
  s.tasks.any (fun e => decide (e.2.group = g) && e.2.onCore) || decide (s.firstFit = some (.saved g))

/-- The group of a task is being rolled back: its saved members resume ahead of other groups (R387). -/
def State.rollsBack (s : State) (t : Nat) : Bool :=
  match s.groupOf t with
  | some g => g.rolling
  | none => false

/-- TASK_RESUME (R301, R345, R355, R387). -/
def execTaskResume (t : Nat) (s : State) : Host.Outcome State Fault Refusal :=
  .next (if s.canSeat t && (s.rollsBack t || (decide ((s.task t).why ≠ .wait) && s.mayResume t)) then s.resume t else s)

/-- PLACEMENT_STARVATION: an unplaced group has waited 1,000,000 pt (R345). -/
def execPlacementStarvation (c h g : Nat) (s : State) : Host.Outcome State Fault Refusal :=
  .next { s with kernels := s.kernels.map (fun e =>
    let k := e.2
    if k.ctx = c ∧ k.handle = h ∧ (k.st = .ready ∨ k.st = .running) ∧ (s.ctx c).st = .resident ∧ g ∉ k.starving ∧
        (k.todo.any (fun x => decide (x.gidx = g ∧ x.since + 1_000_000 ≤ s.now)) ∨
          (k.first ≤ g ∧ g < k.count ∧ k.since + 1_000_000 ≤ s.now)) then
      (e.1, { k with starving := g :: k.starving })
    else e) }

/-- The lowest-numbered live die is master, where an election runs (R350, R351). -/
def State.elect (s : State) : State :=
  if s.dies.electing then
    { s with dies := { s.dies with electing := false, master := ((List.range 16).find? (fun d => !s.fencedDie d && !s.dies.fencing.any (fun e => e.1 = d))).getD 0 } }
  else s

/-- MASTER_ELECTION (R351). -/
def execMasterElection (s : State) : Host.Outcome State Fault Refusal := .next s.elect

end Sys2Proof.Machine
end

