-- ==== Sys2Proof/Machine/Contexts.lean ====
section
/-! DEFINITION. Contexts: create, admit, evict, stop and destroy, with spooling, the release of a destroyed context, and the queues' part in them (R289 to R297, R313). -/
namespace Sys2Proof.Machine

/-! ### The point of a queue (R318) -/

/-- Queue address of the record at the execution point (R309, R318). -/
def Queue.recordAt (x : Queue) : Nat :=
  match x.point with
  | some a => a
  | none => x.rbase + 16 * (x.rptr.toNat % x.rsize)

/-- The state of a queue whose execution point is in force (R312, R313). -/
def Queue.settled (x : Queue) : QSt := if x.point = none ∧ x.rptr = x.wptr then .idle else .active

/-- The record at the execution point retires, and the point goes on to `next` (R318, R326). -/
def Queue.retireTo (x : Queue) (next : Option Nat) : Queue :=
  let x : Queue := { x with rptr := if x.point = none then x.rptr + 1 else x.rptr, point := next,
                            wait := .none, retiring := false }
  { x with st := x.settled }

/-- The record retires and the next one follows it (R318). -/
def Queue.retire (x : Queue) : Queue := x.retireTo (x.point.map (· + 16))

/-- A record whose effect has been taken has retired before the queue leaves its state. -/
def Queue.finish (x : Queue) : Queue := if x.retiring then x.retire else x

/-! ### CREATE (R289, R292) -/

/-- A descriptor of the context table is valid (R292). -/
def State.descriptorOk (s : State) (c : Nat) : Bool :=
  let f := s.ctxField c; let caps := f 48 8; let tag := f 60 2
  decide (f 29 3 = 0 ∧ f 44 4 = 0 ∧ f 59 1 = 0 ∧ f 62 194 = 0 ∧ f 56 1 / 4 = 0 ∧ f 57 1 / 8 = 0 ∧ f 58 1 / 2 = 0 ∧ caps / 32 = 0) &&
  decide (f 0 8 % 0x1000 = 0 ∧ f 8 8 % 0x4_0000 = 0 ∧ f 32 8 % 0x40_0000 = 0) &&
  decide (1 ≤ f 40 4 ∧ f 40 4 ≤ 28672 ∧ f 56 1 ≠ 0) &&
  (if bit caps 4 then
     s.mg.podEn && !s.ctxs.any (fun e => decide (e.1 ≠ c ∧ e.2.st ≠ .undefined ∧ e.2.podtag = tag) && bit e.2.caps 4)
   else decide (tag = 0))

/-- CREATE: the next state and the status (R292). -/
def State.createContext (s : State) (c : Nat) : State × Nat :=
  if (s.ctx c).st ≠ .undefined then (s, 2)
  else if !s.descriptorOk c then (s, 3)
  else
    let f := s.ctxField c
    let x : Ctx := { Ctx.blank with st := .defined, ptroot := f 0 8, tqbase := f 8 8, savebase := f 32 8, saveframes := f 40 4,
                                    caps := f 48 8, classes := f 56 1, priomax := f 57 1, chanAsk := bit (f 58 1) 0, podtag := f 60 2 }
    ((((s.setCtxField c 16 0 4).setCtxField c 24 0 4).setCtxField c 28 0 1).setCtx c x, 0)

/-! ### ADMIT (R292, R297, R313) -/

/-- Contexts that hold a resident place. -/
def State.residents (s : State) : Nat := (s.ctxs.filter (fun e => decide (e.2.st = .resident ∨ e.2.st = .evicting))).length
/-- Channels held. -/
def State.channels (s : State) : List Nat := s.ctxs.filterMap (fun e => e.2.channel)
def State.freeChannel (s : State) : Option Nat := (List.range 16).find? (fun n => !s.channels.contains n)
def State.freePlace (s : State) : Option Nat :=
  (List.range 64).find? (fun p => !s.ctxs.any (fun e => decide (e.2.place = some p)))

/-- A suspended queue goes back to its prior state; a record that waited executes again from its start (R313). -/
def Queue.unsuspend (x : Queue) : Queue :=
  if x.st ≠ .suspended then x
  else
    let x : Queue := { x with wait := .none, retiring := false }
    match x.prior with
    | .idle => { x with st := x.settled }
    | .waiting => { x with st := .active }
    | p => { x with st := p }

/-- ADMIT (R292). -/
def State.admitContext (s : State) (c : Nat) : State × Nat :=
  let x := s.ctx c
  if x.st ≠ .defined then (s, 2)
  else if 64 ≤ s.residents then (s, 4)
  else
    match (if x.chanAsk then s.freeChannel.map some else some none) with
    | none => (s, 5)
    | some ch =>
      let s := s.setCtx c { x with st := .resident, channel := ch, place := s.freePlace }
      let s := (s.queuesOf c).foldl (fun (s : State) q => s.updQueue q Queue.unsuspend) s
      ({ s with mg := { s.mg with ctxChannel := ch.getD s.mg.ctxChannel } }, 0)

/-! ### EVICT (R292, R294, R313) -/

/-- A queue of a context that is evicted (R313). -/
def Queue.suspend (x : Queue) : Queue :=
  let x := x.finish
  if x.st = .idle ∨ x.st = .active ∨ x.st = .waiting then
    { x with prior := x.st, st := .suspended, wait := .none, retiring := false }
  else x

/-- EVICT (R294). -/
def State.evictContext (s : State) (c : Nat) : State × Nat :=
  if (s.ctx c).st ≠ .resident then (s, 2)
  else
    let s := s.updCtx c (fun x => { x with st := .evicting })
    let s := (s.queuesOf c).foldl (fun (s : State) q => s.updQueue q Queue.suspend) s
    ({ s with tasks := s.tasks.map (fun e => if e.2.ctx = c then (e.1, e.2.askSave .evict) else e) }, 0)

/-! ### STOP (R293) -/

/-- STOP: a kind-7 record, then FATAL; DESIGN CHOICE, log 129: its COORD, KHANDLE and STEP are 0 and its WHERE 0xFF (R293, R306). -/
def State.stopContext (s : State) (c : Nat) : State × Nat :=
  if (s.ctx c).st ≠ .resident then (s, 2)
  else (((s.trapAppend c (trapRecord 0 7 2 0xFF 0 0 0 s.now 0 0 0 0) false).1).contextFatal c, 0)

/-! ### DESTROY (R295) -/

/-- A queue of a destroyed context is FREE once its begun KCOPYs have landed (R313). -/
def Queue.destroy (x : Queue) : Queue :=
  if x.kcopies.isEmpty then { x with st := .free, wait := .none, retiring := false, destroying := false }
  else { x with wait := .none, retiring := false, destroying := true }

/-- Groups of the kernels of a context. -/
def State.groupsOf (s : State) (c : Nat) : List Nat :=
  (s.groups.filter (fun e => match s.kernel e.2.kernel with | some k => decide (k.ctx = c) | none => false)).map (·.1)

/-- Kernels of a context are DISCARDED (R339). -/
def State.discardKernels (s : State) (c : Nat) : State :=
  { s with kernels := s.kernels.map (fun e =>
      if e.2.ctx = c then
        (e.1, { e.2 with st := if e.2.st.over then e.2.st else .discarded, share := .none, todo := [], first := e.2.count, held := false })
      else e) }

/-- Resident pages charged to a context leave residency, held ones when their hold ends (R295, R404). -/
def State.leaveAll (s : State) (frames : List Nat) : State :=
  frames.foldl (fun (s : State) f =>
    let r := s.resid f
    if r.st = .resident ∧ r.holds.isEmpty then s.leave f
    else if r.st = .home ∨ r.st = .writeback then s
    else s.setResid f { r with leaving := true }) s

/-- Resident frames of a context. -/
def State.chargedTo (s : State) (c : Nat) : List Nat :=
  (s.pg.resid.filter (fun e => decide (e.2.ctx = c ∧ e.2.st ≠ .home))).map (·.1)

/-- The gathered state of every page of a context reaches its tables, and its lease entries are no one's any more: its pages are unmapped (R295, R401). -/
def State.harvestContext (s : State) (c : Nat) : State :=
  let s := s.harvestTick.harvestPages c ((s.pg.gathered.filter (fun e => decide (e.1 / 2 ^ 40 = c))).map (fun e => e.1 % 2 ^ 40))
  { s with pg := { s.pg with
    known := s.pg.known.filter (fun e => decide (e.1 / 2 ^ 40 ≠ c))
    gleases := s.pg.gleases.map (fun l => if l.ctx = c then { l with dead := true } else l) } }

/-- Steps 1 to 4 of R295. -/
def State.destroyContext (s : State) (c : Nat) : State × Nat :=
  if (s.ctx c).st ≠ .defined ∧ (s.ctx c).st ≠ .fatal then (s, 2)
  else
    let gs := s.groupsOf c
    let ts := (s.tasks.filter (fun e => decide (e.2.ctx = c) && e.2.live)).map (·.1)
    let s := ts.foldl (fun (s : State) t => (s.unvisit t).discardTask t) s
    let s : State := { s with net := s.net.filter (fun p => !(decide (p.ctx = c) && (p.held || decide (p.ch = 18)))) }
    let s := gs.foldl (fun (s : State) g => s.releaseInsts g) s
    let s : State := { s with groups := s.groups.filter (fun e => !gs.contains e.1) }
    let s := s.discardKernels c
    let s := (s.queuesOf c).foldl (fun (s : State) q => s.updQueue q Queue.destroy) s
    let s := (s.harvestContext c).leaveAll (s.chargedTo c) |>.pumpFrames
    (s.updCtx c (fun x => { x with st := .destroying, place := none, qbars := [], destroyAt := s.now + Config.leaseLen }), 0)

/-! ### CTXCMD (R296) -/

/-- One context command. -/
def State.ctxApply (s : State) (op c : Nat) : State :=
  let r := match op with
    | 1 => s.createContext c
    | 2 => s.admitContext c
    | 3 => s.evictContext c
    | 4 => s.stopContext c
    | 5 => s.destroyContext c
    | _ => (s, 7)
  { r.1 with mg := { r.1.mg with ctxStatus := r.2, ctxLast := c, ctxPend := none } }

/-- A write to CTXCMD: ignored while a command is in progress; a command to an EVICTING or DESTROYING context waits (R296). -/
def State.ctxCommand (s : State) (op c : Nat) : State :=
  if s.mg.ctxPend.isSome then s
  else if (s.ctx c).st = .evicting ∨ (s.ctx c).st = .destroying then
    { s with mg := { s.mg with ctxPend := some (op, c), ctxLast := c } }
  else s.ctxApply op c

/-- A command that waited for the end of the context's state applies to the state that follows (R296). -/
def State.ctxPending (s : State) (c : Nat) : State :=
  match s.mg.ctxPend with
  | some (op, d) =>
    if d = c ∧ (s.ctx c).st ≠ .evicting ∧ (s.ctx c).st ≠ .destroying then s.ctxApply op c else s
  | none => s

/-- CONTEXT_CREATE (R292). -/
def execContextCreate (c : Nat) (s : State) : Host.Outcome State Fault Refusal := .next (s.ctxCommand 1 (c % 4096))
/-- CONTEXT_ADMIT (R292). -/
def execContextAdmit (c : Nat) (s : State) : Host.Outcome State Fault Refusal := .next (s.ctxCommand 2 (c % 4096))
/-- CONTEXT_EVICT (R294). -/
def execContextEvict (c : Nat) (s : State) : Host.Outcome State Fault Refusal := .next (s.ctxCommand 3 (c % 4096))
/-- CONTEXT_STOP (R293). -/
def execContextStop (c : Nat) (s : State) : Host.Outcome State Fault Refusal := .next (s.ctxCommand 4 (c % 4096))
/-- CONTEXT_DESTROY (R295). -/
def execContextDestroy (c : Nat) (s : State) : Host.Outcome State Fault Refusal := .next (s.ctxCommand 5 (c % 4096))

/-! ### The end of EVICTING (R292, R294) -/

/-- A record of the caravanserai goes into the column image of a save frame, and its tag with it (R294, R301). -/
def State.writeCaravan (s : State) (t : Nat) (x : Arrival) : Option State :=
  let k := s.task t
  match k.frame with
  | none => none
  | some f =>
    match s.framePages k.ctx f .w with
    | none => none
    | some ps =>
      match ps[47]? with
      | none => none
      | some p =>
        let s := if !s.takesWrite p then s
          else (s.write (s.served p.key + 0x8000 + 128 * k.arch.msgs.caravan) x.image 128).pageWritten p
        let s := s.gather k.ctx (s.frameVa k.ctx f + 65536 * 47) true (s.kerKey t)
        some (s.updTask t (fun k => { k with frameImg := s.frameCells ps }))

/-- An arrival is spooled into a saved task's images (R294). -/
def State.spoolArrival (s : State) (t : Nat) (x : Arrival) : Option State :=
  let m := (s.arch t).msgs
  if !m.room then none
  else if m.arrivals.length < 16 then some (s.updMsgs t (fun m => { m with arrivals := m.arrivals ++ [x] }))
  else
    (s.writeCaravan t x).map (fun s => s.updMsgs t (fun m => { m with arrivals := m.arrivals ++ [x], caravan := (m.caravan + 1) % 256 }))

/-- A packet of a context channel is spooled for a saved task (R294). -/
def State.spoolOne (s : State) (p : Packet) : Option State :=
  match s.taskAt p.ctx p.dst with
  | none => none
  | some t =>
    if (s.task t).st ≠ .saved then none
    else
      match p.body with
      | .bale b => (s.spoolArrival t (.bale b)).map (fun s => s.markFrom t p)
      | .msg m =>
        if m.trig then
          (if (s.arch t).msgs.parking.length < 32 then
             some ((s.updMsgs t (fun q => { q with parking := q.parking ++ [m] })).markFrom t p) else none)
        else (s.enterMailbox t m).map (fun s => s.markFrom t p)
      | _ => none

/-- Packets spooled one after another; none where one cannot be. -/
def State.spoolAll (s : State) : List Packet → Option State
  | [] => some s
  | p :: l =>
    match s.spoolOne p with
    | none => none
    | some s' => s'.spoolAll l

/-- A packet of a context's channel that has come to the end of its path, for a saved task, or that a distributor holds (R294). -/
def State.spoolable (s : State) (c : Nat) (p : Packet) : Bool :=
  decide (p.ctx = c ∧ p.ch < 16 ∧ p.path = some []) && !p.lost &&
    (p.held || (match s.taskAt c p.dst with | none => false | some t => decide ((s.task t).st = .saved)))

/-- The held packets of a context have been spooled: they leave the network, and the buffers they held send on (R294, R419). -/
def State.spooled (s : State) (c : Nat) (s' : State) : State :=
  ({ s' with net := s'.net.filter (fun p => !s.spoolable c p) } : State).pump

/-- EVICTION_COMPLETE: once every task is saved and every KCOPY of the queues has landed, the packets that have come in are spooled, and with the last one the channel is released; or the eviction is abandoned. A channel is never released before a packet that still travels (R292, R294, R297, R313). A command that waited for the end of EVICTING applies. -/
def execEvictionComplete (c : Nat) (s : State) : Host.Outcome State Fault Refusal :=
  .next (if (s.ctx c).st ≠ .evicting then s.ctxPending c
    else if s.tasks.any (fun e => decide (e.2.ctx = c ∧ e.2.st ≠ .saved) && e.2.live) then s
    else if s.queues.any (fun e => decide (e.2.ctx = c) && !e.2.kcopies.isEmpty) then s
    else
      match s.spoolAll (s.net.filter (fun p => s.spoolable c p)) with
      | some s' =>
        let s := s.spooled c s'
        if s.net.any (fun p => decide (p.ctx = c) && (!p.held || decide (p.ch < 16))) then s
        else ((s.leavePlace c).updCtx c (fun x => { x with st := .defined, channel := none })).ctxPending c
      | none =>
        let s := s.updCtx c (fun x => { x with st := .resident })
        let s := (s.queuesOf c).foldl (fun (s : State) q => s.updQueue q Queue.unsuspend) s
        { s with mg := { s.mg with ctxStatus := 6, ctxLast := c } }.ctxPending c)

/-- DESTROY_COMPLETE: the last lease has expired, the pages have left residency, and no packet of the context is in the network (R295, R297). -/
def execDestroyComplete (c : Nat) (s : State) : Host.Outcome State Fault Refusal :=
  .next (if (s.ctx c).st ≠ .destroying then s
    else if s.now < (s.ctx c).destroyAt then s
    else if s.net.any (fun p => decide (p.ctx = c)) then s
    else if s.queues.any (fun e => decide (e.2.ctx = c) && e.2.destroying) then s
    else if !(s.chargedTo c).isEmpty then s
    else
      let s := s.harvestContext c
      let s : State := { s with pg := { s.pg with
        gathered := s.pg.gathered.filter (fun e => decide (e.1 / 2 ^ 40 ≠ c)), ileases := s.pg.ileases.filter (fun l => decide (l.ctx ≠ c))
        gleases := s.pg.gleases.filter (fun l => decide (l.ctx ≠ c)) } }
      (s.setCtx c Ctx.blank).ctxPending c)

end Sys2Proof.Machine
end

