-- ==== Sys2Proof/Machine/Queues.lean ====
section
/-! DEFINITION. Queues and command processors: queue commands and doorbells, record service, the queue records, KCOPY, and the waiters of the pool (R308 to R329, R337). -/
namespace Sys2Proof.Machine

/-! ### Queue errors (R319) -/

/-- The queue stops in ERROR at its record (R313, R319). -/
def State.queueError (s : State) (q code : Nat) : State :=
  let s := s.leaveQbar q
  let s := s.updQueue q (fun x =>
    let x := x.finish
    { x with st := .error, errcode := code, erraddr := x.recordAt, wait := .none })
  ({ s with mg := { s.mg with qerrQid := q, qerrCode := code, qerrV := true } } : State).sendMsix 2

/-- The current record retires (R318). -/
def State.retireRecord (s : State) (q : Nat) : State := s.updQueue q Queue.retire
/-- The record has had its effect and retires with RECORD_RETIREMENT (R317). -/
def State.recordDone (s : State) (q : Nat) : State := s.updQueue q (fun x => { x with st := .active, wait := .none, retiring := true })
/-- The record waits (R313). -/
def State.recordWaits (s : State) (q : Nat) (w : QWait) : State := s.updQueue q (fun x => { x with st := .waiting, wait := w })

/-! ### Queue addresses (R310) -/

/-- `n` words from a queue address; the first failure gives its cause. -/
def State.queueWords (s : State) (h c : Nat) : Nat → Nat → Except Nat (List Word)
  | 0, _ => .ok []
  | n + 1, a =>
    match s.queueWord h c a with
    | .error e => .error e
    | .ok w =>
      match s.queueWords h c n (a + 8) with
      | .error e => .error e
      | .ok l => .ok (w :: l)


/-- A record whose addresses `l` reach host memory waits while the host link has failed; otherwise `k` (R426). -/
def State.withHost (s : State) (q : Nat) (l : List Nat) (k : State) : State :=
  if s.hostDown && l.any (fun a => bit a 63) then s.recordWaits q .host else k

/-- The record of queue `q` writes a word at its address, or adds to it; the record retires once its write has landed (R320, R321, R328). -/
def State.queueStore (s : State) (q a k v : Nat) (add : Bool) : State :=
  (s.semWrite { key := k, addr := a, ctx := (s.queue q).ctx, val := v, add := add, wakes := true, queue := q, why := .record }).recordDone q

/-! ### QCMD (R313, R314) -/

/-- A field of an entry of the queue table (R309). -/
def State.queueField (s : State) (q off n : Nat) : Nat := s.read (s.mg.qtbase + 64 * q + off) n

/-- The processor that takes a new queue: the one with the fewest, the lowest among equals; in minimal mode only those of gateway 0 run (R308, R437). -/
def State.bindCp (s : State) : Nat :=
  let load (h : Nat) : Nat := (s.queues.filter (fun e => decide (e.2.cp = h ∧ e.2.st ≠ .free))).length
  (List.range (if s.bt.minimal then 2 else 16)).foldl (fun b h => if load h < load b then h else b) 0

/-- Bits of a queue address that must be zero (R310). -/
def queueForm (a : Nat) : Bool := if bit a 63 then decide (bits a 62 52 = 0) else decide (bits a 62 56 = 0)

/-- Failures of a descriptor that give status 3 after the others (R309, R313). -/
def State.queueDescOk (s : State) (q : Nat) (x : Ctx) : Bool :=
  let rb := s.queueField q 0 8; let rs := s.queueField q 8 4; let pr := s.queueField q 14 1; let cl := s.queueField q 15 1
  decide (pr < 8 ∧ cl < 2 ∧ rb % 4096 = 0 ∧ 16 ≤ rs ∧ rs ≤ 65536 ∧ 2 ^ Nat.log2 rs = rs ∧ pr ≤ x.priomax) && queueForm rb &&
    bit x.classes cl

/-- CREATE (R308, R309, R313). -/
def State.createQueue (s : State) (q : Nat) : State × Nat :=
  if (s.queue q).st ≠ .free then (s, 2)
  else
    let w := s.queueField q 12 2; let c := w % 4096; let x := s.ctx c
    if 4096 ≤ w then (s, 3)
    else if x.st ≠ .defined ∧ x.st ≠ .resident then (s, 4)
    else if 64 ≤ (s.queuesOf c).length then (s, 5)
    else if !s.queueDescOk q x then (s, 3)
    else
      let cp := s.bindCp
      let y : Queue := { Queue.blank with
        st := if x.st = .resident then .idle else .suspended, rbase := s.queueField q 0 8, rsize := s.queueField q 8 4,
        ctx := c, prio := s.queueField q 14 1, bulk := decide (s.queueField q 15 1 = 1), cp := cp }
      let s := s.setQueue q y
      ({ s with mg := { s.mg with qCp := cp } }, 0)

/-- RESUME (R313). -/
def State.resumeQueue (s : State) (q : Nat) : State × Nat :=
  if (s.queue q).st ≠ .error then (s, 2)
  else (s.updQueue q (fun x => { x with st := .active, wait := .none, retiring := false }), 0)

/-- DESTROY: the queue is FREE once every begun KCOPY has landed (R313). -/
def State.destroyQueue (s : State) (q : Nat) : State × Nat :=
  let x := s.queue q
  if x.st = .idle ∨ x.st = .error ∨ x.st = .suspended ∨ x.st = .halted then
    let s := (s.leaveQbar q).updQueue q Queue.destroy
    ({ s with mg := { s.mg with qBusy := !x.kcopies.isEmpty } }, 0)
  else (s, 2)

/-- A write to QCMD: ignored while a command is in progress (R314). -/
def State.queueCommand (s : State) (op q : Nat) : State :=
  if s.mg.qBusy then s
  else
    let r := match op with
      | 1 => s.createQueue q
      | 2 => s.resumeQueue q
      | 3 => s.destroyQueue q
      | _ => (s, 7)
    { r.1 with mg := { r.1.mg with qStatus := r.2, qLast := q } }

/-- QUEUE_CREATE (R313). -/
def execQueueCreate (q : Nat) (s : State) : Host.Outcome State Fault Refusal := .next (s.queueCommand 1 (q % 1024))
/-- QUEUE_RESUME (R313). -/
def execQueueResume (q : Nat) (s : State) : Host.Outcome State Fault Refusal := .next (s.queueCommand 2 (q % 1024))
/-- QUEUE_DESTROY (R313). -/
def execQueueDestroy (q : Nat) (s : State) : Host.Outcome State Fault Refusal := .next (s.queueCommand 3 (q % 1024))

/-- A doorbell write (R313, R315). -/
def State.doorbell (s : State) (q : Nat) (w : BitVec 32) : State :=
  let x := s.queue q
  if x.st = .free ∨ x.st = .halted ∨ x.destroying then s
  else if (x.wptr - x.rptr).toNat ≤ (w - x.rptr).toNat ∧ (w - x.rptr).toNat ≤ x.rsize then
    s.updQueue q (fun x =>
      if w = x.wptr then x
      else
        { x with wptr := w, st := if x.st = .idle then .active else x.st,
                 prior := if x.st = .suspended ∧ x.prior = .idle then .active else x.prior })
  else s.queueError q 0x16

/-- QUEUE_DOORBELL (R315). -/
def execQueueDoorbell (q : Nat) (wptr : BitVec 32) (s : State) : Host.Outcome State Fault Refusal :=
  .next (s.doorbell (q % 1024) wptr)

/-! ### Records (R317 to R328): each executes on the queue that is served -/

/-- A record whose address is aligned to `al` and translates with `need` goes on with its key; otherwise the queue stops (R310, R319). -/
def State.withAddr (s : State) (al : Nat) (need : Perm) (a : Nat) (k : Nat → State) : State :=
  if a % al ≠ 0 then s.queueError s.fQueue 0x05
  else
    match s.queueFixed (s.queue s.fQueue).gate (s.queue s.fQueue).ctx need a with
    | .error e => s.queueError s.fQueue e
    | .ok key => k key

/-- A semaphore that is written must not be poisoned (R319). -/
def State.withSem (s : State) (a : Nat) (k : Nat → Word → State) : State :=
  s.withAddr 8 .w a (fun key =>
    let r := s.readWord key false
    if r.2 ≠ .none then s.queueError s.fQueue 0x09 else k key r.1)

/-- The check of a completion semaphore when the record executes; address 0 names none (R319, R322, R323). -/
def State.completionFault (s : State) (h c sem : Nat) : Option Nat :=
  if sem = 0 then none
  else
    match s.queueFixed h c .w sem with
    | .error e => some e
    | .ok key => if (s.readWord key false).2 ≠ .none then some 0x09 else none

/-- NOPQ (R317). -/
def execNopq (s : State) : Host.Outcome State Fault Refusal := .next (s.retireRecord s.fQueue)

/-- The condition of a SEMWAIT (R320). -/
def QCond.holds : QCond → Nat → Nat → Bool
  | .ge, x, v => decide (v ≤ x)
  | .eq, x, v => decide (x = v)
  | .ne, x, v => decide (x ≠ v)
  | .lt, x, v => decide (x < v)

/-- Time of the k-th read again of a SEMWAIT first read at `t0` (R320). -/
def rereadAt (t0 k : Nat) : Nat := if k ≤ 10 then t0 + 1000 * (2 ^ k - 1) else t0 + 1_023_000 + (k - 10) * 1_000_000

/-- A SEMWAIT reads its semaphore: the record retires, or waits as `w` (R320). -/
def State.semRead (s : State) (q a : Nat) (c : QCond) (v : Nat) (w : QWait) : State :=
  match s.queueWord (s.queue q).gate (s.queue q).ctx a with
  | .error e => s.queueError q e
  | .ok x =>
    let s := s.queueGather (s.queue q).ctx a false
    if QCond.holds c x.toNat v then s.retireRecord q else s.recordWaits q w

/-- SEMWAIT (R320). -/
def execSemwait (c : QCond) (val : BitVec 48) (addr : Word) (s : State) : Host.Outcome State Fault Refusal :=
  .next (if addr.toNat % 8 ≠ 0 then s.queueError s.fQueue 0x05
    else s.semRead s.fQueue addr.toNat c val.toNat (.sem addr.toNat c val.toNat s.now 0 (rereadAt s.now 1) none))

/-- SEMSIG: a saturating addition in one atomic step (R321). -/
def execSemsig (inc : BitVec 48) (addr : Word) (s : State) : Host.Outcome State Fault Refusal :=
  .next (s.withSem addr.toNat (fun k _ => s.queueStore s.fQueue addr.toNat k inc.toNat true))

/-- SEMSET (R321). -/
def execSemset (val : BitVec 48) (addr : Word) (s : State) : Host.Outcome State Fault Refusal :=
  .next (s.withSem addr.toNat (fun k _ => s.queueStore s.fQueue addr.toNat k val.toNat false))

/-- The offer of a queue (R298, R322, R345). -/
def State.queueOffer (s : State) (q : Nat) : Offer :=
  let x := s.queue q
  { src := .queue q, ctx := x.ctx, d := 0, g := 0, ker := 0, bulk := x.bulk, prio := x.prio }

/-- The queue error of an offer that fails (R322, R336). -/
def Reply.code : Reply → Nat
  | .bad 3 _ => 0x03
  | .bad _ (some e) => if e = 0x0A then 0x09 else e
  | _ => 0x16

/-- KLAUNCH offers the record that it has read; the queue waits while the pool is full, from the first offer on, and repeats the offer alone (R322, R332, R337). -/
def State.offerLaunch (s : State) (q sem since : Nat) (r : LaunchRec) (x : Parts) : State :=
  match s.offerParts (s.queueOffer q) r x sem with
  | (s, .given _) => s.retireRecord q
  | (s, .full) => s.recordWaits q (.pool since sem r x)
  | (s, e) => s.queueError q e.code

/-- KLAUNCH reads its record and everything the record names at its start (R322, R332). -/
def State.readOffer (s : State) (q sem rec : Nat) : State :=
  match s.queueWords (s.queue q).gate (s.queue q).ctx 8 rec with
  | .error e => s.queueError q e
  | .ok l =>
    match s.readLaunch (s.queueOffer q) (LaunchRec.ofWords l) with
    | (s, .error e) => s.queueError q e.code
    | (s, .ok x) => s.offerLaunch q sem s.now (LaunchRec.ofWords l) x

/-- KLAUNCH; no launch is accepted while a master is elected (R322, R351). -/
def execKlaunch (sem : BitVec 48) (rec : Word) (s : State) : Host.Outcome State Fault Refusal :=
  .next (if s.dies.electing then s
    else if sem.toNat % 8 ≠ 0 then s.queueError s.fQueue 0x05
    else if rec.toNat % 64 ≠ 0 then s.queueError s.fQueue 0x16
    else
      match s.completionFault (s.queue s.fQueue).gate (s.queue s.fQueue).ctx sem.toNat with
      | some e => s.queueError s.fQueue e
      | none => s.readOffer s.fQueue sem.toNat rec.toNat)

/-- The pages of one end of a KCOPY, from page number `p` on (R323). -/
def State.kcopyPages (s : State) (h c : Nat) (need : Perm) (a p : Nat) : Nat → Except Nat (SMap (Nat × Bool))
  | 0 => .ok []
  | n + 1 =>
    match s.queueSpot h c need (max a (p * 65536)) with
    | .error e => .error e
    | .ok k =>
      match s.kcopyPages h c need a (p + 1) n with
      | .error e => .error e
      | .ok l => .ok ((p, k.1 / 65536 * 65536, k.2) :: l)

/-- Pages a range of queue addresses touches. -/
def pagesIn (a n : Nat) : Nat := if n = 0 then 0 else (a + n - 1) / 65536 - a / 65536 + 1

/-- Two ranges in one form that overlap (R323). -/
def overlapping (d s n : Nat) : Bool :=
  decide (0 < n) && (bit d 63 == bit s 63) && decide (d < s + n ∧ s < d + n)

/-- The translation of the pages of a KCOPY is gathered (R397, R401). -/
def State.kcopyGather (s : State) (c : Nat) (l : SMap (Nat × Bool)) : State :=
  l.foldl (fun (s : State) e => s.queueGather c (e.1 * 65536) false) s

/-- When the oldest entry that a KCOPY holds was read from its table (R397). -/
def State.oldestGrant (s : State) (c : Nat) (l : SMap (Nat × Bool)) : Nat :=
  l.foldl (fun n e => if bit (e.1 * 65536) 63 then n else min n (s.grantedAt c (e.1 * 65536))) s.now

/-- KCOPY: its check phase (R323). -/
def execKcopy (desc : Word) (s : State) : Host.Outcome State Fault Refusal :=
  .next (let q := s.fQueue; let c := (s.queue q).ctx; let h := (s.queue q).gate
    if desc.toNat % 16 ≠ 0 then s.queueError q 0x05
    else
      match s.queueWords h c 4 desc.toNat with
      | .error e => s.queueError q e
      | .ok l =>
        let d := (l.getD 0 0).toNat; let r := (l.getD 1 0).toNat; let n := (l.getD 2 0).toNat; let sem := (l.getD 3 0).toNat
        s.withHost q [d, r, sem] (if sem % 8 ≠ 0 then s.queueError q 0x05
        else if d % 8 ≠ 0 ∨ r % 8 ≠ 0 ∨ n % 8 ≠ 0 ∨ 2 ^ 40 ≤ n ∨ overlapping d r n then s.queueError q 0x16
        else if !queueForm d || !queueForm r then s.queueError q 0x08
        else
          match s.kcopyPages h c .w d (d / 65536) (pagesIn d n) with
          | .error e => s.queueError q e
          | .ok dp =>
            match s.kcopyPages h c .r r (r / 65536) (pagesIn r n) with
            | .error e => s.queueError q e
            | .ok sp =>
              match s.completionFault h c sem with
              | some e => s.queueError q e
              | none =>
                let k : KCopy := { dst := d, src := r, bytes := n, sem := sem, since := s.oldestGrant c (dp ++ sp), dpages := dp, spages := sp, landed := [],
                                    sent := [], num := ((s.queue q).kcopies.map (·.num)).foldl max 0 + 1 }
                let s := ((s.queueGather c desc.toNat false).kcopyGather c dp).kcopyGather c sp
                (s.updQueue q (fun x => { x with kcopies := x.kcopies ++ [k] })).recordDone q))

/-- Arrivals of an instance of a context. -/
def Ctx.qbar (x : Ctx) (id : Nat) : Option QBar := x.qbars.find? (fun b => b.id = id)
def Ctx.putQbar (x : Ctx) (b : QBar) : Ctx := { x with qbars := x.qbars.filter (fun y => y.id ≠ b.id) ++ [b] }
def Ctx.dropQbar (x : Ctx) (id : Nat) : Ctx := { x with qbars := x.qbars.filter (fun y => y.id ≠ id) }

/-- QBAR: the last arrival retires the records of all (R324). -/
def execQbar (bid n1 : BitVec 6) (s : State) : Host.Outcome State Fault Refusal :=
  .next (let q := s.fQueue; let c := (s.queue q).ctx; let id := bid.toNat; let n := n1.toNat + 1
    let b := ((s.ctx c).qbar id).getD ⟨id, n, []⟩
    if n < 2 ∨ b.n ≠ n then s.queueError q 0x16
    else
      let l := if b.queues.contains q then b.queues else b.queues ++ [q]
      if n ≤ l.length then l.foldl (fun (s : State) j => s.retireRecord j) (s.updCtx c (fun x => x.dropQbar id))
      else (s.updCtx c (fun x => x.putQbar ⟨id, n, l⟩)).recordWaits q (.qbar id))

/-- Every KCOPY of a queue has landed, with its completion signal (R327). -/
def State.copiesDone (s : State) (q : Nat) : Bool := (s.queue q).kcopies.isEmpty && !s.heldBy q [.kcopy]

/-- INTR: it waits as FENCEQ does, and until its message can be sent (R325, R426). -/
def execIntr (entry : BitVec 11) (s : State) : Host.Outcome State Fault Refusal :=
  .next (if entry.toNat < 16 then s.queueError s.fQueue 0x16
    else if s.copiesDone s.fQueue && !s.hostDown then (s.sendMsix entry.toNat).recordDone s.fQueue
    else s.recordWaits s.fQueue (.copies (some entry.toNat)))

/-- JUMP (R326). -/
def execJump (target : Word) (s : State) : Host.Outcome State Fault Refusal :=
  .next (if (s.queue s.fQueue).point = none then s.queueError s.fQueue 0x16
    else s.withAddr 16 .r target.toNat (fun _ => s.updQueue s.fQueue (fun x => x.retireTo (some target.toNat))))

/-- CALLQ (R326). -/
def execCallq (target : Word) (s : State) : Host.Outcome State Fault Refusal :=
  .next (if 3 ≤ (s.queue s.fQueue).sdepth then s.queueError s.fQueue 0x16
    else s.withAddr 16 .r target.toNat (fun _ => s.updQueue s.fQueue (fun x =>
      { x with retstk := x.retstk.set x.sdepth (match x.point with | none => 0 | some a => (a + 16) % 2 ^ 64),
               sdepth := x.sdepth + 1 }.retireTo (some target.toNat))))

/-- RETQ (R326). -/
def execRetq (s : State) : Host.Outcome State Fault Refusal :=
  .next (if (s.queue s.fQueue).point = none then s.queueError s.fQueue 0x16
    else s.updQueue s.fQueue (fun x =>
      let a := x.retstk.getD (x.sdepth - 1) 0
      { x with sdepth := x.sdepth - 1 }.retireTo (if a = 0 then none else some a)))

/-- The condition of WAITIDLE: kernels are over and KCOPYs have landed, with their signals (R327). -/
def State.queueIdle (s : State) (q : Nat) : Bool :=
  let x := s.queue q
  s.copiesDone q && !s.heldBy q [.kernel] && x.kernels.all (fun k => match s.kernel k with | some y => y.st.over | none => true)

/-- WAITIDLE (R327). -/
def execWaitidle (s : State) : Host.Outcome State Fault Refusal :=
  .next (if s.queueIdle s.fQueue then s.retireRecord s.fQueue else s.recordWaits s.fQueue (.idle none))

/-- STAMP; with .done it first waits as WAITIDLE does (R328). -/
def execStamp (done : Bool) (addr : Word) (s : State) : Host.Outcome State Fault Refusal :=
  .next (s.withAddr 8 .w addr.toNat (fun k =>
    if done && !s.queueIdle s.fQueue then s.recordWaits s.fQueue (.idle (some addr.toNat))
    else s.queueStore s.fQueue addr.toNat k s.now false))

/-- FENCEQ (R327). -/
def execFenceq (s : State) : Host.Outcome State Fault Refusal :=
  .next (if s.copiesDone s.fQueue then s.retireRecord s.fQueue else s.recordWaits s.fQueue (.copies none))

/-- A record of R317 executes on the queue served; anything else is a reserved OP (R319). -/
def execRecord (i : Instr) (s : State) : Host.Outcome State Fault Refusal :=
  match i with
  | .nopq => execNopq s
  | .semwait c v b => execSemwait c v b s
  | .semsig n b => execSemsig n b s
  | .semset v b => execSemset v b s
  | .klaunch m b => execKlaunch m b s
  | .kcopy b => execKcopy b s
  | .qbar b n => execQbar b n s
  | .intr e => execIntr e s
  | .jump b => execJump b s
  | .callq b => execCallq b s
  | .retq => execRetq s
  | .waitidle => execWaitidle s
  | .stamp d b => execStamp d b s
  | .fenceq => execFenceq s
  | _ => .next (s.queueError s.fQueue 0x01)

/-! ### Service (R316) -/

/-- The queue addresses a record names. -/
def recordAddrs : Instr → List Nat
  | .semwait _ _ b => [b.toNat]
  | .semsig _ b => [b.toNat]
  | .semset _ b => [b.toNat]
  | .klaunch _ b => [b.toNat]
  | .kcopy b => [b.toNat]
  | .jump b => [b.toNat]
  | .callq b => [b.toNat]
  | .stamp _ b => [b.toNat]
  | _ => []

/-- A queue that processor `h` may serve: ACTIVE, in a RESIDENT context, with no record in progress; in minimal mode only the processors of gateway 0 run (R308, R316, R437). -/
def State.servable (s : State) (h : Nat) (x : Queue) : Bool :=
  decide (x.cp = h ∧ x.st = .active ∧ (s.ctx x.ctx).st = .resident) && !x.retiring && !x.destroying && !(s.bt.minimal && decide (2 ≤ h))

/-- The queue served next: of the highest priority, the next id after the last one served (R316). -/
def State.nextServed (s : State) (h : Nat) : Option Nat :=
  let l := (s.queues.filter (fun e => s.servable h e.2)).map (fun e => (e.1, e.2.prio))
  let top := l.foldl (fun m e => max m e.2) 0
  let ids := (l.filter (fun e => decide (e.2 = top))).map (·.1)
  let least (l : List Nat) : Option Nat := l.foldl (fun b i => match b with | none => some i | some j => some (min i j)) none
  match SMap.find s.mg.served h with
  | none => least ids
  | some last =>
    match least (ids.filter (fun i => decide (last < i))) with
    | some i => some i
    | none => least ids

/-- RECORD_SERVICE: a processor reads and executes the current record of the queue it serves next; a queue with no record left is IDLE (R316, R318, R319). -/
def execRecordService (h : Nat) (s : State) : Host.Outcome State Fault Refusal :=
  match s.nextServed h with
  | none => .next s
  | some q =>
    let s : State := { s with fQueue := q, mg := { s.mg with served := SMap.put s.mg.served h q } }
    let x := s.queue q
    if x.settled = .idle then .next (s.updQueue q (fun x => { x with st := .idle }))
    else if s.hostDown && bit x.recordAt 63 then .next (s.recordWaits q .host)
    else
      match s.queueWords x.gate x.ctx 2 x.recordAt with
      | .error e => .next (s.queueError q e)
      | .ok l =>
        match Decode.decodeRec ((l.getD 0 0).toNat + (l.getD 1 0).toNat * 2 ^ 64) with
        | .error _ => .next (s.queueError q 0x01)
        | .ok i =>
          if s.hostDown && (recordAddrs i).any (fun a => bit a 63) then .next (s.recordWaits q .host)
          else execRecord i (s.queueGather x.ctx x.recordAt false)

/-- RECORD_RETIREMENT: a record that has had its effect retires; a record whose condition holds has its effect and retires (R317, R318, R325 to R328). -/
def execRecordRetirement (q : Nat) (s : State) : Host.Outcome State Fault Refusal :=
  .next (let x := s.queue q
    if x.st = .active ∧ x.retiring then (if s.heldBy q [.record] then s else s.retireRecord q)
    else if x.st ≠ .waiting then s
    else
      match x.wait with
      | .host => if s.hostDown then s else s.updQueue q (fun x => { x with st := .active, wait := .none })
      | .idle none => if s.queueIdle q then s.retireRecord q else s
      | .idle (some a) =>
        if s.queueIdle q && !(s.hostDown && bit a 63) then
          match s.queueFixed x.gate x.ctx .w a with
          | .error e => s.queueError q e
          | .ok k =>
            let s := s.queueStore q a k s.now false
            if s.heldBy q [.record] then s else s.retireRecord q
        else s
      | .copies none => if s.copiesDone q then s.retireRecord q else s
      | .copies (some e) => if s.copiesDone q && !s.hostDown then (s.sendMsix e).retireRecord q else s
      | _ => s)

/-- A scheduled read of the semaphore that a queue waits on, where it is due (R320). -/
def State.reread (s : State) (q : Nat) : State :=
  let x := s.queue q
  match x.wait with
  | .sem a c v t0 k n w =>
    if x.st ≠ .waiting ∨ s.now < n ∨ (s.hostDown && bit a 63) then s else s.semRead q a c v (.sem a c v t0 (k + 1) (rereadAt t0 (k + 2)) w)
  | _ => s

/-- A read after a write of the queue machinery; the schedule restarts from it (R320). -/
def State.localWake (s : State) (q : Nat) : State :=
  let x := s.queue q
  match x.wait with
  | .sem a c v _ _ _ (some _) =>
    if x.st ≠ .waiting ∨ (s.hostDown && bit a 63) then s else s.semRead q a c v (.sem a c v s.now 0 (rereadAt s.now 1) none)
  | _ => s

/-- SEMWAIT_REREAD: a scheduled read (R320). -/
def execSemwaitReread (q : Nat) (s : State) : Host.Outcome State Fault Refusal := .next (s.reread q)

/-- LOCAL_WAKE (R320). -/
def execLocalWake (q : Nat) (s : State) : Host.Outcome State Fault Refusal := .next (s.localWake q)

/-- Reads of semaphores whose time has come: a scheduled one, or one that a write asked for 1,000 pt ago (R320). -/
def State.semReads (s : State) : State :=
  s.queues.foldl (fun (s : State) e =>
    match (s.queue e.1).wait with
    | .sem _ _ _ _ _ _ (some w) => if w + 1_000 ≤ s.now then s.localWake e.1 else s.reread e.1
    | _ => s.reread e.1) s

/-- When the semaphore of a queue that waits must be read again (R320). -/
def QWait.due : QWait → List Nat
  | .sem _ _ _ _ _ n w => n :: (w.map (· + 1_000)).toList
  | _ => []

/-! ### KCOPY (R323) -/

/-- Where a word of a KCOPY lies: under the entry leased at its check phase, or read again once the lease has expired (R397). -/
def State.kcopySpot (s : State) (h c : Nat) (need : Perm) (k : KCopy) (l : SMap (Nat × Bool)) (a : Nat) : Option (Nat × Bool) :=
  if s.now < k.since + Config.leaseLen then (SMap.find l (a / 65536)).map (fun e => (e.1 + a % 65536, e.2))
  else match s.queueSpot h c need a with | .ok e => some e | .error _ => none

/-- A page of a KCOPY can no longer be reached from the gateway that moves its words (R23, R26, R308, R425). -/
def State.kcopyCut (s : State) (h : Nat) (k : KCopy) : Bool := (k.dpages ++ k.spages).any (fun e => !s.gateReaches h e.2.1)

/-- A KCOPY of a queue has gone: a queue that waits to be destroyed is FREE after its last (R313). -/
def State.kcopyGone (s : State) (q n : Nat) : State :=
  let s := match (s.queue q).kcopies[n]? with | some k => s.dropWords (.kcopy q k.num) | none => s
  let s := s.updQueue q (fun x => { x with kcopies := x.kcopies.eraseIdx n })
  if (s.queue q).destroying && (s.queue q).kcopies.isEmpty then
    let s := s.updQueue q Queue.destroy
    { s with mg := { s.mg with qBusy := if s.mg.qLast = q then false else s.mg.qBusy } }
  else s

/-- A KCOPY that lasts longer than the leases of its pages reads their entries again; where one fails, it ends without landing the words that are left, and its queue stops (R319, R397, log 119). -/
def State.kcopyFault (s : State) (h c : Nat) (k : KCopy) : Option Nat :=
  if s.now < k.since + Config.leaseLen then none
  else
    let bad (need : Perm) (l : SMap (Nat × Bool)) : Option Nat :=
      l.findSome? (fun e => match s.queueSpot h c need (e.1 * 65536) with | .error m => some m | .ok _ => none)
    (bad .w k.dpages).or (bad .r k.spages)

/-- A KCOPY has ended on such an entry. -/
def State.kcopyStops (s : State) (q n cause : Nat) : State :=
  let s := s.kcopyGone q n
  let x := s.queue q
  if x.st = .idle ∨ x.st = .active ∨ x.st = .waiting then s.queueError q cause else s

/-- A KCOPY that has lost a word ends without landing it, and its queue stops (R425). -/
def State.kcopyLost (s : State) (q n : Nat) : State := s.kcopyStops q n 0x15

/-- A KCOPY, by its number. -/
def State.updKcopy (s : State) (q num : Nat) (f : KCopy → KCopy) : State :=
  s.updQueue q (fun x => { x with kcopies := x.kcopies.map (fun k => if k.num = num then f k else k) })

/-- Word `i` of a KCOPY has landed. -/
def KCopy.done (k : KCopy) (i : Nat) : KCopy := { k with landed := i :: k.landed, sent := k.sent.filter (· ≠ i) }

/-- A word of a KCOPY is read at the gateway of its source; a poisoned word is not consumed (R255, R323, R401). -/
def State.kcopyRead (s : State) (c : Nat) (k : KCopy) (i : Nat) (r : Nat × Bool) : State × Word × Poison :=
  (s.gatherAt c (k.src + 8 * i) false, s.readWord r.1 r.2)

/-- A word of a KCOPY lands; a poisoned word lands as poison (R255, R323, R401). -/
def State.kcopyLand (s : State) (c : Nat) (k : KCopy) (i : Nat) (w : Word × Poison) (d : Nat × Bool) : State :=
  (s.writeWord d.1 d.2 w.1 w.2).gatherAt c (k.dst + 8 * i) true

/-- A packet of word `i` of a KCOPY goes from gateway `h` to the memory of a location on the data class (R23, R418). -/
def State.kcopySend (s : State) (q h c : Nat) (k : KCopy) (i key : Nat) (b : WordKind) : State :=
  let dst := s.memPoint 0 key
  (s.sendTo (gatePoint h) dst (Packet.new (gatePoint h).asEnd dst.asEnd 16 c 0 (.word (.kcopy q k.num) i b))).updKcopy q k.num
    (fun k => { k with sent := if k.sent.contains i then k.sent else i :: k.sent })

/-- The gateway of the queue's processor has a word: it lands in the gateway's own memory, or goes out (R323). -/
def State.kcopyOut (s : State) (q h c : Nat) (k : KCopy) (i : Nat) (w : Word × Poison) (d : Nat × Bool) : State :=
  if (s.memPoint 0 d.1).d = (gatePoint h).d then (s.kcopyLand c k i w d).updKcopy q k.num (fun k => k.done i)
  else s.kcopySend q h c k i d.1 (.write w.1 w.2)

/-- Packet `m` of a word of KCOPY `n`, at the end of its path: a request is served and answered, a read return goes on, an acknowledgement ends the word; one that found no route ends the KCOPY (R323, R404, R422, R425). -/
def State.kcopyArrives (s : State) (q n i : Nat) (k : KCopy) (m : Nat) (p : Packet) (b : WordKind) : State :=
  let x := s.queue q; let s' := s.takePacket m
  let reply (s : State) (b : WordKind) : State :=
    s.sendTo p.goal (gatePoint x.gate) (Packet.new p.dst (gatePoint x.gate).asEnd 19 x.ctx 0 (.word (.kcopy q k.num) i b))
  if p.lost then s.kcopyLost q n
  else
    match b, s.kcopySpot x.gate x.ctx .r k k.spages (k.src + 8 * i), s.kcopySpot x.gate x.ctx .w k k.dpages (k.dst + 8 * i) with
    | .read, some r, _ => let v := s'.kcopyRead x.ctx k i r; reply v.1 (.data v.2.1 v.2.2)
    | .data w z, _, some d => if s.writeHeld d.1 then s else s'.kcopyOut q x.gate x.ctx k i (w, z) d
    | .write w z, _, some d => if s.writeHeld d.1 then s.holdPacket m else reply (s'.kcopyLand x.ctx k i (w, z) d) .ack
    | .ack, _, _ => s'.updKcopy q k.num (fun k => k.done i)
    | _, _, _ => s

/-- One step of word `i` of KCOPY `n` of a queue: a packet of it that has come to the end of its path is taken up; a word that has neither landed nor a packet begins, unless its page holds it. Words land once, in no order (R64, R323, R404). -/
def State.kcopyStep (s : State) (q n i : Nat) : State :=
  let x := s.queue q
  match x.kcopies[n]? with
  | none => s
  | some k =>
    if s.kcopyCut x.gate k then s.kcopyLost q n
    else if s.hostDown && (bit k.dst 63 || bit k.src 63) then s
    else
      match s.kcopyFault x.gate x.ctx k with
      | some e => s.kcopyStops q n e
      | none =>
      match s.wordPacket (.kcopy q k.num) i with
      | some (m, p, b) => s.kcopyArrives q n i k m p b
      | none =>
        if k.bytes / 8 ≤ i || k.landed.contains i || k.sent.contains i then s
        else
          match s.kcopySpot x.gate x.ctx .w k k.dpages (k.dst + 8 * i), s.kcopySpot x.gate x.ctx .r k k.spages (k.src + 8 * i) with
          | some d, some r =>
            if s.writeHeld d.1 then s
            else if (s.memPoint 0 r.1).d = (gatePoint x.gate).d then
              let v := s.kcopyRead x.ctx k i r
              v.1.kcopyOut q x.gate x.ctx k i v.2 d
            else s.kcopySend q x.gate x.ctx k i r.1 .read
          | _, _ => s

/-- As time passes, one word of one KCOPY may take a step, by a free choice (R64, R323). -/
def State.kcopyDrift (s : State) : State :=
  let l := s.queues.flatMap (fun e => (List.range e.2.kcopies.length).map (fun n => (e.1, n)))
  if l.isEmpty then s
  else
    let a := (Config.freeWord s.free).toNat
    let e := l.getD (a % (l.length + 1)) (1024, 0)
    let words := match (s.queue e.1).kcopies[e.2]? with | some k => k.bytes / 8 | none => 0
    (s.draw.kcopyStep e.1 e.2 ((Config.freeWord (s.free + 1)).toNat % (words + 1))).draw

/-- The KCOPY at place `n` of a queue is still the one of that number. -/
def State.hasKcopy (s : State) (q n num : Nat) : Bool :=
  match (s.queue q).kcopies[n]? with
  | some k => decide (k.num = num)
  | none => false

/-- KCOPY_COMPLETE: the words of KCOPY `n` of queue `q` go on, and once every one has landed its semaphore is signalled; one whose memory can no longer be reached stops its queue (R313, R323, R425). -/
def execKcopyComplete (q n : Nat) (s : State) : Host.Outcome State Fault Refusal :=
  .next (match (s.queue q).kcopies[n]? with
    | none => s
    | some k =>
      let s := (List.range (k.bytes / 8)).foldl (fun (s : State) i => if s.hasKcopy q n k.num then s.kcopyStep q n i else s) s
      let x := s.queue q
      match x.kcopies[n]? with
      | none => s
      | some k' =>
        if k'.num ≠ k.num ∨ k'.landed.length < k.bytes / 8 then s
        else if s.kcopyCut x.gate k then s.kcopyLost q n
        else if s.hostDown && (bit k.dst 63 || bit k.src 63 || bit k.sem 63) then s
        else (if k.sem = 0 then s else s.semSignal x.ctx k.sem true q .kcopy).kcopyGone q n)

/-! ### The pool (R337) -/

/-- The waiter whose wait began first. -/
def firstWait (l : List (Nat × Nat × Source)) : Option (Nat × Nat × Source) :=
  l.foldl (fun b w =>
    match b with
    | none => some w
    | some v => if w.1 < v.1 then some w else some v) none

/-- A waiter whose launch can be offered now: a queue, or a task that is on its core or can be seated. -/
def State.waiterReady (s : State) (w : Nat × Nat × Source) : Bool :=
  match w.2.2 with
  | .queue _ => true
  | .task t => !(s.task t).halted && ((s.task t).onCore || s.canSeat t)

/-- The waiter that a free entry goes to: an entry of a reserved share to the first waiter of its context, one of the shared part to the first waiter of the module (R337). -/
def State.nextWaiter (s : State) : Option (Nat × Nat × Source) :=
  let l := s.poolWaits
  let own := l.filter (fun w =>
    decide (firstWait (l.filter (fun v => decide (v.2.1 = w.2.1))) = some w) &&
      (match (s.ctx w.2.1).place with | some p => decide (s.reservedUsed p < 64) | none => false))
  let all := (firstWait l).toList.filter (fun w => (s.takeShare w.2.1 0 0).isSome)
  firstWait ((own ++ all).filter s.waiterReady)

/-- A dt.launch.w that waits executes again (R166). -/
def State.launchAgain (s : State) (t rd a : Nat) : State :=
  let r := s.wakeWaiter t
  if !r.2 || r.1.intrFirst t then r.1
  else
    match r.1.launchAt t a with
    | (s, .exc c e) => (s.updCtl t (fun c => { c with wait := .none })).ctRaise t (c, e)
    | (s, .full) => s
    | (s, p) => (s.launched t p).waitDone t rd p.word

/-- POOL_ENTRY_FREED: an entry goes to its waiter, whose launch is offered again (R166, R322, R337). -/
def execPoolEntryFreed (s : State) : Host.Outcome State Fault Refusal :=
  .next (if s.dies.electing || s.tableFull then s
    else
      match s.nextWaiter with
      | none => s
      | some (_, _, .task t) =>
        match (s.ctl t).wait with
        | .launchW rd a _ => s.launchAgain t rd a
        | _ => s
      | some (_, _, .queue q) =>
        match (s.queue q).wait with
        | .pool n sem r x => s.offerLaunch q sem n r x
        | _ => s)

end Sys2Proof.Machine
end

