-- ==== Sys2Proof/Machine/PageCmds.lean ====
section
/-! DEFINITION. Page commands, the end of leases, staging and write-back, ephemeral pages, and pod pages (R397 to R415). -/
namespace Sys2Proof.Machine

/-! ### Jobs in progress (R400, R415) -/

def State.addJob (s : State) (j : PgJob) : State := { s with pg := { s.pg with jobs := s.pg.jobs ++ [j] } }
def State.dropJob (s : State) (n : Nat) : State := { s with pg := { s.pg with jobs := s.pg.jobs.eraseIdx n } }
def State.setPgres (s : State) (st : Nat) : State := { s with pg := { s.pg with status := st } }

/-- The semaphore of a page command, where it names one; its signals wake no SEMWAIT (R320, R415). -/
def State.pageSignal (s : State) (c sem : Nat) (wakes : Bool) : State := if sem = 0 then s else s.semSignal c sem wakes 1024 .page

/-- Pages that were told to leave residency are gone (R404). -/
def State.framesGone (s : State) (l : List Nat) : Bool :=
  l.all (fun f => decide ((s.resid f).st ≠ .writeback) && !(s.resid f).leaving)

/-- A STAGE or an EVICT that is over signals (R415). -/
def State.jobOver (s : State) : PgJob → Option State
  | .stage c frames sem h =>
    if frames.all (fun f => decide ((s.resid f).st = .resident)) then some ((s.release (.stage h)).pageSignal c sem false) else none
  | .evict c frames sem => if s.framesGone frames then some (s.pageSignal c sem false) else none
  | _ => none

/-- Jobs that are over leave the list, in the order of their commands. -/
def State.pageJobs (s : State) : State :=
  s.pg.jobs.foldl (fun (s : State) j =>
    match s.jobOver j with
    | some s' => { s' with pg := { s'.pg with jobs := s'.pg.jobs.erase j } }
    | none => s) s

/-! ### PGCMD (R414, R415) -/

/-- The range of PGVA and PGCNT, and a semaphore in PGARG, are valid (R415). -/
def State.pageRangeOk (s : State) (sem : Bool) : Bool :=
  decide (s.pg.cnt ≠ 0 ∧ s.pg.va + 65536 * s.pg.cnt ≤ 2 ^ 56) && (!sem || decide (s.pg.arg.toNat % 8 = 0))

/-- Page numbers of the range. -/
def State.pageRange (s : State) : List Nat := (List.range s.pg.cnt).map (fun i => s.pg.va / 65536 + i)

/-- A page command: the context and the range are judged, then `k` acts (R414, R415). -/
def State.pageCommand (s : State) (c : Nat) (sem : Bool) (k : State → State) : State :=
  if (s.ctx c).st ≠ .defined ∧ (s.ctx c).st ≠ .resident then s.setPgres 2
  else if !s.pageRangeOk sem then s.setPgres 3
  else k (s.setPgres 0)

/-- From t0 no lease on a page of the range begins from an entry that a gateway, a controller or a command processor holds, and no frame is known for it (R400). -/
def State.endLeases (s : State) (c va pages : Nat) : State :=
  { s with pg := { s.pg with
    known := s.pg.known.filter (fun e => decide (¬ (e.1 / 2 ^ 40 = c ∧ va / 65536 ≤ e.1 % 2 ^ 40 ∧ e.1 % 2 ^ 40 < va / 65536 + pages)))
    gleases := s.pg.gleases.map (fun l => if l.ctx = c ∧ va / 65536 ≤ l.vpage ∧ l.vpage < va / 65536 + pages then { l with dead := true } else l) } }

/-- SHOOT at t0: an event of R401, whose harvest is in the tables at t0 + 32,000 at the latest; no lease on the range begins any more, and its resident pages begin to leave (R400 to R402). -/
def State.shoot (s : State) (c : Nat) : State :=
  let s := s.harvestTick
  let frames := s.pageRange.flatMap (fun p => s.residentOf c p)
  let s' := (((s.endLeases c s.pg.va s.pg.cnt).leaveAll frames).pumpFrames).addJob
    (.harvest c s.pg.va s.pg.cnt 0 (s.now + Config.leaseLen))
  let s' := s'.addJob (.shoot c s.pg.va s.pg.cnt s.pg.arg.toNat s.now frames)
  { s' with pg := { s'.pg with time := s.now + Config.leaseLen } }

/-- SHOOT (R400). -/
def execShoot (c : Nat) (s : State) : Host.Outcome State Fault Refusal :=
  .next (s.pageCommand (c % 4096) true (fun s => s.shoot (c % 4096)))

/-- The TIER 1 frames of the pages of a range that can be staged, and whether some page cannot. -/
def State.stageable (s : State) (c : Nat) : List Nat → List Nat × Bool
  | [] => ([], false)
  | p :: l =>
    let r := s.stageable c l
    match s.translate c 0 0 3 .r (p * 65536) with
    | .error _ => (r.1, true)
    | .ok x => (if x.tier = 1 then x.key / 65536 :: r.1 else r.1, r.2)

/-- STAGE: every page of the range that can be is staged; where one cannot, the command signals at once (R397, R407, R415). -/
def State.stageRange (s : State) (c : Nat) : State :=
  let r := s.stageable c s.pageRange; let sem := s.pg.arg.toNat
  let s := s.pageRange.foldl (fun (s : State) p => s.keepLease c (p * 65536)) s
  if r.2 then (r.1.foldl (fun (s : State) f => s.needPage (f, c, .none)) s).pageSignal c sem false
  else
    let h := s.pg.serial
    let s : State := { s with pg := { s.pg with serial := h + 1 } }
    let s := r.1.foldl (fun (s : State) f => s.needPage (f, c, .stage h)) s
    (s.addJob (.stage c r.1 sem h)).pageJobs

/-- STAGE (R407, R415). -/
def execStage (c : Nat) (s : State) : Host.Outcome State Fault Refusal :=
  .next (s.pageCommand (c % 4096) true (fun s => s.stageRange (c % 4096)))

/-- EVICT: resident pages of the range leave residency, held ones when their hold ends (R404, R415). -/
def State.evictRange (s : State) (c : Nat) : State :=
  let frames := s.pageRange.flatMap (fun p => s.residentOf c p)
  (((s.leaveAll frames).pumpFrames).addJob (.evict c frames s.pg.arg.toNat)).pageJobs

/-- PAGE_EVICT (R415). -/
def execPageEvict (c : Nat) (s : State) : Host.Outcome State Fault Refusal :=
  .next (s.pageCommand (c % 4096) true (fun s => s.evictRange (c % 4096)))

/-- The frame of an ephemeral TIER 0 page of a context (R408). -/
def State.ephFrame (s : State) (c page : Nat) : Option Nat :=
  match s.leafOf c (page * 65536) with
  | .error _ => none
  | .ok l => if bits l.entry 9 8 = 0 ∧ bit l.entry 10 then some (l.frame (page * 65536)) else none

/-- An ephemeral page receives a deadline: a live page keeps its data, another is expired throughout (R408). -/
def State.setDeadline (s : State) (d f : Nat) : State :=
  let e := s.ephOf f
  s.setEph f (if s.now < e.deadline then { e with deadline := d } else ⟨d, []⟩)

/-- EPHSET: every page of the range is an ephemeral TIER 0 page, and the deadline lies within 32,000,000 pt; otherwise status 3 and nothing changes (R408). -/
def State.ephset (s : State) (c : Nat) : State :=
  let d := s.pg.arg.toNat
  let fs := s.pageRange.map (fun p => s.ephFrame c p)
  if d ≤ s.now ∨ s.now + 32_000_000 < d ∨ fs.any (·.isNone) then s.setPgres 3
  else (fs.filterMap id).foldl (fun (s : State) f => s.setDeadline d f) s

/-- EPHSET (R408). -/
def execEphset (c : Nat) (s : State) : Host.Outcome State Fault Refusal :=
  .next (s.pageCommand (c % 4096) false (fun s => s.ephset (c % 4096)))

/-- HARVEST (R401, R415). -/
def execHarvest (c : Nat) (s : State) : Host.Outcome State Fault Refusal :=
  .next (s.pageCommand (c % 4096) true (fun s =>
    let r := s.beginHarvest (c % 4096) s.pg.va s.pg.cnt s.pg.arg.toNat
    { r.1 with pg := { r.1.pg with time := r.2 } }))

/-! ### Ends -/

/-- A lease on a page of a range that was granted by t0 and has not expired (R397, R400). -/
def State.oldLease (s : State) (c va pages t0 : Nat) : Bool :=
  let hit (v : Nat) : Bool := decide (va / 65536 ≤ v ∧ v < va / 65536 + pages)
  s.pg.ileases.any (fun l => decide (l.ctx = c ∧ l.granted ≤ t0 ∧ s.now < l.granted + Config.leaseLen) && hit l.vpage) ||
  s.pg.gleases.any (fun l => decide (l.ctx = c ∧ l.granted ≤ t0 ∧ s.now < l.granted + Config.leaseLen) && hit l.vpage) ||
  s.tasks.any (fun e => decide (e.2.ctx = c) && e.2.arch.eng.cmds.any (fun k => decide (k.st = .begun) &&
    k.leases.any (fun l => decide (s.now < l.expiry ∧ l.expiry ≤ t0 + Config.leaseLen) && hit l.vpage))) ||
  s.queues.any (fun e => decide (e.2.ctx = c) && e.2.kcopies.any (fun k =>
    decide (k.since ≤ t0 ∧ s.now < k.since + Config.leaseLen) && (k.dpages.any (fun p => hit p.1) || k.spages.any (fun p => hit p.1))))

/-- The gathered state of a range reaches the tables (R401). -/
def State.harvestRange (s : State) (c va pages : Nat) : State := s.harvestPages c (s.gatheredIn c (va / 65536) pages)

/-- SHOOTDOWN_COMPLETE of job `n`: old leases have expired, the pages have left and the harvest has reached the tables, what the old leases served since with it; the semaphore is signalled, which wakes no SEMWAIT (R400, R401). -/
def execShootdownComplete (n : Nat) (s : State) : Host.Outcome State Fault Refusal :=
  .next (match s.pg.jobs[n]? with
    | some (.shoot c va pages sem t0 frames) =>
      if s.oldLease c va pages t0 || !s.framesGone frames || s.pg.jobs.contains (.harvest c va pages 0 (t0 + Config.leaseLen)) then s
      else ((s.harvestRange c va pages).dropJob n).pageSignal c sem false
    | _ => s)

/-- The harvest is that of a SHOOT, of which only the latest time is fixed (R400, R401). -/
def State.ofShoot (s : State) (c va pages due : Nat) : Bool :=
  s.pg.jobs.any (fun j => match j with | .shoot c' v' p' _ t0 _ => decide (c' = c ∧ v' = va ∧ p' = pages ∧ t0 + Config.leaseLen = due) | _ => false)

/-- HARVEST_COMPLETE of job `n`: at the time that dt.harvest or PGTIME gave, or, for a SHOOT, by its latest time (R176, R401, R402, R414, R415). -/
def execHarvestComplete (n : Nat) (s : State) : Host.Outcome State Fault Refusal :=
  .next (match s.pg.jobs[n]? with
    | some (.harvest c va pages sem due) =>
      if s.now < due && !s.ofShoot c va pages due then s else ((s.harvestRange c va pages).dropJob n).pageSignal c sem false
    | _ => s)

/-- Harvests whose time has come are in the tables (R401). -/
def State.dueHarvests (s : State) : State :=
  s.pg.jobs.foldl (fun (s : State) j =>
    match j with
    | .harvest c va pages sem due =>
      if due ≤ s.now then
        let s := s.harvestRange c va pages
        ({ s with pg := { s.pg with jobs := s.pg.jobs.erase j } } : State).pageSignal c sem false
      else s
    | _ => s) s

/-- LEASE_EXPIRY: an entry cached by a core's instruction translation is not used at or after its expiry (R397). -/
def execLeaseExpiry (n : Nat) (s : State) : Host.Outcome State Fault Refusal :=
  .next (match s.pg.ileases[n]? with
    | some l => if s.now < l.granted + Config.leaseLen then s else { s with pg := { s.pg with ileases := s.pg.ileases.eraseIdx n } }
    | none => s)

/-- Begun TLOADs complete where a moment of R258 has come. -/
def State.tloadsAll (s : State) : State :=
  s.tasks.foldl (fun (s : State) e => e.2.arch.eng.cmds.foldl (fun (s : State) c =>
    match c.op with
    | .tload _ => if c.st = .begun then s.tloadTry e.1 c.uid else s
    | _ => s) s) s

/-- STAGING_DONE: the page is RESIDENT with the current tick, unless staging is paused; TLOADs and STAGEs that waited for it may be over (R258, R404, R415, R430). -/
def execStagingDone (page : Nat) (s : State) : Host.Outcome State Fault Refusal :=
  .next (let r := s.resid page
    if r.st ≠ .staging ∨ s.stagingPaused then s
    else
      let s := ((s.copyMem (page * 65536) (r.frame * 65536) 65536).setResid page { r with st := .resident, age := s.pg.tick, since := s.now }).landPage page
      let s := if r.leaving && r.holds.isEmpty then s.leave page else s
      (s.pumpFrames.tloadsAll).pageJobs.drainCheck)

/-- WRITEBACK_DONE: the page is HOME and its frame is free; a hold that is still there asks for it again. EVICT commands whose pages have left signal (R404, R405, R415). -/
def execWritebackDone (page : Nat) (s : State) : Host.Outcome State Fault Refusal :=
  .next (let r := s.resid page
    if r.st ≠ .writeback then s.pageJobs
    else
      let s := ((s.copyMem (r.frame * 65536) (page * 65536) 65536).setResid page Resid.blank).landPage page
      (r.holds.foldl (fun (s : State) h => s.needPage (page, r.ctx, h)) s.pumpFrames).pageJobs)

/-- EPHEMERAL_DEADLINE: at the deadline every word of the page is expired (R408, R409). -/
def execEphemeralDeadline (page : Nat) (s : State) : Host.Outcome State Fault Refusal :=
  .next (let e := s.ephOf page
    if s.now < e.deadline then s else s.setEph page { e with good := [] })

/-! ### Pod pages (R410 to R412) -/

def State.setPod (s : State) (page : Nat) (p : PodPage) : State := { s with pg := { s.pg with pod := SMap.put s.pg.pod page p } }
def State.countSettle (s : State) : State := { s with pg := { s.pg with settle := (s.pg.settle + 1) % 2 ^ 32 } }

/-- Moves granted in the 2,000,000 pt up to now (R411). -/
def PodPage.recent (p : PodPage) (now : Nat) : List Nat := p.moves.filter (fun t => decide (now < t + 2_000_000))

/-- The context channel on which the traffic about a pod page goes that no copy of this module sends: that of the resident context of the pod, the first one that has a channel, 0 where none has (R289, R417, log 96). -/
def State.podCh (s : State) : Nat :=
  (s.ctxs.findSome? (fun e => if e.2.caps.testBit 4 then e.2.channel else none)).getD 0

/-- A settle notice goes to every other module that asked within the 2,000,000 pt before now (R412). -/
def State.tellSettled (s : State) (page : Nat) (p : PodPage) : State :=
  (((p.asks.filter (fun a => decide (s.now < a.2 + 2_000_000 ∧ a.1 ≠ s.mg.podIdx))).map (·.1)).eraseDups).foldl
    (fun (s : State) m => s.podSay m s.podCh (.settled page)) s

/-- A write of another module is performed at the home: a word of the page takes a value that this module does not know beforehand (R411, log 18). -/
def State.farWrite (s : State) (page : Nat) : State :=
  (s.writeWord (podKey page (8 * ((Config.freeWord s.free).toNat % 8192))) false (Config.freeWord (s.free + 1)) .none).draw.draw

/-- A word that another module sent to an old home is forwarded to the new one; which word it is this module does not know beforehand (R53, R411, log 18). -/
def State.forwardWord (s : State) (page mod : Nat) : State :=
  (s.podSay mod s.podCh (.write page (8 * ((Config.freeWord s.free).toNat % 8192)) (Config.freeWord (s.free + 1)) .none)).draw.draw

/-- A settlement whose end time has come is over, and the list of moves is cleared (R412). -/
def PodPage.unsettle (p : PodPage) (now : Nat) : PodPage :=
  match p.settled with
  | some e => if e ≤ now then { p with settled := none, moves := [] } else p
  | none => p

/-- POD_MOVE_REQUEST: a request of another module comes in on its port. At the home the write is performed, a move is granted, or the page settles and the write is performed; once a move has been granted the word is forwarded (R411, R412, R417). -/
def execPodMoveRequest (page requester : Nat) (s : State) : Host.Outcome State Fault Refusal :=
  .next (match SMap.find s.pg.pod page with
    | none => s
    | some p =>
      if requester = s.mg.podIdx ∨ (s.podPort requester s.podCh).isNone then s
      else if p.home ≠ s.mg.podIdx then s.forwardWord page p.home
      else
        match p.moving with
        | some m => s.forwardWord page m
        | none =>
          let p := p.unsettle s.now
          let p : PodPage := { p with asks := p.asks ++ [(requester, s.now)] }
          if p.settled.isSome then (s.setPod page p).farWrite page
          else if (p.recent s.now).length < 4 then s.setPod page { p with moving := some requester, moves := p.recent s.now ++ [s.now] }
          else (((s.setPod page { p with settled := some (s.now + 32_000_000) }).countSettle).tellSettled page p).farWrite page)

/-- POD_SETTLE_NOTICE: another module's page has settled (R412). -/
def execPodSettleNotice (page : Nat) (s : State) : Host.Outcome State Fault Refusal :=
  .next (match SMap.find s.pg.pod page with
    | none => s
    | some p => if p.home = s.mg.podIdx then s else s.countSettle)

/-- POD_SETTLE_END: the settlement ends at its end time and the list of moves is cleared (R412). -/
def execPodSettleEnd (page : Nat) (s : State) : Host.Outcome State Fault Refusal :=
  .next (match SMap.find s.pg.pod page with
    | none => s
    | some p =>
      match p.settled with
      | none => s
      | some e => if s.now < e then s else s.setPod page { p with settled := none, moves := [] })

/-- The contents of a page that comes from another module: free words (log 18). -/
def State.freePage (s : State) (frame : Nat) : State :=
  (List.range 8192).foldl (fun (s : State) i => (s.writeWord (frame * 65536 + 8 * i) false (Config.freeWord s.free) .none).draw) s

/-- Times of earlier moves that travel with a page: free values, at most three within the window (R411, log 18). -/
def State.freeMoves (s : State) : State × List Nat :=
  let n := (Config.freeWord s.free).toNat % 4
  ((List.range (n + 1)).foldl (fun (s : State) _ => s.draw) s,
   (List.range n).map (fun i => s.now - (Config.freeWord (s.free + 1 + i)).toNat % 2_000_000))

/-- The modules that asked for those moves: free values (R412, log 18). -/
def State.freeAsks (s : State) (l : List Nat) : State × List (Nat × Nat) :=
  (l.foldl (fun (s : State) _ => s.draw) s, l.zipIdx.map (fun e => ((Config.freeWord (s.free + e.2)).toNat % 65536, e.1)))

/-- A page comes to this module, in a pool frame of gateway 0, for which a page is evicted where none is free, with its data and its list of moves; `asks`: the requests known here (R405, R410, R411). -/
def State.podArrive (s : State) (page : Nat) (asks : List (Nat × Nat)) : State :=
  let s := s.makeRoom 0
  match s.freeFrame 0 with
  | none => s
  | some f =>
    let r := (s.freePage f).freeMoves
    let q := r.1.freeAsks r.2
    q.1.setPod page { home := s.mg.podIdx, frame := f, moves := r.2 ++ [s.now], asks := asks ++ q.2, settled := none, moving := none }

/-- Bytes and damage of a frame by their offsets. -/
def State.frameBytes (s : State) (f : Nat) : List Host.Cell × SMap Poison :=
  let k := f * 65536
  ((s.mem.filter (fun e => decide (k ≤ e.1 ∧ e.1 < k + 65536))).map (fun e => (e.1 - k, e.2)),
   (s.poison.filter (fun e => decide (k ≤ e.1 ∧ e.1 < k + 65536))).map (fun e => (e.1 - k, e.2)))

/-- POD_MOVE_COMPLETE: a move away from this module ends, with the 64 KiB of the page, or a page that moves here on a port, known to the directory or new to it, is at its new home (R410, R411, R417). -/
def execPodMoveComplete (page : Nat) (s : State) : Host.Outcome State Fault Refusal :=
  .next (match SMap.find s.pg.pod page with
    | none => if s.activePorts.isEmpty then s else s.podArrive page []
    | some p =>
      if p.home = s.mg.podIdx then
        match p.moving with
        | some m =>
          let d := s.frameBytes p.frame
          ((s.podSay m s.podCh (.page page p.moves d.1 d.2)).setPod page { p with home := m, moving := none }).pumpFrames
        | none => s
      else if (s.podPort p.home s.podCh).isNone then s
      else s.podArrive page p.asks)

end Sys2Proof.Machine
end

