-- ==== Sys2Proof/Machine/Links.lean ====
section
/-! DEFINITION. Links, flits, failure and fencing, and the warm reset of a die (R416 to R427, R445). -/
namespace Sys2Proof.Machine

/-! ### Ends of a link (R416) -/

/-- Compute dies at the ends of the link kept under `key`. -/
def linkDies (key : Nat) : List Nat :=
  if 256 ≤ key then [] else key / 16 :: (neighbour (key / 16) (key / 4 % 4)).toList
/-- The die that sends on a direction of a link; none for a gateway, the host or the network. -/
def senderOf (key dir : Nat) : Option Nat :=
  if 256 ≤ key then none else if dir = 0 then some (key / 16) else neighbour (key / 16) (key / 4 % 4)
/-- Links with an end at a die. -/
def linksAt (d : Nat) : List Nat := ((List.range 16).map (fun i => linkKey (16 * d + i))).eraseDups
/-- Die-grid crossings from gateway 0, through the nearer of its attach dies (R23, R425). -/
def fromGateway0 (d : Nat) : Nat := min (Config.crossings (Config.attach 0).1 d) (Config.crossings (Config.attach 0).2 d)
/-- The die that a failed link fences (R425). -/
def fencedBy (key : Nat) : Option Nat :=
  match linkDies key with
  | [a] => some a
  | [a, b] => some (if fromGateway0 a < fromGateway0 b ∨ (fromGateway0 a = fromGateway0 b ∧ a < b) then b else a)
  | _ => none

/-! ### Fences (R425, R426) -/

/-- A fence is due: its instant falls within 10,000 pt; a fenced master is first replaced (R351, R426). -/
def State.beginFence (s : State) (d : Nat) : State :=
  if s.fencedDie d ∨ s.dies.fencing.any (fun e => e.1 = d) then s
  else
    { s with dies := { s.dies with
        fencing := s.dies.fencing ++ [(d, s.now + 10_000)]
        electing := s.dies.electing || decide (s.dies.master = d)
        electBy := if s.dies.master = d then s.now + 10_000 else s.dies.electBy } }

/-- A word whose flit a failed link has not had acknowledged is lost: its copy gets an error reply from the live end, its KCOPY ends (R425). -/
def State.wordLost (s : State) (from_ : Phys) (o : WordOwner) (idx : Nat) : State :=
  match o with
  | .copy t uid =>
    let k := s.task t
    match (s.eng t).find uid with
    | some c =>
      if c.st = .begun ∧ c.sent.contains idx then
        s.sendTo from_ k.phys (Packet.new k.coord k.coord 19 k.ctx k.group (.copyErr uid 0x15 k.kh k.gidx))
      else s
    | none => s
  | .kcopy q num =>
    match (s.queue q).kcopies.findIdx? (fun k => decide (k.num = num) && k.sent.contains idx) with
    | some n => s.kcopyLost q n
    | none => s

/-- A packet whose flit a failed link has not had acknowledged goes back to its originator from the live end; a barrier arrival aborts its instance, and what R425 gives no answer for waits for another route (R51, R283, R372, R425). -/
def State.giveLost (s : State) (p : Packet) : State :=
  let s' : State := { s with net := s.net.filter (fun q => decide (q.uid ≠ p.uid)) }
  let p' : Packet := { p with lost := false, goal := match p.path with | some (l :: _) => endPoint l | _ => p.from_ }
  match p.body with
  | .bale b => s'.giveBack p' (.retBale b 0x15)
  | .msg m => s'.giveBack p' (.retMsg m 0x15 p.dst)
  | .arrival t l _ _ => s'.abortHere (s.myInst t l) 0x8001
  | .word o i _ => s'.wordLost p'.goal o i
  | _ => { s with net := s.net.map (fun q => if q.uid = p.uid then { q with sent := false, part := 0, buf := none } else q) }

/-- The sender of a direction is live. -/
def State.senderLive (s : State) (key dir : Nat) : Bool :=
  match senderOf key dir with
  | none => true
  | some d => !s.fencedDie d

/-- Packets with flits in the replay buffers of the live ends of a link, oldest first by channel. -/
def State.unacked (s : State) (key : Nat) : List Packet :=
  ((s.link key).chans.flatMap (fun e => if s.senderLive key (e.1 / 64) then e.2.tx.filterMap (·.payload) else [])).foldl
    (fun l p => if l.any (fun q => q.uid = p.uid) then l else l ++ [p]) []

/-- Every link of a die that is in warm reset is QUIESCED or FAILED: its lines are written back next (R427). -/
def State.warmAdvance (s : State) : State :=
  match s.dies.warm with
  | none => s
  | some d =>
    if s.dies.phase = 1 && s.fencedDie d && (linksAt d).all (fun k => decide ((s.link k).st = .quiesced ∨ (s.link k).st = .failed)) then
      { s with dies := { s.dies with phase := 3, stepBy := none } }
    else s

/-- Links of a die whose other end is live, or is no die: the ones a readmission waits for (R427). -/
def State.peerLive (s : State) (d key : Nat) : Bool := (linkDies key).all (fun x => decide (x = d) || !s.fencedDie x)

/-- The links of a die in step 5 of its warm reset have trained: the spill area is copied back next (R427). -/
def State.trainAdvance (s : State) : State :=
  match s.dies.warm with
  | none => s
  | some d =>
    if s.dies.phase = 5 && (linksAt d).all (fun k => !s.peerLive d k || decide ((s.link k).st = .active)) then
      { s with dies := { s.dies with phase := 6, stepBy := none } }
    else s

/-- A link of a die in step 5 has failed towards a live peer: the die stays fenced at PHASE 2 (R427). -/
def State.warmFailed (s : State) (key : Nat) : State :=
  match s.dies.warm with
  | none => s
  | some d =>
    if s.dies.phase = 5 && (linkDies key).contains d && s.peerLive d key then
      { s with dies := { s.dies with phase := 2, warm := none, busy := false, stepBy := none } }
    else s

/-- A link enters FAILED: unacknowledged flits go back, and a die is fenced unless the failure follows from a fence (R423, R425). -/
def State.linkFail (s : State) (key cause : Nat) : State :=
  let lost := s.unacked key
  let s := s.updLink key (fun l => { l with st := .failed, cause := cause, chans := l.chans.map (fun e => (e.1, { e.2 with tx := [] })) })
  let s := lost.foldl (fun (s : State) p => s.giveLost p) s
  let s := if cause = 4 then s else match fencedBy key with | some d => (s.warmFailed key).beginFence d | none => s.warmFailed key
  s.warmAdvance

/-- A task of an incomplete group has to do with a die: it was assigned to it, runs or is saved on it, or is moving to it (R351). -/
def Task.onDie (k : Task) (d : Nat) : Bool :=
  decide (k.coord.d = d) || (k.live && (decide (k.phys.d = d ∨ k.home.d = d) ||
    (decide (k.st = .moving) && (match k.landing with | some p => decide (p.d = d) | none => false))))

/-- Instances of a group with a member on a die are aborted with 0x8001 (R379). -/
def State.abortOn (s : State) (d g : Nat) : State :=
  ((s.insts.filter (fun e => decide (e.2.group = g) && e.2.members.any (fun t => (s.task t).onDie d))).map (·.1)).foldl
    (fun (s : State) k => s.abortHere k 0x8001) s

/-- Landing places on a die are given up (R358). -/
def Task.leaveLanding (d : Nat) (k : Task) : Task :=
  match k.landing with
  | some p =>
    if p.d = d then (if k.st = .quiesceMove then { k.unquiet with landing := none, st := .running } else { k with landing := none }) else k
  | none => k

/-- A fence takes effect: coordinates of the die are no longer VALID, the barriers of its members are aborted, its groups are reissued, links to it fail with cause 4 unless its own warm reset quiesces them, a master is elected, and the DIECMD, or a warm reset that waited for a link to the die, goes on; a start in which every die is fenced has failed (R351, R379, R423, R426, R427, R437). -/
def State.fence (s : State) (d : Nat) : State :=
  let own := decide (s.dies.warm = some d)
  let s : State := { s with dies := { s.dies with
    fenced := s.dies.fenced ||| 2 ^ d, fencing := s.dies.fencing.filter (fun e => e.1 ≠ d)
    electing := true, electBy := if s.dies.electing then s.dies.electBy else s.now + 10_000
    phase := if s.dies.cmdDie = d ∧ !own then 2 else s.dies.phase
    busy := if s.dies.cmdDie = d ∧ !own then false else s.dies.busy
    stepBy := if own then some (s.now + 100_000) else s.dies.stepBy } }
  let gs := (s.groups.filter (fun e => !e.2.complete && e.2.tasks.any (fun t => (s.task t).onDie d))).map (·.1)
  let s := gs.foldl (fun (s : State) g => (s.abortOn d g).reissue g) s
  let s : State := { s with tasks := s.tasks.map (fun e => (e.1, e.2.leaveLanding d)) }
  let s := if own then s
    else (linksAt d).foldl (fun (s : State) k =>
      match (s.link k).st with
      | .training => s.linkFail k 4
      | .active => s.linkFail k 4
      | .retrain => s.linkFail k 4
      | _ => s) s
  let s : State := if s.bt.waiting ∧ s.dies.fenced = 0xFFFF then { s with bt := { s.bt with waiting := false, okBy := none, reason := 4 } } else s
  s.warmAdvance.trainAdvance

/-! ### Power in time (R429 to R433) -/

/-- The effective cap in 250 W units (R428). -/
def Power.eff (p : Power) : Nat := min (min p.cap (vget 80 p.pre p.pstep)) p.thermal
/-- A measured draw is at or below the effective cap; DRAW counts 10 W units (R428). -/
def Power.within (p : Power) (draw : Nat) : Bool := decide (draw ≤ 25 * p.eff)

/-- The most that the module can draw, in 10 W units: below 3 kW at depth 23, at most 3 kW 100,000 pt after a power-fail trap began, and the effective cap 1,000,000 pt after its last decrease (R429, R430, R433). -/
def Power.most (p : Power) (now : Nat) : Nat :=
  min (min (if p.step = 23 then 299 else 65535)
           (match p.trap with | some (t, _) => if t + 100_000 ≤ now then 300 else 65535 | none => 65535))
      (match p.lastDecrease with | some t => if t + 1_000_000 ≤ now then 25 * p.eff else 65535 | none => 65535)

/-- The draw has come down to what the module can draw; how far, the spec leaves open (R429, R430, R433, log 11). -/
def State.boundDraw (s : State) : State :=
  let m := s.pw.most s.now
  if s.pw.draw ≤ m then s
  else
    let d := (Config.freeWord s.free).toNat % (m + 1)
    { s.draw with pw := { s.pw with draw := d, met := s.pw.met || s.pw.within d } }

/-- The throttle takes one more step, where 20,000 pt have passed since the last and the draw exceeds the cap (R431). -/
def State.throttleMore (s : State) : State :=
  let p := s.pw
  (if s.now < p.lastAdd + 20_000 ∨ p.within p.draw ∨ 23 ≤ p.step then s
   else { s with pw := { p with step := p.step + 1, lastAdd := s.now } }).boundDraw

/-- A change of a cap: a decrease of the effective cap applies at once the depth that the model predicts; MET shows that a draw at or below the cap has been seen since the last decrease (R428, R429, R431, log 111). -/
def State.setCaps (s : State) (f : Power → Power) : State :=
  let p := f s.pw
  if p.eff < s.pw.eff then
    State.boundDraw { s with pw := { p with
      lastDecrease := some s.now
      lastAdd := s.now
      met := p.within p.draw
      step := max p.step (min (Config.predictDepth p.eff p.draw) 23) } }
  else { s with pw := { p with met := p.met || p.within p.draw } }

/-- The thermal cap goes one unit below the effective cap (R432). -/
def State.capBelow (s : State) (tj : Nat) : State :=
  s.setCaps (fun p => { p with tj := tj % 256, hot := true, thermal := max 12 (p.eff - 1), thermalAt := s.now })

/-- A temperature below TRIP is seen: the first above WARN puts the thermal cap below the effective cap, and one below WARN ends the lowering (R432, log 71). -/
def State.heat (s : State) (tj : Nat) : State :=
  if s.pw.warn < tj ∧ !s.pw.hot then s.capBelow tj
  else { s with pw := { s.pw with tj := tj % 256, hot := s.pw.hot && decide (s.pw.warn ≤ tj) } }

/-- The thermal cap moves, where 1,000,000 pt have passed since it last moved: a unit down until the temperature is below WARN, and a unit up below it (R432). -/
def State.thermalMove (s : State) : State :=
  let p := s.pw
  if s.now < p.thermalAt + 1_000_000 then s
  else if p.hot then s.setCaps (fun p => { p with thermalAt := s.now, thermal := max 12 (p.thermal - 1) })
  else if p.tj < p.warn then s.setCaps (fun p => { p with thermalAt := s.now, thermal := min 80 (p.thermal + 1) })
  else s

/-- When the power acts by itself: a throttle step, a move of the thermal cap, the bounds of the draw, and the end of the trap (R429, R431, R432, R433). -/
def Power.due (p : Power) : List Nat :=
  (if p.within p.draw ∨ 23 ≤ p.step then [] else [p.lastAdd + 20_000]) ++
  (if p.hot ∨ (p.tj < p.warn ∧ p.thermal < 80) then [p.thermalAt + 1_000_000] else []) ++
  (match p.lastDecrease with | some t => [t + 1_000_000] | none => []) ++
  (match p.trap with | some (t, _) => [t + 100_000, t + 8_000_000] | none => [])

/-! ### The power-fail image (R433) -/

/-- Entries of the persist list: address and length (R433). -/
def State.persistList (s : State) : List (Nat × Nat) :=
  (List.range s.pw.pfCount).map (fun i => (s.read (s.pw.pfAddr + 16 * i) 8, s.read (s.pw.pfAddr + 16 * i + 8) 8))

/-- The bytes of the list in order, up to 1 GiB: cells by offset, their number, and whether the list was cut. -/
def State.persistBytes (s : State) : Nat → List (Nat × Nat) → List Host.Cell × Nat × Bool
  | off, [] => ([], off, false)
  | off, (a, n) :: l =>
    let n' := min n (2 ^ 30 - off)
    let here := (s.mem.filter (fun e => decide (a ≤ e.1 ∧ e.1 < a + n'))).map (fun e => (e.1 - a + off, e.2))
    if n' < n then (here, off + n', true)
    else
      let r := s.persistBytes (off + n) l
      (here ++ r.1, r.2)

/-- The listed bytes of a part of memory, by offset in it. -/
def State.cellsAt (s : State) (a n : Nat) : List Host.Cell :=
  (s.mem.filter (fun e => decide (a ≤ e.1 ∧ e.1 < a + n))).map (fun e => (e.1 - a, e.2))

/-- The control state: the context table and the contexts' registers, the queue tables, superstep counters and membership, and the launch table; roots, trap-queue indexes and TQSTATE stand in the context table (R289, R309, R433). -/
def State.controlState (s : State) : PfControl :=
  { ctxTable := s.cellsAt s.mg.ctxtbase (256 * 4096)
    queueTable := s.cellsAt s.mg.qtbase (64 * 1024)
    ctxs := s.ctxs
    queues := s.queues
    steps := (s.tasks.filter (fun e => e.2.live)).map (fun e => (e.1, e.2.arch.bar.step0, e.2.arch.bar.steps, e.2.arch.bar.memb))
    launches := s.kernels }

/-- How many bytes the control state takes in the image, at most 256 MiB (R433, log 70). -/
opaque controlSize : PfControl → Nat
/-- Byte `k` of the control state in the image, whose layout is not given (R433, log 70). -/
opaque controlByte : PfControl → Nat → Byte

/-- The image is written, and sealed where the hold-up store lasts, and the module stops (R433, R434). -/
def State.sealImage (s : State) (held : Bool) : State :=
  match s.pw.trap with
  | none => s
  | some (_, cause) =>
    let c := s.controlState
    let n := controlSize c % (2 ^ 28 + 1)
    let r := s.persistBytes 0 s.persistList
    { s with
      stopped := true
      flash := { s.flash with
        image := r.1
        imageLen := n + r.2.1
        controlLen := n
        control := c
        trunc := r.2.2
        cause := cause
        imageOk := held } }

/-- The trap has ended by 8,000,000 pt after its start; whether the hold-up store has lasted so long is a free choice (R433, R434). -/
def State.trapEnds (s : State) : State :=
  match s.pw.trap with
  | some (t, _) => if s.stopped ∨ s.now < t + 8_000_000 then s else s.draw.sealImage (Config.freeBool s.free)
  | none => s

/-- A rewrite of a record may be complete; it takes a time that is not given (R435, log 112). -/
def State.recordsLand (s : State) : State :=
  let step (s : State) (busy : Bool) (f : Flash → Flash) : State :=
    if !busy then s else if Config.freeBool s.free then { s.draw with flash := f s.flash } else s.draw
  let s := step s s.flash.starts.next.isSome (fun f => { f with starts := f.starts.landed })
  step s s.flash.harvest.next.isSome (fun f => { f with harvest := f.harvest.landed })

/-- The host's time for BOOTOK has run out: the start has failed (R436, R437). -/
def State.bootLate (s : State) : State :=
  match s.bt.okBy with
  | some t => if s.bt.waiting ∧ t < s.now then { s with bt := { s.bt with waiting := false, okBy := none, reason := 5 } } else s
  | none => s

/-- FENCE_INSTANT (R426). -/
def execFenceInstant (d : Nat) (s : State) : Host.Outcome State Fault Refusal :=
  .next (if s.dies.fencing.any (fun e => e.1 = d) then s.fence d else s)

/-- DIE_FENCE: a write of FENCE to DIECMD (R424, R426). -/
def State.dieCommandFence (s : State) (d : Nat) : State :=
  if s.dies.busy then s
  else if s.fencedDie d then { s with dies := { s.dies with cmdDie := d, phase := 2 } }
  else { s with dies := { s.dies with cmdDie := d, busy := true, phase := 1 } }.beginFence d

/-- DIE_FENCE (R426). -/
def execDieFence (d : Nat) (s : State) : Host.Outcome State Fault Refusal := .next (s.dieCommandFence (d % 16))

/-- A write of WARM RESET to DIECMD: a die that is not fenced is fenced first (R427). -/
def State.dieCommandWarm (s : State) (d : Nat) : State :=
  if s.dies.busy then s
  else (({ s with dies := { s.dies with cmdDie := d, busy := true, phase := 1, warm := some d } } : State).beginFence d).warmAdvance

/-- WARM_RESET (R427). -/
def execWarmReset (d : Nat) (s : State) : Host.Outcome State Fault Refusal := .next (s.dieCommandWarm (d % 16))

/-! ### Flits (R419 to R421) -/

/-- The fields of a flit (R420). -/
structure Flit where
  ch : Nat
  e : Bool
  type : Nat
  seq : Nat
  ach : Nat
  ae : Bool
  av : Bool
  nak : Bool
  aseq : Nat
  deriving DecidableEq, Repr

def flitOf (w : Nat) : Flit :=
  { ch := bits w 4 0, e := bit w 5, type := bits w 7 6, seq := bits w 19 8, ach := bits w 28 24, ae := bit w 29,
    av := bit w 30, nak := bit w 31, aseq := bits w 43 32 }

/-- The CRC agrees, reserved fields are zero, and the channel is not reserved (R418, R420, R421). -/
def flitOk (w : Nat) : Bool :=
  decide (crc32c ((List.range 60).map (fun i => bits w (8 * i + 7) (8 * i))) = bits w 511 480 ∧
    bits w 23 20 = 0 ∧ bits w 47 44 = 0 ∧ bits w 63 48 = 0 ∧ bits w 7 6 ≠ 3 ∧ bits w 4 0 < 20)

/-- A flit of these 480 low bits, with its CRC (R420). -/
def flitWord (w : Nat) : BitVec 512 := BitVec.ofNat 512 (w + crc32c ((List.range 60).map (fun i => bits w (8 * i + 7) (8 * i))) * 2 ^ 480)

/-- The fields of an acknowledgement flit for the channel under key `k`: TYPE 1, AV, ACH and AE, ASEQ, and NAK (R420, R421). -/
def ackBits (k aseq : Nat) (nak : Bool) : Nat :=
  2 ^ 6 + k % 32 * 2 ^ 24 + k / 32 % 2 * 2 ^ 29 + 2 ^ 30 + b01 nak * 2 ^ 31 + aseq % 4096 * 2 ^ 32

/-- Key of a channel of a direction. -/
def chanKey (dir : Nat) (e : Bool) (ch : Nat) : Nat := 64 * dir + 32 * b01 e + ch

/-- The packet of which a delivered flit carries the last part has crossed its link; then the channels send what they can (R419 to R421). -/
def State.flitLands (s : State) (key k seq : Nat) : State :=
  match (SMap.get Chan.reset (s.link key).chans k).tx.find? (fun f => decide (f.seq = seq)) with
  | some f =>
    match f.payload with
    | some p => if f.last then { s with net := s.net.map (fun q => if q.uid = p.uid ∧ q.sent ∧ q.path = p.path then s.crossed q else q) } else s
    | none => s
  | none => s

/-- A link goes to RETRAIN, or fails at its fourth retrain within 10^9 pt (R423). -/
def State.retrain (s : State) (key : Nat) : State :=
  let l := s.link key
  let recent := l.retrains.filter (fun t => decide (s.now < t + 1_000_000_000))
  if 3 ≤ recent.length then s.linkFail key 3
  else s.setLink key { l with st := .retrain, retrainAt := s.now, retrains := recent ++ [s.now], crcTimes := [] }

/-- A CRC failure; 64 within 1,000,000 pt send the link to RETRAIN (R421, R423). -/
def State.crcFailure (s : State) (key : Nat) : State :=
  let l := s.link key
  let ts := l.crcTimes.filter (fun t => decide (s.now < t + 1_000_000)) ++ [s.now]
  let s := s.setLink key { l with crcerr := min (l.crcerr + 1) 0xFFFF_FFFF, crcTimes := ts }
  if 64 ≤ ts.length then s.retrain key else s

/-- The flits of a channel are sent again; one resent for the eighth time fails the link (R421, R423). -/
def State.resend (s : State) (key k : Nat) : State :=
  let l := s.link key
  let c := SMap.get Chan.reset l.chans k
  let tx := c.tx.map (fun f => { f with resent := f.resent + 1 })
  let l : Link := { l with replay := min (l.replay + tx.length) 0xFFFF_FFFF, chans := SMap.put l.chans k { c with tx := tx, since := s.now } }
  let s := s.setLink key l
  if tx.any (fun f => decide (8 ≤ f.resent)) then s.linkFail key 2 else s

/-- An acknowledgement: flits before ASEQ leave the replay buffer, and a NAK resends the rest (R421). -/
def State.senderAck (s : State) (key k aseq : Nat) (nak : Bool) : State :=
  let l := s.link key
  let c := SMap.get Chan.reset l.chans k
  let tx := c.tx.filter (fun f => decide ((f.seq + 4096 - aseq) % 4096 < 2048))
  let c : Chan := { c with tx := tx, since := if tx.length < c.tx.length then s.now else c.since }
  let s := s.setLink key { l with chans := SMap.put l.chans k c }
  if nak then s.resend key k else s

/-- How far the number of a flit lies beyond the one expected (R421). -/
def Chan.ahead (c : Chan) (seq : Nat) : Nat := (seq + 4096 - c.exp) % 4096

/-- A good data flit at the receiver, at time `now`: delivered in order, to be acknowledged within 100 pt; a gap; or a duplicate of one delivered (R421). -/
def Chan.receive (c : Chan) (seq now : Nat) : Chan :=
  if c.ahead seq = 0 then { c with exp := (c.exp + 1) % 4096, naked := false, due := some (c.due.getD (now + 100)) }
  else if c.ahead seq < 2048 then { c with naked := true }
  else c

/-- What the receiver sends at once: a NAK, once for a gap, or for a duplicate the acknowledgement again (R421). -/
def Chan.answers (c : Chan) (seq : Nat) : Option Bool :=
  if c.ahead seq = 0 then none else if c.ahead seq < 2048 then (if c.naked then none else some true) else some false

/-- The receiver of a channel sends an acknowledgement flit with the number it expects; it travels against the channel's direction (R420, R421). -/
def State.sendAck (s : State) (key k : Nat) (nak : Bool) : State :=
  s.updLink key (fun l =>
    let c := SMap.get Chan.reset l.chans k
    { l with chans := SMap.put l.chans k { c with due := none }, acks := l.acks ++ [(1 - k / 64, flitWord (ackBits k c.exp nak))] })

/-- Delivered flits that are due are acknowledged on every ACTIVE link (R421). -/
def State.acksDue (s : State) : State :=
  s.lk.tab.foldl (fun (s : State) e =>
    if e.2.st ≠ .active then s
    else e.2.chans.foldl (fun (s : State) c => if c.2.due.any (fun n => decide (n ≤ s.now)) then s.sendAck e.1 c.1 false else s) s) s

/-- When delivered flits must be acknowledged (R421). -/
def Links.due (l : Links) : List Nat := l.tab.flatMap (fun e => e.2.chans.flatMap (fun c => c.2.due.toList))

/-- An acknowledgement that the far end has sent: an acknowledgement flit on its way, or with another flit a number that is not beyond the one it expects (R421). -/
def Link.acked (l : Link) (dir : Nat) (w : BitVec 512) (f : Flit) : Bool :=
  let c := SMap.get Chan.reset l.chans (chanKey (1 - dir) f.ae f.ach)
  f.av && (if f.type = 1 then l.acks.contains (dir, w) else decide ((c.exp + 4096 - f.aseq) % 4096 < 2048))

/-- A data flit that the far end has sent: one in its replay buffer, or an older one (R421). -/
def Link.carries (l : Link) (k seq : Nat) : Bool :=
  let c := SMap.get Chan.reset l.chans k
  decide (2048 ≤ c.ahead seq) || c.tx.any (fun f => decide (f.seq = seq))

/-- FLIT_RECEIVE: a flit from the lower or the higher end of an ACTIVE link (R421, R423). -/
def execFlitReceive (link : Nat) (fromLow : Bool) (flit : BitVec 512) (s : State) : Host.Outcome State Fault Refusal :=
  .next (let key := linkKey link; let dir := b01 (!fromLow); let f := flitOf flit.toNat
    if (s.link key).st ≠ .active then s
    else if !flitOk flit.toNat then s.crcFailure key
    else
      let s := if (s.link key).acked dir flit f then
          (s.updLink key (fun l => { l with acks := l.acks.erase (dir, flit) })).senderAck key (chanKey (1 - dir) f.ae f.ach) f.aseq f.nak
        else s
      let k := chanKey dir f.e f.ch
      if f.type ≠ 0 ∨ (s.link key).st ≠ .active ∨ !(s.link key).carries k f.seq then s
      else
        let c := SMap.get Chan.reset (s.link key).chans k
        let s := if f.seq = c.exp then s.flitLands key k f.seq else s
        let s := s.updLink key (fun l => { l with chans := SMap.put l.chans k ((SMap.get Chan.reset l.chans k).receive f.seq s.now) })
        (match c.answers f.seq with | some nak => s.sendAck key k nak | none => s).pump)

/-- REPLAY_TIMEOUT: no progress for 500 pt (R421). -/
def execReplayTimeout (link : Nat) (fromLow : Bool) (ch : BitVec 5) (e : Bool) (s : State) : Host.Outcome State Fault Refusal :=
  .next (let key := linkKey link; let k := chanKey (b01 (!fromLow)) e ch.toNat
    let c := SMap.get Chan.reset (s.link key).chans k
    if (s.link key).st = .active ∧ !c.tx.isEmpty ∧ c.since + 500 ≤ s.now then s.resend key k else s)

/-! ### Link states (R423) -/

/-- SIDEBAND_ERROR (R423). -/
def execSidebandError (link : Nat) (s : State) : Host.Outcome State Fault Refusal :=
  .next (if (s.link (linkKey link)).st = .active then s.retrain (linkKey link) else s)

/-- Lanes of a link that has trained (R416, R423). -/
def lanes (key : Nat) (half : Bool) : Nat := if key < 256 then (if half then 32 else 64) else if key < 272 then 8 else 16

/-- Every channel of a link is sent again from its oldest unacknowledged flit (R423). -/
def State.resendAll (s : State) (key : Nat) : State :=
  ((s.link key).chans.map (·.1)).foldl (fun (s : State) k =>
    if (s.link key).st = .active ∧ !(SMap.get Chan.reset (s.link key).chans k).tx.isEmpty then s.resend key k else s) s

/-- The time in which the host must write BOOTOK runs from the host link's ACTIVE; messages held for the host are sent (R426, R436). -/
def State.hostUp (s : State) (key : Nat) : State :=
  let s := if key = 272 then { s with msix := s.msix ++ s.msixHeld, msixHeld := [] } else s
  if key = 272 ∧ s.bt.waiting ∧ s.bt.okBy = none then { s with bt := { s.bt with okBy := some (s.now + 900_000_000_000) } } else s

/-- LINK_TRAINED: training ends at full or half width, or a retrain within 10,000 pt (R423). -/
def execLinkTrained (link : Nat) (half repair : Bool) (s : State) : Host.Outcome State Fault Refusal :=
  .next (let key := linkKey link; let l := s.link key
    match l.st with
    | .training => ((s.setLink key { l with st := .active, width := lanes key half, repair := repair, attempts := 0 }).trainAdvance.hostUp key).pump
    | .retrain =>
      if s.now < l.retrainAt + 10_000 then
        ((s.setLink key { l with st := .active, width := lanes key half, repair := repair || l.repair }).resendAll key).trainAdvance
      else s
    | _ => s)

/-- TRAINING_FAILED: the third failed attempt sends the link to FAILED (R423). -/
def execTrainingFailed (link : Nat) (s : State) : Host.Outcome State Fault Refusal :=
  .next (let key := linkKey link; let l := s.link key
    if l.st ≠ .training then s
    else if l.attempts + 1 < 3 then s.setLink key { l with attempts := l.attempts + 1 }
    else s.linkFail key 1)

/-- RETRAIN_TIMEOUT: not retrained within 10,000 pt (R423). -/
def execRetrainTimeout (link : Nat) (s : State) : Host.Outcome State Fault Refusal :=
  .next (let key := linkKey link; let l := s.link key
    if l.st = .retrain ∧ l.retrainAt + 10_000 ≤ s.now then s.linkFail key 3 else s)

/-- LINK_QUIESCED: a link of a die in step 2 of its warm reset, every flit of which has been acknowledged (R423, R427). -/
def execLinkQuiesced (link : Nat) (s : State) : Host.Outcome State Fault Refusal :=
  .next (let key := linkKey link; let l := s.link key
    match s.dies.warm with
    | none => s
    | some d =>
      if decide (s.dies.phase = 1) && s.fencedDie d && (linkDies key).contains d && decide (l.st = .active ∨ l.st = .retrain) &&
          l.chans.all (fun e => e.2.tx.isEmpty) then
        (s.setLink key { l with st := .quiesced }).warmAdvance
      else s)

/-! ### The warm reset (R427) -/

/-- First byte of the spill area of a die (R392, R427). -/
def spillBase (d : Nat) : Nat :=
  let g := Config.homeGateway d
  let second := (List.range d).any (fun x => decide (Config.homeGateway x = g))
  lpddrBase + (g + 1) * lpddrPart - 0x1_8000_0000 + (if second then 0xC000_0000 else 0)

/-- Key of a frame of a die in the layout of its spill area: die SRAM first, then the group SRAM of its tile groups. -/
def spillFrameKey (d f : Nat) : Nat :=
  let n := Config.dieSram d / 65536
  if f < n then dieKey d (f * 65536) else groupKey d ((f - n) / 1536) ((f - n) % 1536 * 65536)

/-- Some module of the edge that leads from die `a` over edge `e` has not failed. -/
def State.edgeUp (s : State) (a e : Nat) : Bool := (List.range 4).any (fun m => decide ((s.link (16 * a + 4 * e + m)).st ≠ .failed))

/-- No hop of a path between dies crosses a FAILED link. -/
def State.hopsUp (s : State) : Nat → List Nat → Bool
  | _, [] => true
  | a, b :: l => s.edgeUp a (edgeTo a b) && s.hopsUp b l

/-- Some route from a die to its home gateway crosses no FAILED link (R23, R26, R427). -/
def State.spillRoute (s : State) (d : Nat) : Bool :=
  let g := Config.homeGateway d
  [(Config.attach g).1, (Config.attach g).2].any (fun a => s.edgeUp a (gatewayEdge g) &&
    (s.hopsUp d (walk false 8 d a) || s.hopsUp d (walk true 8 d a)))

/-- Frames of a die written since its admission, in the layout of its spill area. -/
def State.dirtyFrames (s : State) (d : Nat) : List Nat :=
  (s.dies.written.filter (fun x => decide (x / 65536 = d))).map (· % 65536)

/-- Gathered state of the pages that a die's cores translated reaches the tables (R401, R427). -/
def State.harvestDie (s : State) (d : Nat) : State :=
  let l := s.pg.gathered.filter (fun e => e.2.2.2.any (fun x => decide (x ≠ 0 ∧ x % 16 = d)))
  l.foldl (fun (s : State) e => s.harvestPage (e.1 / 2 ^ 40) (e.1 % 2 ^ 40)) s

/-- DIE_SPILL_DONE: gathered state and written frames have been written back, and the reset begins (R427). -/
def execDieSpillDone (s : State) : Host.Outcome State Fault Refusal :=
  .next (match s.dies.warm with
    | none => s
    | some d =>
      if s.dies.phase ≠ 3 then s
      else
        let fs := if s.spillRoute d then s.dirtyFrames d else []
        let s := if s.spillRoute d then s.harvestDie d else s
        let s := fs.foldl (fun (s : State) f => s.copyMem (spillFrameKey d f) (spillBase d + f * 65536) 65536) s
        { s with dies := { s.dies with phase := 4, spilled := fs, stepBy := some (s.now + 50_000) } })

/-- The SRAM of a die's columns, groups and die reads as after a reset (R427). -/
def State.clearDie (s : State) (d : Nat) : State :=
  ((s.clearMem (columnKey ⟨d, 0, 0⟩ 0) (32 * 128 * 2 ^ 22)).clearMem (dieKey d 0) (2 ^ 31)).clearMem (groupKey d 0 0) (16 * 2 ^ 27)

/-- A link trains anew (R423). -/
def Link.restart (l : Link) : Link := { Link.enabled with retrains := l.retrains }

/-- A packet that stands on a die, but for one that the distributor holds for a group to be placed again (R370, R427, R445). -/
def Packet.standsOn (p : Packet) (d : Nat) : Bool :=
  !p.held && (match p.path with
    | some (l :: _) => decide (sendDie l = some d)
    | some [] => decide (p.goal.d = d) && decide (p.from_.d ≠ d ∨ 16 ≤ p.dst.d) && !p.lost
    | none => decide (p.from_.d = d))

/-- The die's logic and SRAM are reset, packets that stand on it are gone, and its links train again but for those of fenced peers (R423, R427, R445). -/
def State.resetDone (s : State) : State :=
  match s.dies.warm with
  | none => s
  | some d =>
    if s.dies.phase ≠ 4 then s
    else
      let s := s.clearDie d
      let s : State := { s with
        net := s.net.filter (fun p => !p.standsOn d)
        dies := { s.dies with phase := 5, stepBy := some (s.now + 50_000)
                              written := s.dies.written.filter (fun x => decide (x / 65536 ≠ d ∨ s.dies.spilled.contains (x % 65536))) }
        pg := { s.pg with ileases := s.pg.ileases.filter (fun l => decide (l.phys.d ≠ d)) }
        cores := { s.cores with
          fwd := s.cores.fwd.filter (fun e => decide (e.1 / 4096 ≠ d)), icopies := s.cores.icopies.filter (fun c => decide (c.phys.d ≠ d)) } }
      ((linksAt d).foldl (fun (s : State) k => if s.peerLive d k then s.updLink k Link.restart else s) s).trainAdvance

/-- DIE_RESET_DONE (R427). -/
def execDieResetDone (s : State) : Host.Outcome State Fault Refusal := .next s.resetDone

/-- DIE_RESTORE_DONE: the spill area has been copied back, and the election of the readmission runs (R351, R427). -/
def execDieRestoreDone (s : State) : Host.Outcome State Fault Refusal :=
  .next (match s.dies.warm with
    | none => s
    | some d =>
      if s.dies.phase ≠ 6 then s
      else
        let s := s.dies.spilled.foldl (fun (s : State) f => s.copyMem (spillBase d + f * 65536) (spillFrameKey d f) 65536) s
        { s with dies := { s.dies with phase := 7, electing := true, electBy := s.now + 10_000, spilled := [], stepBy := some (s.now + 10_000) } })

/-- The core table with the entries of a die as the harvest map gives them (R15, R427). -/
def State.tableOf (s : State) (d : Nat) : SMap CtEntry :=
  s.cores.table.filter (fun e => decide (e.1 / 2048 < d)) ++ s.flash.harv.map.filter (fun e => decide (e.1 / 2048 = d)) ++
    s.cores.table.filter (fun e => decide (d < e.1 / 2048))

/-- The core table of the die is rebuilt from the harvest record, the lowest live die is master, and the fence is lifted (R350, R351, R427). -/
def State.readmitDone (s : State) : State :=
  match s.dies.warm with
  | none => s
  | some d =>
    if s.dies.phase ≠ 7 then s
    else
      let s : State := { s with
        cores := { s.cores with table := s.tableOf d }
        dies := { s.dies with fenced := s.dies.fenced &&& (2 ^ 16 - 1 - 2 ^ d), phase := 0, warm := none, busy := false, electing := false, stepBy := none } }
      { s with dies := { s.dies with
          master := ((List.range 16).find? (fun x => !s.fencedDie x && !s.dies.fencing.any (fun e => e.1 = x))).getD 0 } }

/-- DIE_READMIT_DONE (R427). -/
def execDieReadmitDone (s : State) : Host.Outcome State Fault Refusal := .next s.readmitDone

/-- A link that has not come to rest by the end of step 2 of a warm reset: what its live end still keeps is returned, and it is QUIESCED (R423, R425, R427, log 118). -/
def State.quiesceLate (s : State) (key : Nat) : State :=
  if (s.link key).st = .active ∨ (s.link key).st = .retrain then
    let lost := s.unacked key
    let s := s.updLink key (fun l => { l with st := .quiesced, chans := l.chans.map (fun e => (e.1, { e.2 with tx := [] })) })
    lost.foldl (fun (s : State) p => s.giveLost p) s
  else s

/-- The bound of the present step of a warm reset has come: links are QUIESCED, the die's reset is over, a link to a live peer that has not trained has failed, or the die is admitted (R427, log 118). -/
def State.stepOut (s : State) : State :=
  match s.dies.warm, s.dies.stepBy with
  | some d, some n =>
    if s.now < n then s
    else
      let s : State := { s with dies := { s.dies with stepBy := none } }
      if s.dies.phase = 1 then ((linksAt d).foldl (fun (s : State) k => s.quiesceLate k) s).warmAdvance
      else if s.dies.phase = 4 then s.resetDone
      else if s.dies.phase = 5 then
        (linksAt d).foldl (fun (s : State) k => if s.peerLive d k && decide ((s.link k).st = .training) then s.linkFail k 1 else s) s
      else if s.dies.phase = 7 then s.readmitDone
      else s
  | _, _ => s

/-- Step 4 of a start enables the links, in minimal mode the host link alone (R423, R436, R437). -/
def State.enableLinks (s : State) : State :=
  if s.bt.enable then
    { s with bt := { s.bt with enable := false }
             lk := { s.lk with tab := ((List.range 273).filter (fun n => decide (linkKey n = n ∧ (s.bt.minimal → n = 272)))).map (fun n => (n, Link.enabled)) } }
  else s

end Sys2Proof.Machine
end

