-- ==== Sys2Proof/Machine/Boot.lean ====
section
/-! DEFINITION. Power steps, the power-fail trap, boot, the management space, and what the host does to the module (R10, R416, R428 to R437). -/
namespace Sys2Proof.Machine

/-! ### Power (R428 to R432) -/

/-- PWRCAP_WRITE (R428, R429). -/
def execPwrcapWrite (v : Word) (s : State) : Host.Outcome State Fault Refusal :=
  .next (s.setCaps (fun p => { p with cap := max 12 (min 80 (bits v.toNat 6 0)) }))

/-- PSTEP_CHANGE (R428, R429). -/
def execPstepChange (pins : BitVec 2) (s : State) : Host.Outcome State Fault Refusal :=
  .next (s.setCaps (fun p => { p with pstep := pins.toNat }))

/-- THROTTLE_STEP_ADD: the draw is measured, and 20,000 pt after the last step one is added while it exceeds the cap; the module cannot draw more than R429, R430 and R433 let it, so a measurement above that does not occur (R429, R430, R431). -/
def execThrottleStepAdd (draw : Nat) (s : State) : Host.Outcome State Fault Refusal :=
  .next (let d := draw % 65536
    if s.pw.most s.now < d then s
    else State.throttleMore { s with pw := { s.pw with draw := d, met := s.pw.met || s.pw.within d } })

/-- THROTTLE_STEP_REMOVE: once every 100,000 pt, while the draw predicted without the step is at most 95 % of the cap; without the first step, staging goes on (R430, R431). -/
def execThrottleStepRemove (predicted : Nat) (s : State) : Host.Outcome State Fault Refusal :=
  .next (let p := s.pw
    if s.now < p.lastRemove + 100_000 ∨ p.step = 0 ∨ 95 * 25 * p.eff < 100 * predicted then s
    else
      let s : State := { s with pw := { p with step := p.step - 1, lastRemove := s.now } }
      if s.stagingPaused then s else s.pumpFrames)

/-! ### The power-fail trap (R433, R434) -/

/-- Work of a task that the trap stops: slots stop at their next line end or stop point, and commands that have not completed are abandoned (R433). -/
def Task.powerHalt (k : Task) : Task :=
  if k.live then
    { k with halted := true, arch := k.arch.updEng (fun e =>
        { e with cmds := e.cmds.map (fun c => if c.out then { c with st := .discarded } else c) }) }
  else k

/-- The trap begins (R433, R437). -/
def State.beginTrap (s : State) (cause : Nat) : State :=
  if s.pw.trap.isSome ∨ s.stopped then s
  else
    { s with
      pw := { s.pw with trap := some (s.now, cause) }
      tasks := s.tasks.map (fun e => (e.1, e.2.powerHalt))
      queues := s.queues.map (fun e => (e.1, { e.2 with kcopies := [] }))
      msix := if (s.link 272).st = .active then s.msix ++ [3] else s.msix
      bt := if s.bt.waiting then { s.bt with reason := 6 } else s.bt }

/-- A junction temperature at TRIP: the power-fail trap (R432, R433). -/
def State.trip (s : State) (tj : Nat) : State := { s with pw := { s.pw with tj := tj % 256 } }.beginTrap 1

/-- JUNCTION_ABOVE_WARN: a temperature is seen (R432). -/
def execJunctionAboveWarn (tj : Nat) (s : State) : Host.Outcome State Fault Refusal :=
  .next (if 110 ≤ tj then s.trip tj else s.heat tj)

/-- THERMAL_CAP_ADJUST: a temperature is seen, and every 1,000,000 pt the thermal cap moves by a unit (R432). -/
def execThermalCapAdjust (tj : Nat) (s : State) : Host.Outcome State Fault Refusal :=
  .next (if 110 ≤ tj then s.trip tj else (s.heat tj).thermalMove)

/-- THERMAL_TRIP (R432, R433). -/
def execThermalTrip (tj : Nat) (s : State) : Host.Outcome State Fault Refusal := .next (if tj < 110 then s else s.trip tj)

/-- PFAIL_ASSERT (R433, R434). -/
def execPfailAssert (s : State) : Host.Outcome State Fault Refusal :=
  .next ({ s with pw := { s.pw with pfail := true } }.beginTrap 0)

/-- PFAIL_DEASSERT: a trap in progress runs to its end (R434). -/
def execPfailDeassert (s : State) : Host.Outcome State Fault Refusal := .next { s with pw := { s.pw with pfail := false } }

/-- PF_IMAGE_SEALED: every slot has stopped, the image is written and sealed, and the module stops; `held` says that the hold-up store lasted (R433, R434). -/
def execPfImageSealed (held : Bool) (s : State) : Host.Outcome State Fault Refusal :=
  .next (if held && s.tasks.any (fun e => e.2.onCore && !(e.2.arch.slots.toList.all (fun x => decide (x.st ≠ .running) || !x.line.entered))) then s
    else s.sealImage held)

/-- First byte of the CXL.mem window in HBM, and its size (R416, log 4). -/
def windowBase : Nat := 0
def windowSize : Nat := 2 ^ 36

/-- PFCOPY: a valid image is copied to a place in the window where it fits; one that does not fit, or no image, is done with nothing copied (R434, log 70). -/
def State.pfcopy (s : State) (off : Nat) : State :=
  if !s.flash.img ∨ windowSize < off * 65536 + s.flash.imageLen then { s with pw := { s.pw with pfDone := true, pfBusy := none } }
  else { s with pw := { s.pw with pfDone := false, pfBusy := some off } }

/-- PFCOPY (R434). -/
def execPfcopy (off : BitVec 20) (s : State) : Host.Outcome State Fault Refusal := .next (s.pfcopy off.toNat)

/-- PFCOPY_DONE: the control state, then the bytes of the persist list (R433, R434). -/
def execPfcopyDone (s : State) : Host.Outcome State Fault Refusal :=
  .next (match s.pw.pfBusy with
    | none => s
    | some off =>
      let k := windowBase + off * 65536
      let f := s.flash
      let s := (List.range f.controlLen).foldl (fun (s : State) j => s.writeByte (k + j) (controlByte f.control j)) (s.clearMem k f.imageLen)
      let s := f.image.foldl (fun (s : State) c => s.writeByte (k + f.controlLen + c.1) c.2) s
      { s with pw := { s.pw with pfDone := true, pfBusy := none } })

/-! ### Boot (R436, R437) -/

/-- A firmware copy verifies and is not below the minimum version (R436). -/
def Flash.accepts (f : Flash) : Option Firmware → Bool
  | some w => decide (f.minVer.value 0 ≤ w.version)
  | none => false

/-- The reason for which a start fails in steps 1 to 3; 0 where it does not (R436, R437). -/
def Flash.startFails (f : Flash) : Nat :=
  if !f.pufOk then 3
  else if !(f.minVer.ok && f.harvest.ok && f.starts.ok && f.helper.ok) then 2
  else if !(f.accepts f.fwA || f.accepts f.fwB) then 1
  else 0

/-- The flash as the start finds it: an interrupted rewrite leaves the old copy in force, and the image counts if its seal verifies (R434, R435). -/
def Flash.found (f : Flash) : Flash :=
  { f with
    minVer := f.minVer.cut
    harvest := f.harvest.cut
    starts := f.starts.cut
    helper := f.helper.cut
    img := f.imageOk
    trunc := f.imageOk && f.trunc
    cause := if f.imageOk then f.cause else 0 }

/-- The module after the reset: flash, host memory, the pins and what the model keeps for itself stay; the harvest record gives the assignment (R15, R21, R434, R436). -/
def State.wipe (s : State) : State :=
  let f := s.flash.found
  { State.reset with
    mem := s.mem.filter (fun e => decide (2 ^ 53 ≤ e.1 ∧ e.1 < 2 ^ 54))
    cores := { State.reset.cores with table := f.harv.map, retired := f.harv.retired, bypass := f.harv.bypass }
    flash := f
    pw := { Power.reset with pstep := s.pw.pstep, pfail := s.pw.pfail }
    bt := { minimal := false, reason := s.bt.reason, enable := false, waiting := false, okBy := none, halted := false, measured := [] }
    turns := s.turns, free := s.free }

/-- COLD_RESET: the third step measures each firmware and writes FAILS + 1 (R436, R437). -/
def execColdReset (s : State) : Host.Outcome State Fault Refusal :=
  .next (let z := s.wipe
    let bad := z.flash.startFails
    let seen := if bad = 2 ∨ bad = 3 then [] else z.flash.fwA.toList ++ z.flash.fwB.toList
    let z : State := { z with bt := { z.bt with measured := seen } }
    if z.flash.fails = 3 then
      { z with bt := { z.bt with minimal := true, enable := true }, dies := { z.dies with fenced := 0xFFFF } }
    else
      let z : State := { z with flash := z.flash.setFails (z.flash.fails + 1) }
      if bad ≠ 0 then { z with bt := { z.bt with reason := bad, halted := true } }
      else { z with bt := { z.bt with waiting := true, enable := true } })

/-- BOOTOK counts: in minimal mode, and while the start waits for it within its time (R436, R437). -/
def State.okInTime (s : State) : Bool :=
  s.bt.minimal || (s.bt.waiting && (match s.bt.okBy with | some t => decide (s.now ≤ t) | none => true))

/-- A write of BOOTOK.GO: the start has succeeded (R436, R437). -/
def State.bootok (s : State) : State :=
  if s.okInTime then { s with bt := { s.bt with waiting := false, okBy := none }, flash := s.flash.setFails 0 } else s

/-- BOOTOK (R436, R437). -/
def execBootok (s : State) : Host.Outcome State Fault Refusal := .next s.bootok

/-- BOOTOK_TIMEOUT: the start counts as failed (R436, R437). -/
def execBootokTimeout (s : State) : Host.Outcome State Fault Refusal := .next s.bootLate

/-- What acts in the present state of the module: nothing but a cold reset once it has stopped or its start has failed early, and within the power-fail trap only what the trap lets act (R433, R434, R436). -/
def State.listens (s : State) (i : Instr) : Bool :=
  match i with
  | .coldReset => true
  | .pfImageSealed _ => !s.stopped
  | .pfailAssert => !s.stopped && !s.bt.halted
  | .pfailDeassert => !s.stopped && !s.bt.halted
  | _ => !s.stopped && !s.bt.halted && s.pw.trap.isNone

/-! ### The management space (R10, R428) -/

/-- A write to a register of the power and boot block (R428). -/
def State.powerWrite (s : State) (off v : Nat) : State :=
  if off = 0x000 then s.setCaps (fun p => { p with cap := max 12 (min 80 (bits v 6 0)) })
  else if off = 0x008 then s.setCaps (fun p => { p with pre := #v[bits v 6 0, bits v 14 8, bits v 22 16, bits v 30 24] })
  else if off = 0x018 then
    (if 80 ≤ bits v 15 8 ∧ bits v 15 8 ≤ 105 then
       State.heat { s with pw := { s.pw with warn := bits v 15 8 } } s.pw.tj
     else s)
  else if off = 0x020 then { s with pw := { s.pw with pfAddr := bits v 47 6 * 64, pfCount := min 64 (bits v 54 48) } }
  else if off = 0x030 then (if bit v 0 then s.pfcopy (bits v 35 16) else s)
  else if off = 0x048 then (if bit v 0 then s.bootok else s)
  else s

/-- PODBAR: while EN is 1 a write acts on EN alone (R389). -/
def State.podbarWrite (s : State) (v : Nat) : State :=
  let m := s.mg
  let m : Mgmt := if m.podEn then m else { m with podIdx := bits v 10 0, podCnt := bits v 22 12, podJob := bits v 47 32 }
  { s with mg := { m with podEn := bit v 31, podDown := m.podDown && (m.podEn || !bit v 48),
                          podRefuse := m.podRefuse && (m.podEn || !bit v 31) } }

/-- PGCMD (R414). -/
def State.pgcmdWrite (s : State) (op c : Nat) : State :=
  match op with
  | 1 => s.pageCommand c true (fun s => s.shoot c)
  | 2 => s.pageCommand c true (fun s => s.stageRange c)
  | 3 => s.pageCommand c true (fun s => s.evictRange c)
  | 4 => s.pageCommand c false (fun s => s.ephset c)
  | 5 => s.pageCommand c true (fun s =>
      let r := s.beginHarvest c s.pg.va s.pg.cnt s.pg.arg.toNat
      { r.1 with pg := { r.1.pg with time := r.2 } })
  | _ => s.setPgres 7

/-- A write to a register of the context-command block, by its offset in the block (R296, R314, R381, R389, R414, R424). -/
def State.blockWrite (s : State) (off v : Nat) : State :=
  if off = 0x000 then { s with mg := { s.mg with ctxtbase := bits v 47 12 * 4096 } }
  else if off = 0x008 then s.ctxCommand (bits v 3 0) (bits v 27 16)
  else if off = 0x018 then { s with mg := { s.mg with fatalV := s.mg.fatalV && !bit v 31 } }
  else if off = 0x040 then { s with mg := { s.mg with qtbase := bits v 47 16 * 65536 } }
  else if off = 0x048 then s.queueCommand (bits v 3 0) (bits v 25 16)
  else if off = 0x058 then s.doorbell (bits v 9 0) (BitVec.ofNat 32 (v / 2 ^ 32))
  else if off = 0x060 then { s with mg := { s.mg with qerrV := s.mg.qerrV && !bit v 31 } }
  else if off = 0x070 then { s with mg := { s.mg with barwdog := BitVec.ofNat 64 v } }
  else if off = 0x078 then s.podbarWrite v
  else if off = 0x080 then s.pgcmdWrite (bits v 3 0) (bits v 27 16)
  else if off = 0x088 then { s with pg := { s.pg with va := bits v 55 16 * 65536 } }
  else if off = 0x090 then { s with pg := { s.pg with cnt := bits v 31 0 } }
  else if off = 0x098 then { s with pg := { s.pg with arg := BitVec.ofNat 64 v } }
  else if off = 0x0B0 then
    (if s.ctxs.any (fun e => e.2.st = .resident) ∨ 4_194_304 < bits v 22 0 then s else { s with pg := { s.pg with pool := bits v 22 0 } })
  else if off = 0x0C0 then { s with pg := { s.pg with chgsel := bits v 11 0 } }
  else if off = 0x0E0 then { s with lk := { s.lk with sel := bits v 8 0 } }
  else if off = 0x0F8 then
    (if bits v 1 0 = 1 then s.dieCommandFence (bits v 7 4) else if bits v 1 0 = 2 then s.dieCommandWarm (bits v 7 4) else s)
  else s

/-- REGISTER_WRITE: a CSR of a running task, or a register of the management space (R10, R428, log 28). -/
def execRegisterWrite (r : RegName) (v : Word) (s : State) : Host.Outcome State Fault Refusal :=
  .next (match r with
    | .csr t n =>
      if s.writer t && (s.csrValue t n.toNat).isSome && decide (bits n.toNat 11 10 ≠ 3) then s.csrWrite t n.toNat v else s
    | .mgmt off => if off < 0x1000 then s.powerWrite off v.toNat else s.blockWrite (off - 0x1000) v.toNat)

/-- Codes of link states (R424). -/
def LkSt.code : LkSt → Nat
  | .down => 0
  | .training => 1
  | .active => 2
  | .retrain => 3
  | .quiesced => 4
  | .failed => 5

/-- Codes of context states (R291). -/
def CtxSt.code : CtxSt → Nat
  | .undefined => 0
  | .defined => 1
  | .resident => 2
  | .evicting => 3
  | .fatal => 4
  | .destroying => 5

/-- A register of the power and boot block as the host reads it; write-only ones read 0 (R428). -/
def State.powerRead (s : State) (off : Nat) : Nat :=
  let p := s.pw
  if off = 0x000 then p.cap
  else if off = 0x008 then fld (vget 0 p.pre 0) 7 0 + fld (vget 0 p.pre 1) 7 8 + fld (vget 0 p.pre 2) 7 16 + fld (vget 0 p.pre 3) 7 24
  else if off = 0x010 then fld p.eff 7 0 + fld p.step 5 8 + fld p.draw 16 16 + fld (b01 p.met) 1 32
  else if off = 0x018 then fld p.tj 8 0 + fld p.warn 8 8 + fld 110 8 16
  else if off = 0x020 then p.pfAddr + fld p.pfCount 7 48
  else if off = 0x028 then fld (b01 s.flash.img) 1 0 + fld (b01 s.flash.trunc) 1 1 + fld s.flash.cause 2 2 + fld (b01 p.pfDone) 1 4
  else if off = 0x040 then fld (b01 s.bt.minimal) 1 0 + fld s.bt.reason 4 4 + fld s.flash.fails 2 8
  else 0

/-- A register of the context-command block as the host reads it (R296, R314, R381, R389, R414, R424). -/
def State.blockRead (s : State) (off : Nat) : Nat :=
  let m := s.mg; let g := s.pg; let l := s.link s.lk.sel
  if off = 0x000 then m.ctxtbase
  else if off = 0x010 then
    fld m.ctxStatus 4 0 + fld (s.ctx m.ctxLast).st.code 3 4 + fld m.ctxChannel 4 8 + fld (b01 m.ctxPend.isSome) 1 63
  else if off = 0x018 then fld m.fatalCtx 12 0 + fld (b01 m.fatalV) 1 31 + fld m.fatalOvf 32 32
  else if off = 0x020 then fld (s.ctxs.filter (fun e => e.2.st = .resident)).length 7 0 + fld s.channels.length 5 8
  else if off = 0x040 then m.qtbase
  else if off = 0x050 then fld m.qStatus 4 0 + fld (s.queue m.qLast).st.code 3 8 + fld m.qCp 4 16 + fld (b01 m.qBusy) 1 63
  else if off = 0x060 then fld m.qerrQid 10 0 + fld m.qerrCode 8 16 + fld (b01 m.qerrV) 1 31
  else if off = 0x070 then m.barwdog.toNat
  else if off = 0x078 then fld m.podIdx 11 0 + fld m.podCnt 11 12 + fld (b01 m.podEn) 1 31 + fld m.podJob 16 32 + fld (b01 m.podDown) 1 48
  else if off = 0x088 then g.va
  else if off = 0x090 then g.cnt
  else if off = 0x098 then g.arg.toNat
  else if off = 0x0A0 then fld g.status 4 0
  else if off = 0x0A8 then g.time % 2 ^ 64
  else if off = 0x0B0 then g.pool
  else if off = 0x0B8 then g.tick
  else if off = 0x0C0 then g.chgsel
  else if off = 0x0C8 then (s.chargedTo g.chgsel).length
  else if off = 0x0D0 then g.settle
  else if off = 0x0E0 then s.lk.sel
  else if off = 0x0E8 then
    if s.lk.sel ≤ 272 then fld l.st.code 3 0 + fld l.width 7 4 + fld (b01 l.repair) 1 11 + fld l.cause 4 12 else 0
  else if off = 0x0F0 then if s.lk.sel ≤ 272 then fld l.crcerr 32 0 + fld l.replay 32 32 else 0
  else if off = 0x100 then fld s.dies.phase 3 0 + fld s.dies.fenced 16 16 + fld (b01 s.dies.busy) 1 63
  else 0

/-- A register of the management space as the host reads it (R10, R428). -/
def State.mgmtRead (s : State) (off : Nat) : Word :=
  BitVec.ofNat 64 (if off < 0x1000 then s.powerRead off else s.blockRead (off - 0x1000))

/-! ### The host and errors (R199, R368, R416, R435) -/

/-- The physical core and offset of a key in a column. -/
def columnOf (key : Nat) : Option (Phys × Nat) :=
  if 2 ^ 56 ≤ key ∧ key < 2 ^ 56 + 2 ^ 38 then
    let i := (key - 2 ^ 56) / 2 ^ 22
    some (⟨i / 4096, i / 128 % 32, i % 128⟩, (key - 2 ^ 56) % 2 ^ 22)
  else none

/-- UNCORRECTABLE_ERROR: the location is poisoned; a column that reports two errors at one line is marked for retirement, and retired at once where it holds no task (R199, R368). -/
def execUncorrectableError (key : Nat) (s : State) : Host.Outcome State Fault Refusal :=
  .next (let s := s.setPoison key .poisoned
    match columnOf key with
    | none => s
    | some (p, off) =>
      let old := SMap.get [] s.cores.errs p.index
      let again := old.any (fun e => e.2 = off / 64 + 1)
      let s : State := { s with cores := { s.cores with errs := SMap.put s.cores.errs p.index ((s.now, off / 64 + 1) :: old) } }
      if !again || s.cores.retired.contains p then s
      else
        let s : State := { s with cores := { s.cores with marked := if s.cores.marked.contains p then s.cores.marked else p :: s.cores.marked } }
        if (s.onPhys p).isNone then s.retireColumn p else s)

/-- CXL_MEM_REQUEST: the host reads or writes a word of HBM in the window (R416). -/
def execCxlMemRequest (op : CxlOp) (s : State) : Host.Outcome State Fault Refusal :=
  .next (if (s.link 272).st ≠ .active then s
    else
      let eph (k : Nat) : Bool := (SMap.find s.pg.eph (k / 65536)).isSome
      match op with
      | .read a =>
        if windowSize ≤ a then s
        else
          let k := windowBase + a / 8 * 8
          { s with hostReads := s.hostReads ++ [s.readWord k (eph k)] }
      | .write a v =>
        if windowSize ≤ a then s
        else
          let k := windowBase + a / 8 * 8
          s.writeWord k (eph k) v .none)

/-- SPDM_REQUEST: an answer goes to the host, from the measurements of this start, the seed of the PUF and the certificate (R435, log 15). -/
def execSpdmRequest (code : BitVec 8) (s : State) : Host.Outcome State Fault Refusal :=
  .next { s with spdm := s.spdm ++ [Config.spdmAnswer code.toNat (s.bt.measured.map (fun w => Config.shake256 w.image))
    (Config.pufSeed (s.flash.helper.value [])) s.flash.cert s.spdm.length] }

end Sys2Proof.Machine
end

