-- ==== Sys2Proof/Machine/Dispatch.lean ====
section
/-! DEFINITION. The one dispatch: one arm per instruction, each a direct call of its meaning. -/
namespace Sys2Proof.Machine

/-- What instruction `i` does in state `s`. -/
def exec (i : Instr) (s : State) : Host.Outcome State Fault Refusal :=
  match i with
  | .nop => Sys2Proof.Machine.execNop s
  | .br delta g => Sys2Proof.Machine.execBr delta g s
  | .brx d g => Sys2Proof.Machine.execBrx d g s
  | .call d delta g => Sys2Proof.Machine.execCall d delta g s
  | .callx d a g => Sys2Proof.Machine.execCallx d a g s
  | .loop d delta g => Sys2Proof.Machine.execLoop d delta g s
  | .fetch delta g => Sys2Proof.Machine.execFetch delta g s
  | .fetchReg a g => Sys2Proof.Machine.execFetchReg a g s
  | .stop g => Sys2Proof.Machine.execStop g s
  | .yield g => Sys2Proof.Machine.execYield g s
  | .safept mask => Sys2Proof.Machine.execSafept mask s
  | .rdsys d csr g => Sys2Proof.Machine.execRdsys d csr g s
  | .fenceCore g => Sys2Proof.Machine.execFenceCore g s
  | .id f d g => Sys2Proof.Machine.execId f d g s
  | .plog f d a b g => Sys2Proof.Machine.execPlog f d a b g s
  | .pmov d g => Sys2Proof.Machine.execPmov d g s
  | .pmovPw a g => Sys2Proof.Machine.execPmovPw a g s
  | .pset v d g => Sys2Proof.Machine.execPset v d g s
  | .alu f d a b g => Sys2Proof.Machine.execAlu f d a b g s
  | .shf f d a b g => Sys2Proof.Machine.execShf f d a b g s
  | .mul f d a b g => Sys2Proof.Machine.execMul f d a b g s
  | .div f d a b g => Sys2Proof.Machine.execDiv f d a b g s
  | .minmax f d a b g => Sys2Proof.Machine.execMinmax f d a b g s
  | .bitc f d a g => Sys2Proof.Machine.execBitc f d a g s
  | .bext d a off wid g => Sys2Proof.Machine.execBext d a off wid g s
  | .bextReg d a b g => Sys2Proof.Machine.execBextReg d a b g s
  | .bins d a off wid g => Sys2Proof.Machine.execBins d a off wid g s
  | .binsReg d a b g => Sys2Proof.Machine.execBinsReg d a b g s
  | .addi d a imm g => Sys2Proof.Machine.execAddi d a imm g s
  | .alui f d a imm g => Sys2Proof.Machine.execAlui f d a imm g s
  | .shfi f d a n g => Sys2Proof.Machine.execShfi f d a n g s
  | .movi d imm g => Sys2Proof.Machine.execMovi d imm g s
  | .movhi d imm g => Sys2Proof.Machine.execMovhi d imm g s
  | .sel d c a b g => Sys2Proof.Machine.execSel d c a b g s
  | .mkadr d a b g => Sys2Proof.Machine.execMkadr d a b g s
  | .mkrel d a b g => Sys2Proof.Machine.execMkrel d a b g s
  | .cmp f d a b g => Sys2Proof.Machine.execCmp f d a b g s
  | .cmpi f d a imm g => Sys2Proof.Machine.execCmpi f d a imm g s
  | .ld f d a imm g => Sys2Proof.Machine.execLd f d a imm g s
  | .st f d a imm g => Sys2Proof.Machine.execSt f d a imm g s
  | .ldl f d delta off g => Sys2Proof.Machine.execLdl f d delta off g s
  | .ldp d a imm g => Sys2Proof.Machine.execLdp d a imm g s
  | .stp d a imm g => Sys2Proof.Machine.execStp d a imm g s
  | .ldx f d a b g => Sys2Proof.Machine.execLdx f d a b g s
  | .stx f d a b g => Sys2Proof.Machine.execStx f d a b g s
  | .aadd o w4 d a b g => Sys2Proof.Machine.execAadd o w4 d a b g s
  | .alog f o w4 d a b g => Sys2Proof.Machine.execAlog f o w4 d a b g s
  | .amm f o w4 d a b g => Sys2Proof.Machine.execAmm f o w4 d a b g s
  | .aswp o w4 d a b g => Sys2Proof.Machine.execAswp o w4 d a b g s
  | .acas o w4 d a b c g => Sys2Proof.Machine.execAcas o w4 d a b c g s
  | .spawn d a b g => Sys2Proof.Machine.execSpawn d a b g s
  | .go a g => Sys2Proof.Machine.execGo a g s
  | .home g => Sys2Proof.Machine.execHome g s
  | .lsend d a slot g => Sys2Proof.Machine.execLsend d a slot g s
  | .lrecv d g => Sys2Proof.Machine.execLrecv d g s
  | .lpeek d g => Sys2Proof.Machine.execLpeek d g s
  | .csyncSig g => Sys2Proof.Machine.execCsyncSig g s
  | .csyncWait g => Sys2Proof.Machine.execCsyncWait g s
  | .post rel trig d a b tag g => Sys2Proof.Machine.execPost rel trig d a b tag g s
  | .recv acq nw d tag b g => Sys2Proof.Machine.execRecv acq nw d tag b g s
  | .bind d a tag g => Sys2Proof.Machine.execBind d a tag g s
  | .unbind d tag g => Sys2Proof.Machine.execUnbind d tag g s
  | .rebind d tag g => Sys2Proof.Machine.execRebind d tag g s
  | .exch l g => Sys2Proof.Machine.execExch l g s
  | .bar l g => Sys2Proof.Machine.execBar l g s
  | .barx op l d a g => Sys2Proof.Machine.execBarx op l d a g s
  | .barxNc op l d g => Sys2Proof.Machine.execBarxNc op l d g s
  | .bara l a g => Sys2Proof.Machine.execBara l a g s
  | .baraImm l code g => Sys2Proof.Machine.execBaraImm l code g s
  | .vadd t o d a b g => Sys2Proof.Machine.execVadd t o d a b g s
  | .vsub t o d a b g => Sys2Proof.Machine.execVsub t o d a b g s
  | .vmul t o d a b g => Sys2Proof.Machine.execVmul t o d a b g s
  | .vfma t d a b c g => Sys2Proof.Machine.execVfma t d a b c g s
  | .vmin t o d a b g => Sys2Proof.Machine.execVmin t o d a b g s
  | .vmax t o d a b g => Sys2Proof.Machine.execVmax t o d a b g s
  | .vabs t o d a g => Sys2Proof.Machine.execVabs t o d a g s
  | .vneg t o d a g => Sys2Proof.Machine.execVneg t o d a g s
  | .vlog f d a b g => Sys2Proof.Machine.execVlog f d a b g s
  | .vsh f t d a n g => Sys2Proof.Machine.execVsh f t d a n g s
  | .vcmp f t d a b g => Sys2Proof.Machine.execVcmp f t d a b g s
  | .vsel d c a b g => Sys2Proof.Machine.execVsel d c a b g s
  | .vdiv t d a b g => Sys2Proof.Machine.execVdiv t d a b g s
  | .vsqrt t d a g => Sys2Proof.Machine.execVsqrt t d a g s
  | .vmulh t u d a b g => Sys2Proof.Machine.execVmulh t u d a b g s
  | .vavg t u d a b g => Sys2Proof.Machine.execVavg t u d a b g s
  | .vcvt dt st d a h g => Sys2Proof.Machine.execVcvt dt st d a h g s
  | .pdec n dt d a g => Sys2Proof.Machine.execPdec n dt d a g s
  | .penc n st d a g => Sys2Proof.Machine.execPenc n st d a g s
  | .pload n a g => Sys2Proof.Machine.execPload n a g s
  | .vshuf t d a b g => Sys2Proof.Machine.execVshuf t d a b g s
  | .vrot t d a r g => Sys2Proof.Machine.execVrot t d a r g s
  | .vzip t mode d a b g => Sys2Proof.Machine.execVzip t mode d a b g s
  | .vred f t d a g => Sys2Proof.Machine.execVred f t d a g s
  | .vdot t d a b g => Sys2Proof.Machine.execVdot t d a b g s
  | .vld d a imm g => Sys2Proof.Machine.execVld d a imm g s
  | .vst d a imm g => Sys2Proof.Machine.execVst d a imm g s
  | .vmov d a g => Sys2Proof.Machine.execVmov d a g s
  | .vmovQm d a g => Sys2Proof.Machine.execVmovQm d a g s
  | .vmovMq d a g => Sys2Proof.Machine.execVmovMq d a g s
  | .vsplat t d a g => Sys2Proof.Machine.execVsplat t d a g s
  | .vlaneExt t d a k g => Sys2Proof.Machine.execVlaneExt t d a k g s
  | .vlaneIns t d a k g => Sys2Proof.Machine.execVlaneIns t d a k g s
  | .rep heads stride passes => Sys2Proof.Machine.execRep heads stride passes s
  | .vpack f d a g => Sys2Proof.Machine.execVpack f d a g s
  | .vunpk f d a g => Sys2Proof.Machine.execVunpk f d a g s
  | .ezmm clear d a b y g => Sys2Proof.Machine.execEzmm clear d a b y g s
  | .ezmms clear d a b y g => Sys2Proof.Machine.execEzmms clear d a b y g s
  | .ezring d a y g => Sys2Proof.Machine.execEzring d a y g s
  | .ezfmt d code pal sparse y g => Sys2Proof.Machine.execEzfmt d code pal sparse y g s
  | .ezpush d n y g => Sys2Proof.Machine.execEzpush d n y g s
  | .ezpop d n y g => Sys2Proof.Machine.execEzpop d n y g s
  | .ezqry d k g => Sys2Proof.Machine.execEzqry d k g s
  | .ezzld d a y g => Sys2Proof.Machine.execEzzld d a y g s
  | .ezzst d a mode y g => Sys2Proof.Machine.execEzzst d a mode y g s
  | .ezzclr d y g => Sys2Proof.Machine.execEzzclr d y g s
  | .ezwf y g => Sys2Proof.Machine.execEzwf y g s
  | .ezchk on y g => Sys2Proof.Machine.execEzchk on y g s
  | .copy q a b c y g => Sys2Proof.Machine.execCopy q a b c y g s
  | .copy2 q a y g => Sys2Proof.Machine.execCopy2 q a y g s
  | .tload q a pol y g => Sys2Proof.Machine.execTload q a pol y g s
  | .join mask g => Sys2Proof.Machine.execJoin mask g s
  | .drain p g => Sys2Proof.Machine.execDrain p g s
  | .cqst d g => Sys2Proof.Machine.execCqst d g s
  | .semw d thr g => Sys2Proof.Machine.execSemw d thr g s
  | .sems d inc g => Sys2Proof.Machine.execSems d inc g s
  | .semrd d a g => Sys2Proof.Machine.execSemrd d a g s
  | .semini d a g => Sys2Proof.Machine.execSemini d a g s
  | .dtBcast rd rs1 rs2 => Sys2Proof.Machine.execDtBcast rd rs1 rs2 s
  | .dtStart rd rs1 rs2 => Sys2Proof.Machine.execDtStart rd rs1 rs2 s
  | .dtMtstat rd rs1 => Sys2Proof.Machine.execDtMtstat rd rs1 s
  | .dtMtkill rd rs1 => Sys2Proof.Machine.execDtMtkill rd rs1 s
  | .dtMtwait rd rs1 => Sys2Proof.Machine.execDtMtwait rd rs1 s
  | .dtMtgo rd rs1 => Sys2Proof.Machine.execDtMtgo rd rs1 s
  | .dtCbar => Sys2Proof.Machine.execDtCbar s
  | .dtLaunch rd rs1 => Sys2Proof.Machine.execDtLaunch rd rs1 s
  | .dtLaunchW rd rs1 => Sys2Proof.Machine.execDtLaunchW rd rs1 s
  | .dtTrigger => Sys2Proof.Machine.execDtTrigger s
  | .dtJoink rd rs1 => Sys2Proof.Machine.execDtJoink rd rs1 s
  | .dtPark rd rs1 => Sys2Proof.Machine.execDtPark rd rs1 s
  | .dtResume rs1 => Sys2Proof.Machine.execDtResume rs1 s
  | .dtLmigr rd rs1 rs2 => Sys2Proof.Machine.execDtLmigr rd rs1 rs2 s
  | .dtCaps rd rs1 => Sys2Proof.Machine.execDtCaps rd rs1 s
  | .dtHarvest rd rs1 => Sys2Proof.Machine.execDtHarvest rd rs1 s
  | .dtNxset nx => Sys2Proof.Machine.execDtNxset nx s
  | .controlThreadInstruction i0 => Sys2Proof.Machine.execControlThreadInstruction i0 s
  | .nopq => Sys2Proof.Machine.execNopq s
  | .semwait c val addr => Sys2Proof.Machine.execSemwait c val addr s
  | .semsig inc addr => Sys2Proof.Machine.execSemsig inc addr s
  | .semset val addr => Sys2Proof.Machine.execSemset val addr s
  | .klaunch sem rec => Sys2Proof.Machine.execKlaunch sem rec s
  | .kcopy desc => Sys2Proof.Machine.execKcopy desc s
  | .qbar bid n1 => Sys2Proof.Machine.execQbar bid n1 s
  | .intr entry => Sys2Proof.Machine.execIntr entry s
  | .jump target => Sys2Proof.Machine.execJump target s
  | .callq target => Sys2Proof.Machine.execCallq target s
  | .retq => Sys2Proof.Machine.execRetq s
  | .waitidle => Sys2Proof.Machine.execWaitidle s
  | .stamp done addr => Sys2Proof.Machine.execStamp done addr s
  | .fenceq => Sys2Proof.Machine.execFenceq s
  | .lineEntry t => Sys2Proof.Machine.execLineEntry t s
  | .lineEnd t => Sys2Proof.Machine.execLineEnd t s
  | .runBudgetReached t => Sys2Proof.Machine.execRunBudgetReached t s
  | .pipeIdleWake t => Sys2Proof.Machine.execPipeIdleWake t s
  | .waitConditionHolds t slot => Sys2Proof.Machine.execWaitConditionHolds t slot s
  | .sequencerIssue t => Sys2Proof.Machine.execSequencerIssue t s
  | .storeBufferLand t slot idx => Sys2Proof.Machine.execStoreBufferLand t slot idx s
  | .baleAccepted t slot => Sys2Proof.Machine.execBaleAccepted t slot s
  | .baleArrival n => Sys2Proof.Machine.execBaleArrival n s
  | .baleAdmission t => Sys2Proof.Machine.execBaleAdmission t s
  | .spawnCreditArrival n => Sys2Proof.Machine.execSpawnCreditArrival n s
  | .messageArrival n => Sys2Proof.Machine.execMessageArrival n s
  | .triggeredMessageArrival n => Sys2Proof.Machine.execTriggeredMessageArrival n s
  | .returnedPacketArrival n => Sys2Proof.Machine.execReturnedPacketArrival n s
  | .postReleaseSend t idx => Sys2Proof.Machine.execPostReleaseSend t idx s
  | .landingGrant t => Sys2Proof.Machine.execLandingGrant t s
  | .landingRetry t => Sys2Proof.Machine.execLandingRetry t s
  | .landingTimeout t => Sys2Proof.Machine.execLandingTimeout t s
  | .moveQuiescence t easelDone => Sys2Proof.Machine.execMoveQuiescence t easelDone s
  | .moveTransferComplete t => Sys2Proof.Machine.execMoveTransferComplete t s
  | .markerArrival t => Sys2Proof.Machine.execMarkerArrival t s
  | .saveQuiescence t easelDone => Sys2Proof.Machine.execSaveQuiescence t easelDone s
  | .saveFrameWritten t => Sys2Proof.Machine.execSaveFrameWritten t s
  | .taskResume t => Sys2Proof.Machine.execTaskResume t s
  | .savedSenderResume t => Sys2Proof.Machine.execSavedSenderResume t s
  | .savedSenderResave t => Sys2Proof.Machine.execSavedSenderResave t s
  | .commandBegin t q => Sys2Proof.Machine.execCommandBegin t q s
  | .wordLanded t num idx => Sys2Proof.Machine.execWordLanded t num idx s
  | .commandComplete t q => Sys2Proof.Machine.execCommandComplete t q s
  | .copyLeaseExpiry t num idx => Sys2Proof.Machine.execCopyLeaseExpiry t num idx s
  | .tloadDeadline t num => Sys2Proof.Machine.execTloadDeadline t num s
  | .ctInterrupt t => Sys2Proof.Machine.execCtInterrupt t s
  | .timerInterrupt t => Sys2Proof.Machine.execTimerInterrupt t s
  | .cbarComplete t => Sys2Proof.Machine.execCbarComplete t s
  | .mtwaitReturn t => Sys2Proof.Machine.execMtwaitReturn t s
  | .joinkReturn t => Sys2Proof.Machine.execJoinkReturn t s
  | .poolEntryFreed => Sys2Proof.Machine.execPoolEntryFreed s
  | .texit t => Sys2Proof.Machine.execTexit t s
  | .tqpost t v => Sys2Proof.Machine.execTqpost t v s
  | .grpctlRearm t level => Sys2Proof.Machine.execGrpctlRearm t level s
  | .grpctlRollback t => Sys2Proof.Machine.execGrpctlRollback t s
  | .grpctlKill t => Sys2Proof.Machine.execGrpctlKill t s
  | .elfaultClear t => Sys2Proof.Machine.execElfaultClear t s
  | .mtfpendClear t v => Sys2Proof.Machine.execMtfpendClear t v s
  | .ctsyncGo t v => Sys2Proof.Machine.execCtsyncGo t v s
  | .lpareaWrite t i0 v => Sys2Proof.Machine.execLpareaWrite t i0 v s
  | .registerWrite r v => Sys2Proof.Machine.execRegisterWrite r v s
  | .dependenceMet c h => Sys2Proof.Machine.execDependenceMet c h s
  | .groupPlacement => Sys2Proof.Machine.execGroupPlacement s
  | .placementStarvation c h g => Sys2Proof.Machine.execPlacementStarvation c h g s
  | .masterElection => Sys2Proof.Machine.execMasterElection s
  | .barrierArrivalSend t level => Sys2Proof.Machine.execBarrierArrivalSend t level s
  | .barrierArrival n => Sys2Proof.Machine.execBarrierArrival n s
  | .watchdogExpiry key => Sys2Proof.Machine.execWatchdogExpiry key s
  | .nonrestartableMark n => Sys2Proof.Machine.execNonrestartableMark n s
  | .rollbackTrigger n => Sys2Proof.Machine.execRollbackTrigger n s
  | .rollbackRestore t => Sys2Proof.Machine.execRollbackRestore t s
  | .rollbackRendezvous gid => Sys2Proof.Machine.execRollbackRendezvous gid s
  | .podArrivalForward key => Sys2Proof.Machine.execPodArrivalForward key s
  | .podFrameArrival f => Sys2Proof.Machine.execPodFrameArrival f s
  | .podFrameResend n => Sys2Proof.Machine.execPodFrameResend n s
  | .contextCreate c => Sys2Proof.Machine.execContextCreate c s
  | .contextAdmit c => Sys2Proof.Machine.execContextAdmit c s
  | .contextEvict c => Sys2Proof.Machine.execContextEvict c s
  | .contextStop c => Sys2Proof.Machine.execContextStop c s
  | .contextDestroy c => Sys2Proof.Machine.execContextDestroy c s
  | .evictionComplete c => Sys2Proof.Machine.execEvictionComplete c s
  | .destroyComplete c => Sys2Proof.Machine.execDestroyComplete c s
  | .queueCreate q => Sys2Proof.Machine.execQueueCreate q s
  | .queueResume q => Sys2Proof.Machine.execQueueResume q s
  | .queueDestroy q => Sys2Proof.Machine.execQueueDestroy q s
  | .queueDoorbell q wptr => Sys2Proof.Machine.execQueueDoorbell q wptr s
  | .recordService h => Sys2Proof.Machine.execRecordService h s
  | .semwaitReread q => Sys2Proof.Machine.execSemwaitReread q s
  | .localWake q => Sys2Proof.Machine.execLocalWake q s
  | .kcopyComplete q n => Sys2Proof.Machine.execKcopyComplete q n s
  | .shoot c => Sys2Proof.Machine.execShoot c s
  | .stage c => Sys2Proof.Machine.execStage c s
  | .pageEvict c => Sys2Proof.Machine.execPageEvict c s
  | .ephset c => Sys2Proof.Machine.execEphset c s
  | .harvest c => Sys2Proof.Machine.execHarvest c s
  | .shootdownComplete n => Sys2Proof.Machine.execShootdownComplete n s
  | .leaseExpiry n => Sys2Proof.Machine.execLeaseExpiry n s
  | .stagingDone page => Sys2Proof.Machine.execStagingDone page s
  | .writebackDone page => Sys2Proof.Machine.execWritebackDone page s
  | .ephemeralDeadline page => Sys2Proof.Machine.execEphemeralDeadline page s
  | .podMoveRequest page requester => Sys2Proof.Machine.execPodMoveRequest page requester s
  | .podSettleNotice page => Sys2Proof.Machine.execPodSettleNotice page s
  | .podSettleEnd page => Sys2Proof.Machine.execPodSettleEnd page s
  | .flitReceive link fromLow flit => Sys2Proof.Machine.execFlitReceive link fromLow flit s
  | .replayTimeout link fromLow ch e => Sys2Proof.Machine.execReplayTimeout link fromLow ch e s
  | .sidebandError link => Sys2Proof.Machine.execSidebandError link s
  | .linkTrained link half repair => Sys2Proof.Machine.execLinkTrained link half repair s
  | .trainingFailed link => Sys2Proof.Machine.execTrainingFailed link s
  | .retrainTimeout link => Sys2Proof.Machine.execRetrainTimeout link s
  | .linkQuiesced link => Sys2Proof.Machine.execLinkQuiesced link s
  | .dieFence d => Sys2Proof.Machine.execDieFence d s
  | .warmReset d => Sys2Proof.Machine.execWarmReset d s
  | .fenceInstant d => Sys2Proof.Machine.execFenceInstant d s
  | .dieSpillDone => Sys2Proof.Machine.execDieSpillDone s
  | .dieResetDone => Sys2Proof.Machine.execDieResetDone s
  | .dieRestoreDone => Sys2Proof.Machine.execDieRestoreDone s
  | .dieReadmitDone => Sys2Proof.Machine.execDieReadmitDone s
  | .pwrcapWrite v => Sys2Proof.Machine.execPwrcapWrite v s
  | .pstepChange pins => Sys2Proof.Machine.execPstepChange pins s
  | .throttleStepAdd draw => Sys2Proof.Machine.execThrottleStepAdd draw s
  | .throttleStepRemove predicted => Sys2Proof.Machine.execThrottleStepRemove predicted s
  | .thermalCapAdjust tj => Sys2Proof.Machine.execThermalCapAdjust tj s
  | .thermalTrip tj => Sys2Proof.Machine.execThermalTrip tj s
  | .pfailAssert => Sys2Proof.Machine.execPfailAssert s
  | .pfImageSealed held => Sys2Proof.Machine.execPfImageSealed held s
  | .pfailDeassert => Sys2Proof.Machine.execPfailDeassert s
  | .pfcopy off => Sys2Proof.Machine.execPfcopy off s
  | .pfcopyDone => Sys2Proof.Machine.execPfcopyDone s
  | .coldReset => Sys2Proof.Machine.execColdReset s
  | .bootok => Sys2Proof.Machine.execBootok s
  | .bootokTimeout => Sys2Proof.Machine.execBootokTimeout s
  | .uncorrectableError key => Sys2Proof.Machine.execUncorrectableError key s
  | .junctionAboveWarn tj => Sys2Proof.Machine.execJunctionAboveWarn tj s
  | .cxlMemRequest op => Sys2Proof.Machine.execCxlMemRequest op s
  | .spdmRequest code => Sys2Proof.Machine.execSpdmRequest code s
  | .sendBufferEntrySent t idx => Sys2Proof.Machine.execSendBufferEntrySent t idx s
  | .recordRetirement q => Sys2Proof.Machine.execRecordRetirement q s
  | .harvestComplete n => Sys2Proof.Machine.execHarvestComplete n s
  | .podMoveComplete page => Sys2Proof.Machine.execPodMoveComplete page s

end Sys2Proof.Machine
end

