-- ==== Sys2Proof/Machine/Time.lean ====
section
/-! DEFINITION. Package time: how far it passes at once, what is due when it has passed, and the choices that accesses of many locations leave open meanwhile (R5, R48, R64, R146, R258, R320, R323, R381, R401, R439). -/
namespace Sys2Proof.Machine

/-- The cycle counters of the cores that run a task advance (R146). -/
def Task.addCycles (k : Task) (cy : Nat) : Task :=
  if k.onCore then
    k.updArch (fun a => a.updCtl (fun c => { c with s := { c.s with cycle := c.s.cycle + BitVec.ofNat 64 cy } }))
  else k

/-- The deadline of a begun TLOAD (R258). -/
def Cmd.due (c : Cmd) : List Nat :=
  match c.op with
  | .tload d => if c.st = .begun then [d.deadline] else []
  | _ => []

/-- When a harvest must have reached the tables (R401). -/
def PgJob.due : PgJob → List Nat
  | .harvest _ _ _ _ n => [n]
  | _ => []

/-- When a fence must have taken effect, an election have ended, and a step of a warm reset (R351, R426, R427). -/
def Dies.due (d : Dies) : List Nat := d.fencing.map (·.2) ++ (if d.electing then [d.electBy] else []) ++ d.stepBy.toList

/-- Fences and elections whose time has come (R351, R426). -/
def State.fencesDue (s : State) : State :=
  let s := if s.dies.electing ∧ s.dies.electBy ≤ s.now then s.elect else s
  ((s.dies.fencing.filter (fun e => decide (e.2 ≤ s.now))).map (·.1)).foldl (fun (s : State) d => s.fence d) s

/-- When the host's time for BOOTOK has run out (R436). -/
def Boot.due (b : Boot) : List Nat := if b.waiting then (b.okBy.map (· + 1)).toList else []

/-- When a barrier watchdog that counts runs out (R381). -/
def State.dogDue (s : State) (i : Inst) : List Nat :=
  if s.counts i && decide ((i.st = .gathering ∨ i.st = .draining) ∧ i.wdCount < i.wdLimit) then [s.now + (i.wdLimit - i.wdCount)] else []

/-- Watchdogs that have run out expire (R372, R381). -/
def State.dogsOut (s : State) : State :=
  ((s.insts.filter (fun e => e.2.expired)).map (·.1)).foldl (fun (s : State) k => s.expire k) s

/-- Times at which the module itself does something: no turn passes over one. -/
def State.dues (s : State) : List Nat :=
  s.dies.due ++
  s.tasks.flatMap (fun e => e.2.due ++ e.2.arch.eng.cmds.flatMap Cmd.due) ++ s.queues.flatMap (fun e => e.2.wait.due) ++
    s.pg.jobs.flatMap PgJob.due ++ s.bt.due ++ s.pw.due ++ s.lk.due ++ s.insts.flatMap (fun e => s.dogDue e.2)

/-- The time after `pt` more, or the first time before it at which something is due. -/
def State.later (s : State) (pt : Nat) : Nat :=
  (s.dues.filter (fun n => decide (s.now < n))).foldl min (s.now + pt)

/-- The guard, the address and the bytes of a head that reads several locations at once (R196, R234, R236, R253, R257). -/
def manyHead (x : Slot) : Instr → Option (Guard × Nat × Nat)
  | .ldp _ a imm g => some (g, x.ea a imm, 16)
  | .vld _ a imm g => some (g, x.ea a imm, 16)
  | .copy2 _ a _ g => some (g, (x.getM a).toNat, 32)
  | .tload _ a _ _ g => some (g, (x.getM a).toNat, 64)
  | .pload _ a g => some (g, (x.getM a).toNat, 1024)
  | _ => none

/-- The guard of a RECV (R279). -/
def recvGuard : Instr → Option Guard
  | .recv _ _ _ _ _ g => some g
  | _ => none

/-- The head that a task's pipe has in hand may read one of its locations ahead of the others; ahead of a RECV the slot may read a location of its column that a later head loads, and one of level memory that its next copy reads (R64, R77, R93). -/
def State.pairAhead (s : State) (t : Nat) : State :=
  match s.pipeAct t with
  | .head i h =>
    match manyHead (s.slot t i) h with
    | some (g, ea, n) =>
      let s' : State := { s with fTask := t, fSlot := i }
      if (s.task t).onCore && (s.slot t i).holds g && !s'.stalled then s'.readAhead ea n else s
    | none =>
      match recvGuard h with
      | some g =>
        let s' : State := { s with fTask := t, fSlot := i }
        if (s.task t).onCore && (s.slot t i).holds g then s'.readAheadAny.readFar else s
      | none => s
  | _ => s

/-- An instruction of the control thread that reads several locations of the column at once: a launch, a resumption of a fibre, a write of TQPOST (R165, R171, R304). -/
def readsRecord : Instr → Bool
  | .dtLaunch _ _ => true
  | .dtLaunchW _ _ => true
  | .dtResume _ => true
  | .controlThreadInstruction (.csr _ _ n _) => decide (n = 0x5D6)
  | _ => false

/-- The control thread of a task is at such an instruction. -/
def State.atRecord (s : State) (t : Nat) : Bool :=
  s.ctActive t && !(s.ctl t).dflt && decide ((s.ctl t).wait = .none) &&
    (match (s.ctFetch t).2 with
     | .ok w => (match Decode.decodeCt w with | some (i, _) => readsRecord i | none => false)
     | .error _ => false)

/-- One of the locations of a record may be read ahead of the others (R64). -/
def State.recordAhead (s : State) (t : Nat) : State :=
  if !s.atRecord t then s
  else
    let i := (Config.freeWord s.free).toNat % (Config.undoBase / 8 + 1)
    let s := s.draw
    let o := 8 * (i - 1)
    if i = 0 || (SMap.find (s.ctl t).ahead o).isSome || (s.ctFault t .rd false true o 8).isSome then s
    else s.updCtl t (fun c => { c with ahead := SMap.put c.ahead o (BitVec.ofNat 64 (s.ctRead t o 8)) })

/-- What is due at the time that has come: the thermal cap, watchdogs of barriers, TLOAD deadlines, scheduled reads and wakes of semaphores, harvests, saved senders, traps without a grant, elections and fences; the bound of a step of a warm reset, the end of the time for BOOTOK, and acknowledgements of flits; then the channels of the links and the ports send. Steps of the throttle and rewrites of records are due also in the power-fail trap, and nothing else but its end (R48, R258, R320, R351, R381, R401, R419, R421, R426, R427, R429, R431 to R433, R435, R436, R439). -/
def State.whatIsDue (s : State) : State :=
  let s := s.throttleMore.recordsLand
  if s.pw.trap.isSome then s.trapEnds else s.thermalMove.dogsOut.tloadsAll.semReads.dueHarvests.trapsOut.senders.fencesDue.stepOut.bootLate.acksDue.saidAgain.pump

/-- Package time passes, at most to the next time at which something is due: counters and watchdogs count, and what is due is done (R5, R146, R381, R439). Meanwhile one location of an access to several, and one word of a KCOPY, may move ahead of the rest (R64, R323). -/
def State.tick (s : State) (pt cy : Nat) : State :=
  let s := s.enableLinks.noteWaits
  let n := s.later pt
  let s := s.countDogs (n - s.now)
  let s := ({ s with now := n, tasks := s.tasks.map (fun e => (e.1, e.2.addCycles cy)) } : State).noteWaits
  (s.tasks.foldl (fun (s : State) e => (s.pairAhead e.1).recordAhead e.1) s.whatIsDue).kcopyDrift

end Sys2Proof.Machine
end

