-- ==== Sys2Proof/Machine/Turns.lean ====
section
/-! DEFINITION. The four kinds of turn: the passing of package time, the issue pipe of a task, the control thread of a task, and an event (R5, R31 to R36, R126, R145 to R150, log 5). -/
namespace Sys2Proof.Machine

/-! ### The issue pipe -/

/-- The task and slot whose head executes. -/
def State.focus (s : State) (t i : Nat) : State := { s with fTask := t, fSlot := i }

/-- A turn of the issue pipe of task `t`: it runs on whatever the core's task still executes (R33, R35, R126). -/
def State.pipe (s : State) (t : Nat) : Host.Outcome State Fault Refusal :=
  if !(s.task t).onCore || s.bt.halted then .next s
  else
    match s.pipeAct t with
    | .head i h => exec h (s.focus t i)
    | .bad i => .next (s.slotFault t i 0x01 0)
    | .event e => exec e s

/-! ### The control thread -/

/-- The control thread fetches and executes: its task runs, or comes to quiescence and the thread has not reached a boundary where it stops; it does not wait, no interrupt comes first, and no trap of the power is in progress (R150, R173, R299, R433). -/
def State.ctRuns (s : State) (t : Nat) : Bool :=
  s.ctActive t && !s.intrFirst t && s.pw.trap.isNone && !s.bt.halted && decide ((s.ctl t).wait = .none) &&
    (decide ((s.task t).st = .running) || !(s.task t).ctRests)

/-- The instruction at the control thread's pc executes, or its fetch raises its exception (R145, R147, R148). -/
def State.ctExec (s : State) (t : Nat) : Host.Outcome State Fault Refusal :=
  let r := s.ctFetch t
  match r.2 with
  | .error e => .next (r.1.ctTrap t e.1 (BitVec.ofNat 64 e.2))
  | .ok w =>
    let s : State := { r.1 with fTask := t, fWord := w }
    match Decode.decodeCt w with
    | some (i, n) => exec i { s with fLen := n }
    | none => .next (s.rvIllegal (isCustom w))

/-- A turn of the control thread of task `t` (R145, R340). -/
def State.control (s : State) (t : Nat) : Host.Outcome State Fault Refusal :=
  if !s.ctRuns t then .next s
  else if (s.ctl t).dfltStart || (s.ctl t).dfltWait then .next (s.dfltTurn t)
  else s.ctExec t

/-! ### Events -/

/-- A constructor that stands for an event and not for an encoded instruction. -/
def isEvent (i : Instr) : Bool := decide ((Instr.lineEntry 0).ctorIdx ≤ i.ctorIdx)

/-- An event happens, unless the module's state keeps it from acting; only events happen by themselves (R433, R434, R436). -/
def State.happen (s : State) (i : Instr) : Host.Outcome State Fault Refusal :=
  if isEvent i && s.listens i then exec i s else .next s

/-! ### Turns -/

/-- The turn that comes next, and the state without it (log 5). -/
def State.nextTurn (s : State) : Turn × State :=
  match s.turns with
  | [] => (Config.freeTurn s.free, s.draw)
  | u :: us => (u, { s with turns := us })

/-- One turn. -/
def State.turn (s : State) (u : Turn) : Host.Outcome State Fault Refusal :=
  match u with
  | .event i => s.happen i
  | .pipe t => s.pipe t
  | .control t => s.control t
  | .tick pt cy => .next (s.tick pt cy)

/-- A module that the power-fail trap has stopped makes no turn but a cold reset (R433, R434). -/
def State.oneTurn (s : State) (u : Turn) : Host.Outcome State Fault Refusal :=
  if s.stopped && decide (u ≠ .event .coldReset) then .fault .stopped else s.turn u

/-! ### Placing one instruction -/

/-- The head slot, tail halfwords and header of a line that holds one head at slot 1 (R117, R118): TYPE 1, HEADS 1, SP where the head is SAFEPT, and the tail halfwords from slot 31 downward, the first one lowest. -/
def oneHeadLine (head tail tc : Nat) : List Half :=
  let z : List Half := List.replicate 32 0
  let l := (z.set 0 (if head / 512 = 9 then 0x10A0 else 0x1080)).set 1 (BitVec.ofNat 16 head)
  (List.range tc).foldl (fun (l : List Half) k => l.set (lineTop l + 1 - tc + k) (BitVec.ofNat 16 (tail >>> (16 * k)))) l

/-- A task on core (0, 0, 0) with the whole column open to its microthreads (R56). -/
def Task.placed : Task :=
  { Task.blank with
    st := .running
    arch := Arch.reset.updD (fun d => { d with lpa := vset d.lpa 0 lpareaStart }) }

/-- A slot RUNNING at the first head of a line that it has entered. -/
def Slot.inLine (img : List Half) : Slot :=
  { Slot.reset with st := .running, ind := true, pc := pcAt 0 1, budget := 1,
                    line := { LineSt.none with img := some img, entered := true } }

/-- One more task, under the next number. -/
def State.addTask (s : State) (k : Task) : State := { s.setTask (s.ids + 1) k with ids := s.ids + 1 }

/-- A head is what the pipe of a new task issues next. -/
def State.placeHead (s : State) (head tail tc : Nat) : State :=
  let s : State := s.addTask (Task.placed.updArch (fun a => a.setSlot 0 (Slot.inLine (oneHeadLine head tail tc))))
  { s with turns := [.pipe s.ids] }

/-- Tables that map page 0 of a context, and its frame (R392, R393): four levels, then the page. -/
def tableRoot : Nat := 0x100_0000
def codeFrame : Nat := 0x121_0000
def State.mapPage (s : State) : State :=
  (((s.write tableRoot (0x120_0000 + 1) 8).write 0x120_0000 (0x120_1000 + 1) 8).write 0x120_1000 (0x120_2000 + 1) 8).write
    0x120_2000 (codeFrame + 0x89) 8

/-- A word is what the control thread of a new task of context 0 executes next, in S-mode. -/
def State.placeCtWord (s : State) (w : Nat) : State :=
  let s := (s.mapPage.write codeFrame w 4).updCtx 0 (fun c => { c with st := .resident, ptroot := tableRoot })
  let s := s.addTask (Task.placed.updArch (fun a => a.updCtl (fun c => { c with mode := .s })))
  { s with turns := [.control s.ids] }

/-- Where queue 0 reads its record: host memory (R310, R316). -/
def recordPlace : Nat := 0x1000

/-- A record is what the queue processor of queue 0 executes next. -/
def State.placeRecord (s : State) (w : Nat) : State :=
  let s := (s.write (hostKey recordPlace) w 16).updCtx 0 (fun c => { c with st := .resident })
  let q : Queue := { Queue.blank with st := .active, rbase := 2 ^ 63 + recordPlace, wptr := 1 }
  { s with queues := [(0, q)], turns := [.event (.recordService 0)] }

/-- The instruction of a table word, placed where the next step fetches it. -/
def State.placeTableWord (s : State) (nbits w : Nat) : State :=
  if 64 < nbits then s.placeRecord w
  else if nbits = 32 ∧ isDtWord w then s.placeCtWord w
  else s.placeHead (tableHead nbits w).1 (tableHead nbits w).2 (nbits / 16 - 1)

end Sys2Proof.Machine
end

