-- ==== Sys2Proof/Safety.lean ====
section
/-! DEFINITION. What counts as a safe run, and the words that claims use: what a head changes and what it leaves as it was. -/
namespace Sys2Proof.Machine

/-! ### Safe runs -/

/-- The state after `n` steps, where no step stops. -/
def State.after (s : State) : Nat → Option State
  | 0 => some s
  | n + 1 => match step s with | .next t => t.after n | .fault _ => none | .refused _ => none

/-- A run is safe while no step of it stops. -/
def State.safeFor (s : State) (n : Nat) : Prop := (s.after n).isSome = true

/-- The lists that hold bytes and damage are canonical, so that equal contents are equal data. -/
def State.canonical (s : State) : Prop := Memory.wf s.mem = true ∧ SMap.wf Poison.none s.poison = true

/-! ### Frames of heads -/

/-- No byte of any memory reads differently. -/
def sameBytes (s t : State) : Prop := ∀ k, t.readByte k = s.readByte k

/-- Everything outside the executing slot is as it was: other slots, tasks, special registers, engines, memory. -/
def onlySlot (s t : State) : Prop := t = s.updCur (fun _ => t.cur) ∧ sameBytes s t

/-- State, mode, identity and link inbox of a slot. -/
def keepsSelf (x y : Slot) : Prop :=
  y.st = x.st ∧ y.wr = x.wr ∧ y.ind = x.ind ∧ y.id = x.id ∧ y.inbox = x.inbox ∧ y.kill = x.kill ∧ y.travel = x.travel ∧
    y.quiet = x.quiet

/-- What every head that completes without a store leaves in its slot. -/
def keepsRest (x y : Slot) : Prop := keepsSelf x y ∧ y.sb = x.sb

/-- The registers of a slot. -/
def keepsRegs (x y : Slot) : Prop := y.m = x.m ∧ y.q = x.q ∧ y.pw = x.pw

/-- The slot goes on to the next head. -/
def advances (x y : Slot) : Prop := y.line.next = x.line.next + 1 ∧ y.line.img = x.line.img ∧ y.line.arrived = false

/-- Registers of a slot but m register `d`. -/
def keepsRegsBut (d : Reg) (x y : Slot) : Prop := (∀ r, r ≠ d → y.getM r = x.getM r) ∧ y.q = x.q ∧ y.pw = x.pw

/-- The head completes with `v` in m register `d` and changes nothing else. -/
def writesM (s t : State) (d : Reg) (v : Word) : Prop :=
  t.cur.getM d = v ∧ keepsRegsBut d s.cur t.cur ∧ keepsRest s.cur t.cur ∧ t.cur.budget = s.cur.budget ∧
    advances s.cur t.cur ∧ t.cur.line.target = s.cur.line.target ∧ onlySlot s t

/-- The head completes with `v` in predicate `p` and changes nothing else. -/
def writesP (s t : State) (p : Reg) (v : Bool) : Prop :=
  t.cur.getP p = v ∧ (∀ r, r ≠ p → t.cur.getP r = s.cur.getP r) ∧ t.cur.m = s.cur.m ∧ t.cur.q = s.cur.q ∧
    keepsRest s.cur t.cur ∧ advances s.cur t.cur ∧ onlySlot s t

/-- The head completes with `v` in q register `d` and changes nothing else. -/
def writesQ (s t : State) (d : Reg) (v : Quad) : Prop :=
  t.cur.getQ d = v ∧ (∀ r, r ≠ d → t.cur.getQ r = s.cur.getQ r) ∧ t.cur.m = s.cur.m ∧ t.cur.pw = s.cur.pw ∧
    keepsRest s.cur t.cur ∧ advances s.cur t.cur ∧ onlySlot s t

/-- The head completes and writes no register. -/
def writesNothing (s t : State) : Prop :=
  t.cur.m = s.cur.m ∧ t.cur.q = s.cur.q ∧ t.cur.pw = s.cur.pw ∧ keepsRest s.cur t.cur ∧ advances s.cur t.cur ∧ onlySlot s t

/-- A head executes: its slot is one of the ten, the encoding is legal and its guard holds. -/
def ready (s : State) (i : Instr) (g : Guard) : Prop :=
  s.fSlot < 10 ∧ WellFormed.ok i = true ∧ s.cur.holds g = true

/-- Instruction `i` completes: it answers a next state, of which `P` says what it holds. -/
def completes (i : Instr) (s : State) (P : State → Prop) : Prop := ∃ t, exec i s = .next t ∧ P t

/-- Instruction `i` answers the next state `t`. -/
def runs (i : Instr) (s t : State) : Prop := exec i s = .next t

/-! ### Loads, stores and atomics (R196 to R202) -/

/-- The reference is to `n` bytes at an offset of the own column, protection allows it, and no copy that a FENCE.CORE of the slot waits for is in its way (R70). -/
def refersTo (s : State) (ea n : Nat) (need : Need) (off : Nat) : Prop :=
  s.target ea n = .here off ∧ s.me.arch.denied need off n = false ∧ s.me.arch.fenceStalls s.cur = false

/-- No damaged location is read. -/
def undamaged (s : State) (off n : Nat) : Prop := s.colPoison s.fTask s.cur.sb off n = none

/-- A byte of the column as the executing slot sees it: its own stores before memory (R68). -/
def sees (s : State) (off : Nat) : Byte := sbByte s.cur.sb (s.readByte (s.colKey s.fTask off)) off

/-- A byte as a load of the executing slot reads it: as it was, where its location has been read ahead, else as the slot sees it (R64, R77). -/
def readsAt (s : State) (a : Nat) : Byte :=
  match SMap.find s.cur.part (a / 8 * 8) with
  | some v => BitVec.ofNat 8 (v.toNat / 256 ^ (a % 8))
  | none => sees s a

/-- A load in the location of `off` meets no damage: the location has been read ahead, or its bytes are undamaged. -/
def unspoilt (s : State) (off n : Nat) : Prop := (SMap.find s.cur.part (off / 8 * 8)).isSome = true ∨ undamaged s off n

/-- The register value of a load from the bytes it reads, lowest first, zero- or sign-extended (R195, R196). -/
def loadSays (f : LdW) (b : Nat → Byte) (r : Word) : Prop :=
  (∀ j < ldBytes f, ∀ k < 8, r.getLsbD (8 * j + k) = (b j).getLsbD k) ∧
  ∀ k < 64, 8 * ldBytes f ≤ k → r.getLsbD k = (ldSigned f && (b (ldBytes f - 1)).getLsbD 7)

/-- The slot sees the `n` bytes of `v` at `off` and everything else as before; memory changes when the store lands (R65, R68). -/
def storesBytes (s t : State) (off n v : Nat) : Prop :=
  (∀ j < n, (sees t (off + j)).toNat = v / 256 ^ j % 256) ∧
  (∀ a, a < off ∨ off + n ≤ a → sees t a = sees s a) ∧ sameBytes s t ∧
  keepsRegs s.cur t.cur ∧ keepsSelf s.cur t.cur ∧ advances s.cur t.cur ∧
  t = (s.updArch s.fTask (fun a => { a with serial := (t.arch s.fTask).serial })).updCur (fun _ => t.cur)

/-- A byte of the undo log of task `t`'s core (R383). -/
def inUndoLog (s : State) (t k : Nat) : Prop :=
  s.colKey t Config.undoBase ≤ k ∧ k < s.colKey t Config.undoBase + 64 * Config.undoLines

/-- Nothing but the executing slot's core changes, and of it neither other slots nor the control thread's registers. -/
def keepsOthers (s t : State) : Prop :=
  (∀ u i, ¬(u = s.fTask ∧ i = s.fSlot) → t.slot u i = s.slot u i) ∧
  ∀ u, (t.ctl u).x = (s.ctl u).x ∧ (t.ctl u).pc = (s.ctl u).pc ∧ (t.ctl u).mode = (s.ctl u).mode ∧
    (t.ctl u).s = (s.ctl u).s ∧ (t.ctl u).d = (s.ctl u).d

/-- A read-modify-write of `n` bytes at `off`: the old value goes to D, `new` to memory, and no other byte changes but those of the undo log (R201, R383). -/
def rmw (s t : State) (off n : Nat) (d : Reg) (new : Nat → Option Nat) : Prop :=
  let old := s.read (s.colKey s.fTask off) n
  (t.cur.getM d).toNat = old ∧
  t.read (s.colKey s.fTask off) n = (match new old with | some v => v % 256 ^ n | none => old) ∧
  (∀ k, (k < s.colKey s.fTask off ∨ s.colKey s.fTask off + n ≤ k) → ¬inUndoLog s s.fTask k → t.readByte k = s.readByte k) ∧
  keepsRegsBut d s.cur t.cur ∧ keepsRest s.cur t.cur ∧ advances s.cur t.cur ∧ keepsOthers s t

/-! ### Control flow and faults (R31, R151, R155, R181) -/

/-- The head completes and the line will end with a branch to the line at `addr`; registers are for the claim to say. -/
def branchesTo (s t : State) (addr : Nat) : Prop :=
  (∃ p, t.cur.line.target = some p ∧ p.toNat = addr + 2) ∧ t.cur.q = s.cur.q ∧ t.cur.pw = s.cur.pw ∧
    keepsRest { s.cur with ind := t.cur.ind } t.cur ∧ advances s.cur t.cur ∧ onlySlot s t

/-- The slot is FAULTED at the head with a cause and a value, and its registers are as they were (R31, R151, R155). -/
def faultsWith (s t : State) (cause val : Nat) : Prop :=
  t.cur.st = .faulted ∧ t.cur.pc = s.cur.pc ∧ keepsRegs s.cur t.cur ∧
  (vget 0 (t.ctl s.fTask).d.mtfinfo s.fSlot).toNat = s.cur.pc.toNat + cause * 2 ^ 56 ∧
  (vget 0 (t.ctl s.fTask).d.mtfval s.fSlot).toNat = val % 2 ^ 64 ∧
  (t.ctl s.fTask).d.mtfpend.getLsbD s.fSlot = true

/-- The line stops at the head and the slot waits; its registers and its pc are as they were (R31, R33). -/
def waitsFor (s t : State) (w : Wr) (c : Cond) : Prop :=
  t.cur.st = .waiting ∧ t.cur.wr = w ∧ t.cur.cond = c ∧ t.cur.pc = s.cur.pc ∧ keepsRegs s.cur t.cur

/-! ### Frames of the control thread -/

/-- The control thread completes: the next instruction, one more retired, and `v` in rd; everything else as it was. -/
def ctWrites (s t : State) (rd : XReg) (v : Word) : Prop :=
  (t.ctl s.fTask).getX rd = (if rd = 0 then 0 else v) ∧
  (∀ r, r ≠ rd → (t.ctl s.fTask).getX r = (s.ctl s.fTask).getX r) ∧
  (t.ctl s.fTask).pc = (s.ctl s.fTask).pc + BitVec.ofNat 64 s.fLen ∧
  (t.ctl s.fTask).s = { (s.ctl s.fTask).s with instret := (s.ctl s.fTask).s.instret + 1 } ∧
  (t.ctl s.fTask).d = (s.ctl s.fTask).d ∧ (t.ctl s.fTask).mode = (s.ctl s.fTask).mode ∧
  (t.ctl s.fTask).resv = (s.ctl s.fTask).resv ∧
  t = s.updCtl s.fTask (fun _ => t.ctl s.fTask) ∧ sameBytes s t

/-! ### What the spec says a result is, in numbers and single bits (R189 to R194) -/

/-- Additive and bitwise operations (R189). -/
def aluSays (f : AluOp) (a b r : Word) : Prop :=
  match f with
  | .add => r.toNat = (a.toNat + b.toNat) % 2 ^ 64
  | .sub => (r.toNat + b.toNat) % 2 ^ 64 = a.toNat
  | .and => ∀ k < 64, r.getLsbD k = (a.getLsbD k && b.getLsbD k)
  | .or => ∀ k < 64, r.getLsbD k = (a.getLsbD k || b.getLsbD k)
  | .xor => ∀ k < 64, r.getLsbD k = (a.getLsbD k != b.getLsbD k)
  | .andn => ∀ k < 64, r.getLsbD k = (a.getLsbD k && !b.getLsbD k)
  | .orn => ∀ k < 64, r.getLsbD k = (a.getLsbD k || !b.getLsbD k)
  | .xnor => ∀ k < 64, r.getLsbD k = (a.getLsbD k == b.getLsbD k)

/-- Shifts and rotates by `n` (R189). -/
def shiftSays (f : ShOp) (a : Word) (n : Nat) (r : Word) : Prop :=
  match f with
  | .shl => r.toNat = a.toNat * 2 ^ n % 2 ^ 64
  | .shr => r.toNat = a.toNat / 2 ^ n
  | .sra => r.toInt = a.toInt / 2 ^ n
  | .rol => ∀ k < 64, r.getLsbD ((k + n) % 64) = a.getLsbD k
  | .ror => ∀ k < 64, r.getLsbD k = a.getLsbD ((k + n) % 64)

/-- Products: the low or the high 64 bits of the exact product (R189). -/
def mulSays (f : MulOp) (a b r : Word) : Prop :=
  match f with
  | .mul => r.toNat = a.toNat * b.toNat % 2 ^ 64
  | .mulh => r.toInt = a.toInt * b.toInt / 2 ^ 64
  | .mulhu => r.toNat = a.toNat * b.toNat / 2 ^ 64
  | .mulhsu => r.toInt = a.toInt * b.toNat / 2 ^ 64

/-- Division rounds towards zero, with the border cases of R190. -/
def divSays (f : DivOp) (a b r : Word) : Prop :=
  match f with
  | .div =>
    if b = 0 then r.toInt = -1
    else if a.toInt = -2 ^ 63 ∧ b.toInt = -1 then r.toInt = -2 ^ 63
    else r.toInt = a.toInt.tdiv b.toInt
  | .divu => if b = 0 then r.toNat = 0xFFFF_FFFF_FFFF_FFFF else r.toNat = a.toNat / b.toNat
  | .rem =>
    if b = 0 then r = a
    else if a.toInt = -2 ^ 63 ∧ b.toInt = -1 then r.toInt = 0
    else r.toInt = a.toInt.tmod b.toInt
  | .remu => if b = 0 then r = a else r.toNat = a.toNat % b.toNat

/-- Minimum and maximum (R189). -/
def minmaxSays (f : MmOp) (a b r : Word) : Prop :=
  match f with
  | .min => r.toInt = min a.toInt b.toInt
  | .max => r.toInt = max a.toInt b.toInt
  | .minu => r.toNat = min a.toNat b.toNat
  | .maxu => r.toNat = max a.toNat b.toNat

/-- Bit counts and reversals (R189). -/
def bitSays (f : BitOp) (a r : Word) : Prop :=
  match f with
  | .clz => if a = 0 then r.toNat = 64 else r.toNat < 64 ∧ 2 ^ (63 - r.toNat) ≤ a.toNat ∧ a.toNat < 2 ^ (64 - r.toNat)
  | .ctz =>
    if a = 0 then r.toNat = 64 else r.toNat < 64 ∧ a.getLsbD r.toNat = true ∧ ∀ k < r.toNat, a.getLsbD k = false
  | .popc => r.toNat = ((List.range 64).filter (fun k => a.getLsbD k)).length
  | .brev => ∀ k < 64, r.getLsbD k = a.getLsbD (63 - k)
  | .bswap => ∀ j < 8, ∀ k < 8, r.getLsbD (8 * j + k) = a.getLsbD (8 * (7 - j) + k)

/-- BEXT: bit k of the result is bit off + k of the source within the field, and 0 above it (R191). -/
def bextSays (a : Word) (off w : Nat) (r : Word) : Prop :=
  ∀ k < 64, r.getLsbD k = (decide (k < w ∧ off + k < 64) && a.getLsbD (off + k))

/-- BINS: the bits of the field come from the source, the others stay (R191). -/
def binsSays (d a : Word) (off w : Nat) (r : Word) : Prop :=
  ∀ k < 64, r.getLsbD k = if off ≤ k ∧ k < off + w then a.getLsbD (k - off) else d.getLsbD k

/-- The relations of CMP and CMPI (R193). -/
def relationSays (f : CmpOp) (a b : Word) : Prop :=
  match f with
  | .eq => a = b
  | .ne => a ≠ b
  | .lt => a.toInt < b.toInt
  | .ltu => a.toNat < b.toNat
  | .ge => b.toInt ≤ a.toInt
  | .geu => b.toNat ≤ a.toNat

/-- The predicate operations (R194). -/
def predSays (f : PlogOp) (a b : Bool) : Bool :=
  match f with
  | .and => a && b
  | .or => a || b
  | .xor => a != b
  | .andn => a && !b
  | .orn => a || !b

/-! ### Vector heads and engine commands (R214 to R276) -/

/-- A vector head executes: it is ready, no sequence of its slot is active, and its core has the lanes it needs (R216, R241). -/
def readyV (s : State) (i : Instr) (g : Guard) (l : Letter) : Prop := ready s i g ∧ s.stalled = false ∧ s.lacks l = none

/-- An integer lane under the treatments of R220: wrapped, or saturated as signed or as unsigned. -/
def satSays (o : Ovf) (w : Nat) (signed unsigned : Int) (lane : Nat) : Prop :=
  match o with
  | .wrap => (lane : Int) = signed % (2 ^ w : Nat)
  | .ss => sx lane w = max (-((2 ^ (w - 1) : Nat) : Int)) (min (((2 ^ (w - 1) : Nat) : Int) - 1) signed)
  | .us => (lane : Int) = max 0 (min (((2 ^ w : Nat) : Int) - 1) unsigned)

/-- The head completes, its q register holds lanes of type `t` that satisfy `P`, and nothing else changes. -/
def writesLanes (s u : State) (t : LaneT) (d : Reg) (P : Nat → Nat → Prop) : Prop :=
  ∃ r : Quad, (∀ i < WellFormed.lanes t, P i (laneAt r (WellFormed.laneBits t) i)) ∧ writesQ s u d r

/-- The sync fields a command takes: those of its register, or none, and whether they are well formed (R245). -/
def syncSays (s : State) (y : Sync) : SyncReg × Bool :=
  match y with
  | .field (some r) =>
    let v := (s.cur.getM r).toNat
    (⟨v % 2 ^ 8, v / 2 ^ 8 % 2 ^ 16, v.testBit 24, v / 2 ^ 32 % 2 ^ 8, v / 2 ^ 40 % 2 ^ 16, v.testBit 56⟩,
      decide (v / 2 ^ 25 % 2 ^ 7 = 0 ∧ v / 2 ^ 57 = 0))
  | _ => (⟨0, 0, false, 0, 0, false⟩, true)

/-- The head is accepted as the engine's next command, with the fault found at acceptance, and the slot goes on (R244, R247). -/
def accepts (s t : State) (major q : Nat) (y : Sync) (op : CmdOp) (fault : Option (Nat × Nat)) : Prop :=
  (∃ c, (t.eng s.fTask).cmds.getLast? = some c ∧ c.uid = (s.eng s.fTask).count ∧ c.major = major ∧ c.queue = q ∧
    c.slot = s.fSlot ∧ c.st = (if (s.ctl s.fTask).d.emptied q then .discarded else .accepted) ∧ c.op = op ∧ c.sync = (syncSays s y).1 ∧
    c.fault = (if (syncSays s y).2 then fault else some (0x16, 0))) ∧
  (t.eng s.fTask).count = (s.eng s.fTask).count + 1 ∧ keepsRegs s.cur t.cur ∧ keepsRest s.cur t.cur ∧
  advances s.cur t.cur ∧ keepsOthers s t ∧ sameBytes s t

/-! ### The control thread (R145 to R150) -/

/-- The control thread of task `u` takes an exception or interrupt: what is saved, and where it goes (R145, R149, R150). -/
def trapsTo (s t : State) (u : Nat) (intr : Bool) (code : Nat) (val : Word) : Prop :=
  let c := s.ctl u; let c' := t.ctl u
  let base := c.s.stvec.toNat / 4 * 4
  c'.s.sepc = c.pc ∧ c'.s.scause = BitVec.ofNat 64 (code + if intr then 2 ^ 63 else 0) ∧ c'.s.stval = val ∧
  c'.s.stSpie = c.s.stSie ∧ c'.s.stSie = false ∧ (c'.s.stSpp = true ↔ c.mode = .s) ∧ c'.mode = .s ∧
  c'.pc = BitVec.ofNat 64 (base + if intr = true ∧ c.s.stvec.toNat % 4 = 1 then 4 * code else 0) ∧ c'.resv = none ∧ c'.x = c.x ∧
  c'.d = c.d ∧ sameBytes s t

/-- The control thread completes with its next pc `pc` and `v` in rd, and nothing else changes but the count of instructions. -/
def ctJumps (s t : State) (rd : XReg) (v pc : Word) : Prop :=
  (t.ctl s.fTask).getX rd = (if rd = 0 then 0 else v) ∧
  (∀ r, r ≠ rd → (t.ctl s.fTask).getX r = (s.ctl s.fTask).getX r) ∧ (t.ctl s.fTask).pc = pc ∧
  (t.ctl s.fTask).s = { (s.ctl s.fTask).s with instret := (s.ctl s.fTask).s.instret + 1 } ∧
  (t.ctl s.fTask).d = (s.ctl s.fTask).d ∧ (t.ctl s.fTask).mode = (s.ctl s.fTask).mode ∧
  t = s.updCtl s.fTask (fun _ => t.ctl s.fTask) ∧ sameBytes s t

/-- The 32-bit result `n`, sign-extended (R145). -/
def signs32 (n : Nat) (r : Word) : Prop := r.toInt = sx (n % 2 ^ 32) 32

/-! ### Queues (R312 to R319) -/

/-- The record of queue `q` retires and the execution point goes on to `p`; the queue is IDLE once no record is left, else ACTIVE (R312, R318). -/
def retiresTo (x y : Queue) (p : Option Nat) : Prop :=
  y.point = p ∧ y.rptr = (if x.point = none then x.rptr + 1 else x.rptr) ∧ y.wait = .none ∧ y.retiring = false ∧
  y.st = (if p = none ∧ y.rptr = x.wptr then .idle else .active) ∧ y.wptr = x.wptr ∧ y.kcopies = x.kcopies ∧ y.kernels = x.kernels

/-- The record of queue `q` retires, and nothing else changes but the queue and its entry in the queue table. -/
def recordRetires (s t : State) (q : Nat) (p : Option Nat) : Prop :=
  retiresTo (s.queue q) (t.queue q) p ∧ t = s.updQueue q (fun _ => t.queue q)

/-- The record of queue `q` has had its effect and will retire. -/
def Queue.acted (x : Queue) : Queue := { x with st := .active, wait := .none, retiring := true }

/-- MSI-X message `e` goes to the host, or is held while the host link has failed (R426). -/
def tellsHost (s t : State) (e : Nat) : Prop :=
  if s.hostDown then t.msixHeld = s.msixHeld ++ [e] ∧ t.msix = s.msix else t.msix = s.msix ++ [e] ∧ t.msixHeld = s.msixHeld

/-- Queue `q` stops in ERROR at its record, the host is told, and no other queue, task or context changes (R313, R319). -/
def queueStops (s t : State) (q code : Nat) : Prop :=
  (t.queue q).st = .error ∧ (t.queue q).errcode = code ∧ (t.queue q).wait = .none ∧
  (t.queue q).erraddr = (match (s.queue q).point with
    | some a => a
    | none => (s.queue q).rbase + 16 * ((s.queue q).rptr.toNat % (s.queue q).rsize)) ∧
  t.mg.qerrQid = q ∧ t.mg.qerrCode = code ∧ t.mg.qerrV = true ∧ tellsHost s t 2 ∧ (∀ j, j ≠ q → t.queue j = s.queue j) ∧
  t.tasks = s.tasks ∧ t.kernels = s.kernels ∧ t.net = s.net

end Sys2Proof.Machine
end

