-- ==== Sys2Proof/Certificates/Slice0/Obligations.lean ====
section
/-! DEFINITION. What is claimed of the model: one definition per statement. -/
open Sys2Proof Sys2Proof.Machine

/-! ### Scalar heads (R188 to R194) -/

/-- R189, R190: the additive, bitwise, shift and multiply heads write D with the exact result wrapped to 64 bits, division rounds towards zero and never traps, and nothing else changes. -/
def Obligations.ArithmeticHeadsWriteTheExactResult : Prop :=
  ∀ (s : State) (d a b : Reg) (g : Guard),
    let x := s.cur
    (∀ f, ready s (.alu f d a b g) g → completes (.alu f d a b g) s (fun t =>
      ∃ r, aluSays f (x.getM a) (x.getM b) r ∧ writesM s t d r)) ∧
    (∀ f, ready s (.shf f d a b g) g → completes (.shf f d a b g) s (fun t =>
      ∃ r, shiftSays f (x.getM a) ((x.getM b).toNat % 64) r ∧ writesM s t d r)) ∧
    (∀ f n, ready s (.shfi f d a n g) g → completes (.shfi f d a n g) s (fun t =>
      ∃ r, shiftSays f (x.getM a) n.toNat r ∧ writesM s t d r)) ∧
    (∀ f, ready s (.mul f d a b g) g → completes (.mul f d a b g) s (fun t =>
      ∃ r, mulSays f (x.getM a) (x.getM b) r ∧ writesM s t d r)) ∧
    (∀ f, ready s (.minmax f d a b g) g → completes (.minmax f d a b g) s (fun t =>
      ∃ r, minmaxSays f (x.getM a) (x.getM b) r ∧ writesM s t d r)) ∧
    (∀ f, ready s (.div f d a b g) g → completes (.div f d a b g) s (fun t =>
      ∃ r, divSays f (x.getM a) (x.getM b) r ∧ writesM s t d r))

/-- R189, R191: the bit heads write the count or the reversal; BEXT and BINS in both forms move exactly the bits of the field. -/
def Obligations.BitHeadsCountReverseAndMoveFields : Prop :=
  ∀ (s : State) (d a b : Reg) (off wid : BitVec 7) (g : Guard),
    let x := s.cur
    let bo := (x.getM b).toNat % 256
    let bw := (x.getM b).toNat / 256 % 256
    (∀ f, ready s (.bitc f d a g) g → completes (.bitc f d a g) s (fun t => ∃ r, bitSays f (x.getM a) r ∧ writesM s t d r)) ∧
    (ready s (.bext d a off wid g) g → completes (.bext d a off wid g) s (fun t =>
      ∃ r, bextSays (x.getM a) off.toNat wid.toNat r ∧ writesM s t d r)) ∧
    (ready s (.bextReg d a b g) g → completes (.bextReg d a b g) s (fun t =>
      ∃ r, bextSays (x.getM a) bo bw r ∧ writesM s t d r)) ∧
    (ready s (.bins d a off wid g) g → completes (.bins d a off wid g) s (fun t =>
      ∃ r, binsSays (x.getM d) (x.getM a) off.toNat wid.toNat r ∧ writesM s t d r)) ∧
    (ready s (.binsReg d a b g) g → completes (.binsReg d a b g) s (fun t =>
      ∃ r, binsSays (x.getM d) (x.getM a) bo bw r ∧ writesM s t d r))

/-- R189, R192: the immediate heads, SEL, MKADR and MKREL. -/
def Obligations.ImmediateSelectAndAddressHeads : Prop :=
  ∀ (s : State) (d a b c : Reg) (i : Imm) (h : BitVec 32) (g : Guard),
    let x := s.cur
    let k := BitVec.ofInt 64 (match i with | .none => 0 | .i16 v => v.toInt | .i32 v => v.toInt)
    let coordinate := (x.getM a).toNat % 32 * 2 ^ 57 + (x.getM a).toNat / 32 % 64 * 2 ^ 51 + (x.getM a).toNat / 2048 % 64 * 2 ^ 45
    let offset := (x.getM b).toNat % 2 ^ 22
    (ready s (.addi d a i g) g → completes (.addi d a i g) s (fun t => ∃ r, aluSays .add (x.getM a) k r ∧ writesM s t d r)) ∧
    (∀ f, ready s (.alui f d a i g) g → completes (.alui f d a i g) s (fun t =>
      ∃ r, aluSays (match f with | .and => .and | .or => .or | .xor => .xor) (x.getM a) k r ∧ writesM s t d r)) ∧
    (ready s (.movi d i g) g → completes (.movi d i g) s (fun t => writesM s t d k)) ∧
    (ready s (.movhi d h g) g → completes (.movhi d h g) s (fun t =>
      ∃ r : Word, r.toNat = h.toNat * 2 ^ 32 + (x.getM d).toNat % 2 ^ 32 ∧ writesM s t d r)) ∧
    (ready s (.sel d c a b g) g → completes (.sel d c a b g) s (fun t =>
      writesM s t d (if x.getP c then x.getM a else x.getM b))) ∧
    (ready s (.mkadr d a b g) g → completes (.mkadr d a b g) s (fun t =>
      ∃ r : Word, r.toNat = 2 ^ 62 + coordinate + offset ∧ writesM s t d r)) ∧
    (ready s (.mkrel d a b g) g → completes (.mkrel d a b g) s (fun t =>
      ∃ r : Word, r.toNat = 2 ^ 63 + coordinate + offset ∧ writesM s t d r))

/-- R193, R194: compares and predicate heads write one predicate, the predicate word, or a zero-extended copy of it. -/
def Obligations.CompareAndPredicateHeads : Prop :=
  ∀ (s : State) (d a b : Reg) (i : Imm) (g : Guard),
    let x := s.cur
    let k := BitVec.ofInt 64 (match i with | .none => 0 | .i16 v => v.toInt | .i32 v => v.toInt)
    (∀ f, ready s (.cmp f d a b g) g → completes (.cmp f d a b g) s (fun t =>
      ∃ r, (r = true ↔ relationSays f (x.getM a) (x.getM b)) ∧ writesP s t d r)) ∧
    (∀ f, ready s (.cmpi f d a i g) g → completes (.cmpi f d a i g) s (fun t =>
      ∃ r, (r = true ↔ relationSays f (x.getM a) k) ∧ writesP s t d r)) ∧
    (∀ f, ready s (.plog f d a b g) g → completes (.plog f d a b g) s (fun t =>
      writesP s t d (predSays f (x.getP a) (x.getP b)))) ∧
    (∀ v, ready s (.pset v d g) g → completes (.pset v d g) s (fun t => writesP s t d v)) ∧
    (ready s (.pmov d g) g → completes (.pmov d g) s (fun t =>
      ∃ r : Word, r.toNat = x.pw.toNat ∧ writesM s t d r)) ∧
    (ready s (.pmovPw a g) g → completes (.pmovPw a g) s (fun t =>
      t.cur.pw.toNat = (x.getM a).toNat % 2 ^ 16 ∧ t.cur.m = x.m ∧ t.cur.q = x.q ∧ keepsRest x t.cur ∧ advances x t.cur ∧
        onlySlot s t))

/-! ### Local memory (R195 to R202) -/

/-- R64, R196, R197: LD, LDX, LDP and VLD read the bytes at the effective address as the slot sees them, a location that has been read ahead as it was then; LDL reads the constants of a pool line; and each writes only its destination. -/
def Obligations.LoadsReadTheBytesTheSlotSees : Prop :=
  ∀ (s : State) (d a b : Reg) (i : Imm) (g : Guard) (off : Nat),
    let k := BitVec.ofInt 64 (match i with | .none => 0 | .i16 v => v.toInt | .i32 v => v.toInt)
    let ea := (s.cur.getM a + k).toNat
    let half : Nat → Word → Prop := fun o r => loadSays .d (fun j => readsAt s (o + j)) r
    (∀ f, ready s (.ld f d a i g) g → refersTo s ea (ldBytes f) .rd off → unspoilt s off (ldBytes f) →
      completes (.ld f d a i g) s (fun t => ∃ r, loadSays f (fun j => readsAt s (off + j)) r ∧ writesM s t d r)) ∧
    (∀ f, ready s (.ldx f d a b g) g →
      refersTo s (((s.cur.getM a).toNat + (s.cur.getM b).toNat * ldBytes f) % 2 ^ 64) (ldBytes f) .rd off → unspoilt s off (ldBytes f) →
      completes (.ldx f d a b g) s (fun t => ∃ r, loadSays f (fun j => readsAt s (off + j)) r ∧ writesM s t d r)) ∧
    (ready s (.ldp d a i g) g → refersTo s ea 16 .rd off → (∀ k < 2, unspoilt s (off + 8 * k) 8) →
      completes (.ldp d a i g) s (fun t =>
        half off (t.cur.getM d) ∧ half (off + 8) (t.cur.getM (d + 1)) ∧
        (∀ r, r ≠ d → r ≠ d + 1 → t.cur.getM r = s.cur.getM r) ∧ t.cur.q = s.cur.q ∧ t.cur.pw = s.cur.pw ∧
        keepsRest s.cur t.cur ∧ advances s.cur t.cur ∧ onlySlot s t)) ∧
    (ready s (.vld d a i g) g → s.stalled = false → refersTo s ea 16 .rd off → (∀ k < 2, unspoilt s (off + 8 * k) 8) →
      completes (.vld d a i g) s (fun t =>
        ∃ r : Quad, half off (r.setWidth 64) ∧ half (off + 8) ((r >>> 64).setWidth 64) ∧ writesQ s t d r)) ∧
    (∀ f (delta : BitVec 10) (o : BitVec 6) s' img, ready s (.ldl f d delta o g) g → 2 ≤ o.toNat → o.toNat + ldBytes f ≤ 64 →
      s.fetchLine s.fTask (deltaLine s.cur.line_ delta.toInt).toNat = (s', .ok img) → lineType img = 2 →
      completes (.ldl f d delta o g) s (fun t =>
        let byte := fun j => BitVec.ofNat 8 ((img.getD (j / 2) 0).toNat / 256 ^ (j % 2))
        ∃ r, loadSays f (fun j => byte (o.toNat + j)) r ∧ writesM s' t d r))

/-- R196: ST, STX, STP and VST: the slot sees the stored bytes at the effective address at once; no byte of memory changes before the store lands (R65), and no register changes. -/
def Obligations.StoresEnterTheStoreBuffer : Prop :=
  ∀ (s : State) (d a b : Reg) (i : Imm) (g : Guard) (off : Nat),
    let k := BitVec.ofInt 64 (match i with | .none => 0 | .i16 v => v.toInt | .i32 v => v.toInt)
    let ea := (s.cur.getM a + k).toNat
    (∀ f, ready s (.st f d a i g) g → refersTo s ea (stBytes f) .wr off → (stBytes f = 8 ∨ undamaged s off (stBytes f)) →
      completes (.st f d a i g) s (fun t => storesBytes s t off (stBytes f) (s.cur.getM d).toNat)) ∧
    (∀ f, ready s (.stx f d a b g) g →
      refersTo s (((s.cur.getM a).toNat + (s.cur.getM b).toNat * stBytes f) % 2 ^ 64) (stBytes f) .wr off →
      (stBytes f = 8 ∨ undamaged s off (stBytes f)) →
      completes (.stx f d a b g) s (fun t => storesBytes s t off (stBytes f) (s.cur.getM d).toNat)) ∧
    (ready s (.stp d a i g) g → refersTo s ea 16 .wr off →
      completes (.stp d a i g) s (fun t =>
        storesBytes s t off 16 ((s.cur.getM d).toNat + (s.cur.getM (d + 1)).toNat * 2 ^ 64))) ∧
    (ready s (.vst d a i g) g → s.stalled = false → refersTo s ea 16 .wr off →
      completes (.vst d a i g) s (fun t => storesBytes s t off 16 (s.cur.getQ d).toNat))

/-- R65, R383: a store that lands writes its bytes into the column, leaves the buffer, and changes no other byte but those of the undo log. -/
def Obligations.LandingWritesExactlyTheStoredBytes : Prop :=
  ∀ (s : State) (t i idx : Nat) (e : SbEntry),
    (s.task t).onCore = true → i < 10 → landable (s.slot t i).sb idx = some e → e.off + e.n ≤ Config.undoBase →
    completes (.storeBufferLand t i idx) s (fun u =>
      (∀ j < e.n, (u.readByte (s.colKey t (e.off + j))).toNat = e.val / 256 ^ j % 256) ∧
      (∀ k, (k < s.colKey t e.off ∨ s.colKey t e.off + e.n ≤ k) → ¬inUndoLog s t k → u.readByte k = s.readByte k) ∧
      (u.slot t i).sb = (s.slot t i).sb.eraseIdx idx ∧ keepsRegs (s.slot t i) (u.slot t i))

/-- R201, R202: an atomic whose slot has no store of its own outstanding reads the old value and writes the new one in one step; a failed ACAS writes nothing. -/
def Obligations.AtomicsReadModifyWriteOnce : Prop :=
  ∀ (s : State) (o : AOrd) (w4 : Bool) (d a b c : Reg) (g : Guard) (off : Nat),
    let n := if w4 then 4 else 8
    let ea := (s.cur.getM a).toNat
    let vb := (s.cur.getM b).toNat % 256 ^ n
    let vc := (s.cur.getM c).toNat % 256 ^ n
    refersTo s ea n .rw off → undamaged s off n → s.cur.sb = [] →
    (ready s (.aadd o w4 d a b g) g → completes (.aadd o w4 d a b g) s (fun t => rmw s t off n d (fun old => some (old + vb)))) ∧
    (∀ f, ready s (.alog f o w4 d a b g) g → completes (.alog f o w4 d a b g) s (fun t =>
      rmw s t off n d (fun old => some (match f with | .and => old &&& vb | .or => old ||| vb | .xor => old ^^^ vb)))) ∧
    (∀ f, ready s (.amm f o w4 d a b g) g → completes (.amm f o w4 d a b g) s (fun t =>
      rmw s t off n d (fun old => some (match f with
        | .min => if sx old (8 * n) ≤ sx vb (8 * n) then old else vb
        | .max => if sx old (8 * n) ≤ sx vb (8 * n) then vb else old
        | .minu => min old vb
        | .maxu => max old vb)))) ∧
    (ready s (.aswp o w4 d a b g) g → completes (.aswp o w4 d a b g) s (fun t => rmw s t off n d (fun _ => some vb))) ∧
    (ready s (.acas o w4 d a b c g) g → completes (.acas o w4 d a b c g) s (fun t =>
      rmw s t off n d (fun old => if old = vc then some vb else none)))

/-- R50, R57, R199, R297: a reference of any load, store or atomic that R50 or protection refuses, or that would travel without a channel, faults at the head with its cause and value, and so does one that uses damaged bytes; no register is written. A location that has been read ahead is not read again (R64), and a store of a whole location replaces damage. -/
def Obligations.ReferencesFaultAtTheHead : Prop :=
  ∀ (s : State) (o : AOrd) (w4 : Bool) (d a b c : Reg) (i : Imm) (g : Guard),
    let ea := (s.cur.getM a + BitVec.ofInt 64 (match i with | .none => 0 | .i16 v => v.toInt | .i32 v => v.toInt)).toNat
    let ex := fun (n : Nat) => ((s.cur.getM a).toNat + (s.cur.getM b).toNat * n) % 2 ^ 64
    let at_ := (s.cur.getM a).toNat
    let w := if w4 then 4 else 8
    let faults := fun (j : Instr) (cause val : Nat) => completes j s (fun t => faultsWith s t cause val)
    let on := fun (j : Instr) => ready s j g ∧ s.cur.kill = none
    let refused := fun (j : Instr) (e n : Nat) (need : Need) => on j →
      (∀ k v, k < 256 → s.target e n = .fault k v → faults j k v) ∧
      (∀ x, s.target e n = .there x → s.hasCh s.me.ctx = false → faults j 0x03 0) ∧
      (∀ off, s.target e n = .here off → s.me.arch.denied need off n = true → faults j 0x04 e)
    let damage : Nat → Nat → Nat → Prop := fun off n cause =>
      ∃ l p, s.colPoison s.fTask s.cur.sb off n = some (l, p) ∧ cause = if p = .expired then 0x0A else 0x09
    let fresh : Nat → Prop := fun off => SMap.find s.cur.part (off / 8 * 8) = none
    let spoilt := fun (j : Instr) (e n : Nat) (need : Need) => on j → ∀ off k, refersTo s e n need off → damage off n k → faults j k e
    let spoiltLoad := fun (j : Instr) (e n : Nat) => on j → ∀ off k, refersTo s e n .rd off → fresh off → damage off n k → faults j k e
    let spoiltPair := fun (j : Instr) => on j → ∀ off k h, refersTo s ea 16 .rd off → h < 2 →
      (∀ h' < h, unspoilt s (off + 8 * h') 8) → fresh (off + 8 * h) → damage (off + 8 * h) 8 k → faults j k ea
    (∀ f, refused (.ld f d a i g) ea (ldBytes f) .rd ∧ spoiltLoad (.ld f d a i g) ea (ldBytes f)) ∧
    (∀ f, refused (.ldx f d a b g) (ex (ldBytes f)) (ldBytes f) .rd ∧ spoiltLoad (.ldx f d a b g) (ex (ldBytes f)) (ldBytes f)) ∧
    (refused (.ldp d a i g) ea 16 .rd ∧ spoiltPair (.ldp d a i g)) ∧
    (s.stalled = false → refused (.vld d a i g) ea 16 .rd ∧ spoiltPair (.vld d a i g)) ∧
    (∀ f, refused (.st f d a i g) ea (stBytes f) .wr ∧ (stBytes f < 8 → spoilt (.st f d a i g) ea (stBytes f) .wr)) ∧
    (∀ f, refused (.stx f d a b g) (ex (stBytes f)) (stBytes f) .wr ∧
      (stBytes f < 8 → spoilt (.stx f d a b g) (ex (stBytes f)) (stBytes f) .wr)) ∧
    refused (.stp d a i g) ea 16 .wr ∧
    (s.stalled = false → refused (.vst d a i g) ea 16 .wr) ∧
    (refused (.aadd o w4 d a b g) at_ w .rw ∧ spoilt (.aadd o w4 d a b g) at_ w .rw) ∧
    (∀ f, refused (.alog f o w4 d a b g) at_ w .rw ∧ spoilt (.alog f o w4 d a b g) at_ w .rw) ∧
    (∀ f, refused (.amm f o w4 d a b g) at_ w .rw ∧ spoilt (.amm f o w4 d a b g) at_ w .rw) ∧
    (refused (.aswp o w4 d a b g) at_ w .rw ∧ spoilt (.aswp o w4 d a b g) at_ w .rw) ∧
    (refused (.acas o w4 d a b c g) at_ w .rw ∧ spoilt (.acas o w4 d a b c g) at_ w .rw)

/-! ### Control flow and system heads (R180 to R187, R211 to R213) -/

/-- R181 to R184: a branch whose guard holds goes to the line its delta or register names, CALL and CALLX link the next line, LOOP counts down and branches while its counter is not 0, and FETCH leaves follow mode. -/
def Obligations.BranchesGoToTheNamedLine : Prop :=
  ∀ (s : State) (d a : Reg) (i : Imm) (δ : BitVec 16) (g : Guard),
    let line := s.cur.pc.toNat / 64 * 64
    let by_ : Int → Nat := fun k => (((line : Int) + 64 * k) % (2 ^ 56 : Nat)).toNat
    let k : Int := match i with | .none => 0 | .i16 v => v.toInt | .i32 v => v.toInt
    let isLine : Word → Prop := fun v => v.toNat < 2 ^ 56 ∧ v.toNat % 64 = 0
    let links : State → Prop := fun t => (t.cur.getM d).toNat = (line + 64) % 2 ^ 56 ∧ ∀ r, r ≠ d → t.cur.getM r = s.cur.getM r
    (s.cur.ind = true → ready s (.br i g) g → completes (.br i g) s (fun t =>
      branchesTo s t (by_ k) ∧ t.cur.m = s.cur.m ∧ t.cur.ind = true)) ∧
    (s.cur.ind = true → ready s (.brx d g) g → isLine (s.cur.getM d) → completes (.brx d g) s (fun t =>
      branchesTo s t (s.cur.getM d).toNat ∧ t.cur.m = s.cur.m ∧ t.cur.ind = true)) ∧
    (s.cur.ind = true → ready s (.call d i g) g → completes (.call d i g) s (fun t =>
      branchesTo s t (by_ k) ∧ links t ∧ t.cur.ind = true)) ∧
    (s.cur.ind = true → ready s (.callx d a g) g → isLine (s.cur.getM a) → completes (.callx d a g) s (fun t =>
      branchesTo s t (s.cur.getM a).toNat ∧ links t ∧ t.cur.ind = true)) ∧
    ((s.cur.ind = true ∨ δ = 0) → ready s (.loop d δ g) g → completes (.loop d δ g) s (fun t =>
      (t.cur.getM d).toNat = ((s.cur.getM d).toNat + (2 ^ 64 - 1)) % 2 ^ 64 ∧ (∀ r, r ≠ d → t.cur.getM r = s.cur.getM r) ∧
      (if (s.cur.getM d).toNat = 1 then t.cur.line.target = s.cur.line.target ∧ advances s.cur t.cur ∧ onlySlot s t
       else branchesTo s t (by_ δ.toInt)))) ∧
    (ready s (.fetch i g) g → completes (.fetch i g) s (fun t =>
      branchesTo s t (by_ k) ∧ t.cur.m = s.cur.m ∧ t.cur.ind = true)) ∧
    (ready s (.fetchReg a g) g → isLine (s.cur.getM a) → completes (.fetchReg a g) s (fun t =>
      branchesTo s t (s.cur.getM a).toNat ∧ t.cur.m = s.cur.m ∧ t.cur.ind = true))

/-- R181, R182: in follow mode a branch whose guard holds raises 0x01; a register target of BRX, CALLX or FETCH above 2^56 raises 0x08 and one that is no line address 0x05. -/
def Obligations.BranchesFaultWhereTheyMayNotGo : Prop :=
  ∀ (s : State) (d a : Reg) (i : Imm) (δ : BitVec 16) (g : Guard), s.cur.kill = none →
    let target := fun (j : Instr) (v : Nat) => ready s j g →
      (2 ^ 56 ≤ v → completes j s (fun t => faultsWith s t 0x08 v)) ∧
      (v < 2 ^ 56 → v % 64 ≠ 0 → completes j s (fun t => faultsWith s t 0x05 v))
    (s.cur.ind = false → ready s (.br i g) g → completes (.br i g) s (fun t => faultsWith s t 0x01 0)) ∧
    (s.cur.ind = false → ready s (.brx d g) g → completes (.brx d g) s (fun t => faultsWith s t 0x01 0)) ∧
    (s.cur.ind = false → ready s (.call d i g) g → completes (.call d i g) s (fun t => faultsWith s t 0x01 0)) ∧
    (s.cur.ind = false → ready s (.callx d a g) g → completes (.callx d a g) s (fun t => faultsWith s t 0x01 0)) ∧
    (s.cur.ind = false → δ ≠ 0 → ready s (.loop d δ g) g → completes (.loop d δ g) s (fun t => faultsWith s t 0x01 0)) ∧
    (s.cur.ind = true → target (.brx d g) (s.cur.getM d).toNat) ∧
    (s.cur.ind = true → target (.callx d a g) (s.cur.getM a).toNat) ∧
    target (.fetchReg a g) (s.cur.getM a).toNat

/-- R30, R70, R185 to R187, R206, R211, R213: NOP, YIELD, SAFEPT, FENCE.CORE, STOP and ID. -/
def Obligations.LineAndSystemHeads : Prop :=
  ∀ (s : State) (d : Reg) (mask : BitVec 27) (g : Guard),
    (s.fSlot < 10 → completes .nop s (fun t => writesNothing s t ∧ t.cur.budget = s.cur.budget)) ∧
    (ready s (.yield g) g → completes (.yield g) s (fun t => writesNothing s t ∧ t.cur.budget = 1024)) ∧
    (s.fSlot < 10 → s.cur.line.safept = none → completes (.safept mask) s (fun t =>
      writesNothing s t ∧ t.cur.line.safept = some mask)) ∧
    (s.fSlot < 10 → s.cur.line.safept ≠ none → s.cur.kill = none →
      completes (.safept mask) s (fun t => faultsWith s t 0x01 0)) ∧
    (ready s (.fenceCore g) g → (∀ e ∈ s.cur.sb, e.off + e.n ≤ Config.undoBase) → completes (.fenceCore g) s (fun t =>
      t.cur.sb = [] ∧ t.cur.fenced = s.me.arch.slotCopies s.fSlot ∧ keepsRegs s.cur t.cur ∧ advances s.cur t.cur ∧
      ∀ off < Config.undoBase, t.readByte (s.colKey s.fTask off) = sees s off)) ∧
    (ready s (.stop g) g → s.cur.sigBad = false → s.cur.kill = none → completes (.stop g) s (fun t =>
      t.cur.st = .stopped ∧ t.cur.ind = false ∧ keepsRegs s.cur t.cur ∧ t.cur.inbox = s.cur.inbox ∧ t.cur.sb = s.cur.sb ∧
      t.cur.id = { s.cur.id with sp := false } ∧ sameBytes s t)) ∧
    (∀ f, ready s (.id f d g) g → completes (.id f d g) s (fun t => ∃ r : Word,
      r.toNat = (match f with
        | .coord => s.me.coord.d % 32 + s.me.coord.y % 64 * 32 + s.me.coord.x % 64 * 2048
        | .slot => s.fSlot
        | .hops => s.cur.id.hops
        | .ident => s.cur.id.word
        | .ctx => s.me.ctx) % 2 ^ 64 ∧ writesM s t d r))

/-- R46, R47, R106, R146, R155, R212: RDSYS reads each CSR of the unprivileged view, whose value it states; any other number raises 0x01, and a counter that scounteren withholds 0x03. BP of ARRIVALS follows the model's reading of R47 (log 120). -/
def Obligations.RdsysReadsTheUnprivilegedView : Prop :=
  ∀ (s : State) (d : Reg) (n : BitVec 12) (g : Guard), ready s (.rdsys d n g) g → s.cur.kill = none →
    let k := s.me
    let q := k.arch.msgs
    let listed := (0x0C00 ≤ n.toNat ∧ n.toNat ≤ 0x0C02) ∨ (0x0CC0 ≤ n.toNat ∧ n.toNat ≤ 0x0CC4) ∨
      (0x0CC8 ≤ n.toNat ∧ n.toNat ≤ 0x0CD2)
    let withheld := 0x0C00 ≤ n.toNat ∧ n.toNat ≤ 0x0C02 ∧ (s.ctl s.fTask).s.scounteren.getLsbD (n.toNat - 0x0C00) = false
    let reads := fun (m : Nat) (P : Word → Prop) => n.toNat = m → ¬withheld → completes (.rdsys d n g) s (fun t => ∃ v, P v ∧ writesM s t d v)
    let bit_ := fun (b : Bool) => if b then 1 else 0
    reads 0x0C00 (fun v => v = k.arch.ctl.s.cycle) ∧
    reads 0x0C01 (fun v => v.toNat = s.now % 2 ^ 64) ∧
    reads 0x0C02 (fun v => v = k.arch.ctl.s.instret) ∧
    reads 0x0CC0 (fun v => v = 1024) ∧
    reads 0x0CC1 (fun v => v.toNat < 2 ^ 40 ∧ ∀ i < 10,
      v.toNat / 16 ^ i % 16 = (match (k.arch.slot i).st with
        | .free => 0 | .ready => 1 | .running => 2 | .waiting => 3 | .travelling => 4 | .faulted => 5 | .stopped => 6) +
        8 * bit_ (k.arch.slot i).ind) ∧
    reads 0x0CC2 (fun v => v.toNat < 2 ^ 40 ∧ ∀ i < 10,
      v.toNat / 16 ^ i % 16 = (match (k.arch.slot i).wr with
        | .none => 0 | .broadcast => 1 | .message => 2 | .levelCopy => 3 | .engineSem => 4 | .barrier => 5 | .linkInbox => 6
        | .ctSync => 7 | .migrate => 8)) ∧
    reads 0x0CC3 (fun v => v.toNat = (k.arch.spawnOut + 64 * 2 ^ 8) % 2 ^ 64) ∧
    reads 0x0CC4 (fun v => v.toNat = (min q.arrivals.length 16 + (q.arrivals.length - 16) * 2 ^ 16 + bit_ q.refuses * 2 ^ 32) % 2 ^ 64) ∧
    reads 0x0CC8 (fun v => v = k.arch.bar.step0) ∧
    (∀ l < 4, reads (0x0CC9 + l) (fun v => v = vget 0 k.arch.bar.steps l)) ∧
    (∀ l < 4, reads (0x0CCD + l) (fun v =>
      let m := vget ⟨false, false, false, false, 0, 0⟩ k.arch.bar.memb l
      v.toNat = bit_ m.mem + 2 * bit_ m.top + 4 * bit_ m.arr + 8 * bit_ (m.top && m.nr))) ∧
    reads 0x0CD1 (fun v => v.toNat = bit_ k.arch.eng.nx) ∧
    reads 0x0CD2 (fun v => v.toNat = k.coord.d % 32 + k.coord.y % 64 * 32 + k.coord.x % 64 * 2048 + bit_ (decide (12 ≤ k.phys.d)) * 2 ^ 24) ∧
    (listed → withheld → completes (.rdsys d n g) s (fun t => faultsWith s t 0x03 0)) ∧
    (¬listed → completes (.rdsys d n g) s (fun t => faultsWith s t 0x01 0))

/-! ### Travel, links and control-thread sync (R203 to R210) -/

/-- R50, R206, R207, R297: GO and HOME to the own core have no effect; to another core they stop the line and the slot is TRAVELLING to it; GO raises the cause of R50 for an address that names no core, and both 0x03 without a channel. SPAWN raises 0x03 for another core without a channel; it answers 3 for an address that names no core, 2 for a bad entry, 1 when the allowance is used up, and 0 with one more child counted. -/
def Obligations.GoHomeAndSpawn : Prop :=
  ∀ (s : State) (d a b : Reg) (g : Guard) (c : Coord), s.cur.kill = none →
    let h := s.cur.id.home
    let he := 2 ^ 62 + h.d * 2 ^ 57 + h.y * 2 ^ 51 + h.x * 2 ^ 45
    let ea := (s.cur.getM a).toNat
    let e := (s.cur.getM b).toNat
    let place := coordOf s.me.coord ea
    let good := e < 2 ^ 56 ∧ e % 64 = 0
    let leaves : State → Nat → Prop := fun t e =>
      t.cur.st = .travelling ∧ t.cur.travel = some (c, e) ∧ t.cur.pc = s.cur.pc ∧ keepsRegs s.cur t.cur ∧ sameBytes s t
    (ready s (.go a g) g → (∃ off, s.target ea 1 = .here off) → completes (.go a g) s (fun t => writesNothing s t)) ∧
    (ready s (.go a g) g → s.target ea 1 = .there c → s.hasCh s.me.ctx = true → completes (.go a g) s (fun t => leaves t ea)) ∧
    (∀ k v, k < 256 → ready s (.go a g) g → s.target ea 1 = .fault k v → completes (.go a g) s (fun t => faultsWith s t k v)) ∧
    (ready s (.go a g) g → s.cur.line.arrived = false → place = none → completes (.go a g) s (fun t => faultsWith s t 0x08 ea)) ∧
    (ready s (.go a g) g → s.target ea 1 = .there c → s.hasCh s.me.ctx = false → completes (.go a g) s (fun t => faultsWith s t 0x03 0)) ∧
    (ready s (.home g) g → s.target he 1 = .there c → s.hasCh s.me.ctx = false → completes (.home g) s (fun t => faultsWith s t 0x03 0)) ∧
    (ready s (.spawn d a b g) g → place = some c → good → s.me.arch.spawnOut < 64 → c ≠ s.me.coord → s.hasCh s.me.ctx = false →
      completes (.spawn d a b g) s (fun t => faultsWith s t 0x03 0)) ∧
    (ready s (.home g) g → (∃ off, s.target he 1 = .here off) → completes (.home g) s (fun t => writesNothing s t)) ∧
    (ready s (.home g) g → s.target he 1 = .there c → s.hasCh s.me.ctx = true → completes (.home g) s (fun t => leaves t he)) ∧
    (ready s (.spawn d a b g) g → place = none → completes (.spawn d a b g) s (fun t => writesM s t d 3)) ∧
    (ready s (.spawn d a b g) g → place ≠ none → ¬good → completes (.spawn d a b g) s (fun t => writesM s t d 2)) ∧
    (ready s (.spawn d a b g) g → place ≠ none → good → 64 ≤ s.me.arch.spawnOut → completes (.spawn d a b g) s (fun t => writesM s t d 1)) ∧
    (ready s (.spawn d a b g) g → place = some c → good → s.me.arch.spawnOut < 64 → (c = s.me.coord ∨ s.hasCh s.me.ctx = true) →
      completes (.spawn d a b g) s (fun t =>
        t.cur.getM d = 0 ∧ keepsRegsBut d s.cur t.cur ∧ keepsRest s.cur t.cur ∧ advances s.cur t.cur ∧
        (t.arch s.fTask).spawnOut = s.me.arch.spawnOut + 1 ∧
        ((c = s.me.coord ∧ s.me.arch.msgs.arrivals.length < 16 ∧ s.waitsBefore s.fTask none = false) →
          ∃ x : Bale, (t.arch s.fTask).msgs.arrivals = s.me.arch.msgs.arrivals ++ [.bale x] ∧ x.m = s.cur.m ∧
            x.pw = s.cur.pw ∧ x.pc.toNat = e + 2 ∧ x.id.sp = true ∧ x.id.hops = 0)))

/-- R209, R210: register links and control-thread sync. -/
def Obligations.LinksAndControlThreadSync : Prop :=
  ∀ (s : State) (d a : Reg) (n : BitVec 4) (g : Guard),
    let y := s.slot s.fTask n.toNat
    let shut := y.st = .free ∨ y.st = .stopped ∨ y.st = .travelling
    (ready s (.lsend d a n g) g → shut → completes (.lsend d a n g) s (fun t => writesM s t d 2)) ∧
    (ready s (.lsend d a n g) g → ¬shut → 4 ≤ y.inbox.length → completes (.lsend d a n g) s (fun t => writesM s t d 1)) ∧
    (ready s (.lsend d a n g) g → ¬shut → y.inbox.length < 4 → completes (.lsend d a n g) s (fun t =>
      t.cur.getM d = 0 ∧ keepsRegsBut d s.cur t.cur ∧ (t.slot s.fTask n.toNat).inbox = y.inbox ++ [s.cur.getM a] ∧
      sameBytes s t)) ∧
    (∀ v rest, ready s (.lrecv d g) g → s.cur.inbox = v :: rest → completes (.lrecv d g) s (fun t =>
      t.cur.getM d = v ∧ t.cur.inbox = rest ∧ keepsRegsBut d s.cur t.cur ∧ advances s.cur t.cur ∧ onlySlot s t)) ∧
    (ready s (.lrecv d g) g → s.cur.inbox = [] → s.cur.kill = none → completes (.lrecv d g) s (fun t =>
      waitsFor s t .linkInbox .inbox)) ∧
    (ready s (.lpeek d g) g → completes (.lpeek d g) s (fun t => ∃ r : Word,
      r.toNat = s.cur.inbox.length % 2 ^ 64 ∧ writesM s t d r)) ∧
    (ready s (.csyncSig g) g → completes (.csyncSig g) s (fun t =>
      (∀ k < 10, (t.ctl s.fTask).d.sig.getLsbD k = (decide (k = s.fSlot) || (s.ctl s.fTask).d.sig.getLsbD k)) ∧
      keepsRegs s.cur t.cur ∧ advances s.cur t.cur ∧ sameBytes s t)) ∧
    (ready s (.csyncWait g) g → (s.ctl s.fTask).d.go.getLsbD s.fSlot = true → completes (.csyncWait g) s (fun t =>
      (∀ k < 10, (t.ctl s.fTask).d.go.getLsbD k = (decide (k ≠ s.fSlot) && (s.ctl s.fTask).d.go.getLsbD k)) ∧
      keepsRegs s.cur t.cur ∧ advances s.cur t.cur ∧ sameBytes s t)) ∧
    (ready s (.csyncWait g) g → (s.ctl s.fTask).d.go.getLsbD s.fSlot = false → s.cur.kill = none →
      completes (.csyncWait g) s (fun t => waitsFor s t .ctSync .go))

/-! ### Messages and barriers (R277 to R288) -/

/-- R50, R278, R279, R297: POST enters the send buffer or answers 1 when it is full, raises 0x08 for an address that names no core and 0x03 for another core without a channel; RECV takes the oldest message of its tag, waits for one, or says that there is none, and raises 0x0D for one of the other NX; only a RECV.ACQ that takes a message of a POST.REL gives up what the slot has read ahead (R66, R77; how far a slot reads ahead is the model's choice, log 94). -/
def Obligations.PostAndRecvMoveMessages : Prop :=
  ∀ (s : State) (rel trig nw acq : Bool) (d a b : Reg) (tag : BitVec 6) (src : TagSrc) (g : Guard),
    let k := s.me
    let wanted := match src with | .reg r => (s.cur.getM r).toNat % 64 | .imm v => v.toNat
    (∀ c, ready s (.post rel trig d a b tag g) g → coordOf k.coord (s.cur.getM a).toNat = some c →
      (c = k.coord ∨ s.hasCh k.ctx = true) → 16 ≤ k.arch.msgs.sendb.length →
      completes (.post rel trig d a b tag g) s (fun t => writesM s t d 1)) ∧
    (∀ c, ready s (.post rel trig d a b tag g) g → coordOf k.coord (s.cur.getM a).toNat = some c →
      (c = k.coord ∨ s.hasCh k.ctx = true) → k.arch.msgs.sendb.length < 16 →
      completes (.post rel trig d a b tag g) s (fun t => t.cur.getM d = 0 ∧ keepsRegsBut d s.cur t.cur ∧ advances s.cur t.cur ∧
        ∃ e : SendEnt, (t.arch s.fTask).msgs.sendb = k.arch.msgs.sendb ++ [e] ∧ e.dst = c ∧ e.msg.payload = s.cur.getM b ∧
          e.msg.tag = tag.toNat ∧ e.msg.trig = trig ∧ e.msg.src = k.coord ∧ e.msg.nx = k.arch.eng.nx ∧ e.hold.isSome = rel)) ∧
    (∀ m pre post, ready s (.recv acq nw d src b g) g → k.arch.msgs.mailbox = pre ++ m :: post → m.tag = wanted →
      (∀ m' ∈ pre, m'.tag ≠ wanted) → (wanted = 63 ∨ m.nx = k.arch.eng.nx) →
      completes (.recv acq nw d src b g) s (fun t =>
        t.cur.getM d = m.payload ∧ (∀ r, r ≠ d → t.cur.getM r = s.cur.getM r) ∧ t.cur.q = s.cur.q ∧
        (if nw then t.cur.getP b = true ∧ ∀ r, r ≠ b → t.cur.getP r = s.cur.getP r else t.cur.pw = s.cur.pw) ∧
        advances s.cur t.cur ∧ (t.arch s.fTask).msgs.mailbox = pre ++ post ∧ t.cur.part = (if acq && m.rel then [] else s.cur.part) ∧ sameBytes s t)) ∧
    (∀ m pre post, ready s (.recv acq nw d src b g) g → s.cur.kill = none → k.arch.msgs.mailbox = pre ++ m :: post → m.tag = wanted →
      (∀ m' ∈ pre, m'.tag ≠ wanted) → wanted ≠ 63 → m.nx ≠ k.arch.eng.nx →
      completes (.recv acq nw d src b g) s (fun t => faultsWith s t 0x0D 0 ∧ (t.arch s.fTask).msgs.mailbox = pre ++ post)) ∧
    (ready s (.post rel trig d a b tag g) g → s.cur.kill = none → coordOf k.coord (s.cur.getM a).toNat = none →
      completes (.post rel trig d a b tag g) s (fun t => faultsWith s t 0x08 (s.cur.getM a).toNat)) ∧
    (∀ c, ready s (.post rel trig d a b tag g) g → s.cur.kill = none → coordOf k.coord (s.cur.getM a).toNat = some c → c ≠ k.coord →
      s.hasCh k.ctx = false → completes (.post rel trig d a b tag g) s (fun t => faultsWith s t 0x03 0)) ∧
    (ready s (.recv acq nw d src b g) g → (∀ m' ∈ k.arch.msgs.mailbox, m'.tag ≠ wanted) → nw = true →
      completes (.recv acq nw d src b g) s (fun t => t.cur.getM d = 0 ∧ t.cur.getP b = false ∧ advances s.cur t.cur ∧ onlySlot s t)) ∧
    (ready s (.recv acq nw d src b g) g → (∀ m' ∈ k.arch.msgs.mailbox, m'.tag ≠ wanted) → nw = false → s.cur.kill = none →
      completes (.recv acq nw d src b g) s (fun t => waitsFor s t .message (.message wanted)))

/-- R280, R281: BIND, UNBIND and REBIND change the state of one tag and give its previous state; REBIND leaves a tag that is not BOUND as it is. -/
def Obligations.TagHeadsChangeOneTag : Prop :=
  ∀ (s : State) (d a : Reg) (tag : BitVec 6) (g : Guard), s.me.arch.msgs.parking = [] →
    let old := s.me.arch.msgs.tag tag.toNat
    let sets : State → TagSt → Prop := fun t v =>
      (t.arch s.fTask).msgs.tag tag.toNat = v ∧ (∀ j < 64, j ≠ tag.toNat → (t.arch s.fTask).msgs.tag j = s.me.arch.msgs.tag j) ∧
      (t.cur.getM d).toNat = (match old with | .unbound => 0 | .bound _ => 1 | .rebinding => 2) ∧
      keepsRegsBut d s.cur t.cur ∧ advances s.cur t.cur ∧ sameBytes s t
    (ready s (.bind d a tag g) g → (s.cur.getM a).toNat < 2 ^ 56 → (s.cur.getM a).toNat % 64 = 0 →
      completes (.bind d a tag g) s (fun t => sets t (.bound (s.cur.getM a)))) ∧
    (ready s (.unbind d tag g) g → completes (.unbind d tag g) s (fun t => sets t .unbound)) ∧
    (ready s (.rebind d tag g) g → completes (.rebind d tag g) s (fun t =>
      sets t (match old with | .bound _ => .rebinding | v => v)))

/-- R42, R284 to R288: EXCH opens its window; a barrier head closes it, arrives and waits; once the instance has completed BAR ends and BARX gives the result; BARA ends once its abort is recorded. -/
def Obligations.BarrierHeadsArriveAndComplete : Prop :=
  ∀ (s : State) (op : BarOp) (l : BitVec 3) (d a : Reg) (code : BitVec 15) (g : Guard),
    let mine := s.memberAt s.fTask l.toNat = true ∧ s.me.arch.bar.lowerOpen l.toNat = false
    let fresh := s.cur.barEnd = none ∧ s.cur.kill = none ∧ (s.me.arch.bar.membOf l.toNat).arr = false
    let open_ := s.instState s.fTask l.toNat ≠ .aborted ∧ s.instState s.fTask l.toNat ≠ .timedout
    let arrives : State → Option (BarOp × Option Word) → Option Nat → Prop := fun t o c =>
      ∃ p : PendArr, (t.arch s.fTask).bar.pendOf l.toNat = some p ∧ p.op = o ∧ p.code = c ∧
        ((t.arch s.fTask).bar.membOf l.toNat).arr = true ∧ vget false (t.arch s.fTask).bar.open_ (l.toNat - 1) = false
    (ready s (.exch l g) g → s.memberAt s.fTask l.toNat = true → completes (.exch l g) s (fun t =>
      vget false (t.arch s.fTask).bar.open_ (l.toNat - 1) = true ∧ keepsRegs s.cur t.cur ∧ advances s.cur t.cur ∧ sameBytes s t)) ∧
    (ready s (.bar l g) g → mine → fresh → open_ → completes (.bar l g) s (fun t =>
      arrives t none none ∧ waitsFor s t .barrier (.barrier l.toNat))) ∧
    (∀ v, ready s (.bar l g) g → s.cur.barEnd = some (.done v) → completes (.bar l g) s (fun t =>
      writesNothing s t ∧ t.cur.barEnd = none)) ∧
    (ready s (.barx op l d a g) g → mine → fresh → open_ → completes (.barx op l d a g) s (fun t =>
      arrives t (some (op, some (s.cur.getM a))) none ∧ waitsFor s t .barrier (.barrier l.toNat))) ∧
    (∀ v, ready s (.barx op l d a g) g → s.cur.barEnd = some (.done (some v)) → completes (.barx op l d a g) s (fun t =>
      writesM s t d v)) ∧
    (ready s (.barxNc op l d g) g → mine → fresh → open_ → completes (.barxNc op l d g) s (fun t =>
      arrives t (some (op, none)) none ∧ waitsFor s t .barrier (.barrier l.toNat))) ∧
    (∀ v, ready s (.barxNc op l d g) g → s.cur.barEnd = some (.done (some v)) → completes (.barxNc op l d g) s (fun t =>
      writesM s t d v)) ∧
    (ready s (.bara l a g) g → mine → fresh → open_ → completes (.bara l a g) s (fun t =>
      arrives t none (some ((s.cur.getM a).toNat % 2 ^ 15)) ∧ waitsFor s t .barrier (.abort l.toNat))) ∧
    (ready s (.bara l a g) g → s.cur.barEnd = some .recorded → completes (.bara l a g) s (fun t => writesNothing s t)) ∧
    (ready s (.baraImm l code g) g → mine → fresh → open_ → completes (.baraImm l code g) s (fun t =>
      arrives t none (some code.toNat) ∧ waitsFor s t .barrier (.abort l.toNat))) ∧
    (ready s (.baraImm l code g) g → s.cur.barEnd = some .recorded → completes (.baraImm l code g) s (fun t => writesNothing s t)) ∧
    (ready s (.bar l g) g → s.cur.barEnd = none → s.cur.kill = none → s.memberAt s.fTask l.toNat = false →
      completes (.bar l g) s (fun t => faultsWith s t 0x01 0))

/-! ### Vector heads (R214 to R242) -/

/-- R220 to R222, R224: on integer lanes every lane of the result is the exact result of its lanes under the head's treatment, and nothing but D changes. -/
def Obligations.IntegerLanesAreExactUnderTheirTreatment : Prop :=
  ∀ (s : State) (ty : LaneT) (o : Ovf) (d a b : Reg) (g : Guard), WellFormed.isInt ty = true →
    let w := WellFormed.laneBits ty
    let A := fun i => laneAt (s.cur.getQ a) w i
    let B := fun i => laneAt (s.cur.getQ b) w i
    let S := fun x : Nat => sx x w
    let half : Bool → (Nat → Int) := fun u x => if u then x else sx x w
    (readyV s (.vadd ty o d a b g) g .fv → completes (.vadd ty o d a b g) s (fun t =>
      writesLanes s t ty d (fun i r => satSays o w (S (A i) + S (B i)) ((A i : Int) + B i) r))) ∧
    (readyV s (.vsub ty o d a b g) g .fv → completes (.vsub ty o d a b g) s (fun t =>
      writesLanes s t ty d (fun i r => satSays o w (S (A i) - S (B i)) ((A i : Int) - B i) r))) ∧
    (readyV s (.vmul ty o d a b g) g .fv → completes (.vmul ty o d a b g) s (fun t =>
      writesLanes s t ty d (fun i r => satSays o w (S (A i) * S (B i)) ((A i : Int) * B i) r))) ∧
    (readyV s (.vmin ty o d a b g) g .fv → completes (.vmin ty o d a b g) s (fun t =>
      writesLanes s t ty d (fun i r => if o = .us then r = min (A i) (B i) else S r = min (S (A i)) (S (B i))))) ∧
    (readyV s (.vmax ty o d a b g) g .fv → completes (.vmax ty o d a b g) s (fun t =>
      writesLanes s t ty d (fun i r => if o = .us then r = max (A i) (B i) else S r = max (S (A i)) (S (B i))))) ∧
    (readyV s (.vabs ty o d a g) g .fv → completes (.vabs ty o d a g) s (fun t =>
      writesLanes s t ty d (fun i r => satSays o w (S (A i)).natAbs 0 r))) ∧
    (readyV s (.vneg ty o d a g) g .fv → completes (.vneg ty o d a g) s (fun t =>
      writesLanes s t ty d (fun i r => satSays o w (-S (A i)) 0 r))) ∧
    (∀ u, readyV s (.vmulh ty u d a b g) g .fv → completes (.vmulh ty u d a b g) s (fun t =>
      writesLanes s t ty d (fun i r => (r : Int) = half u (A i) * half u (B i) / (2 ^ w : Nat) % (2 ^ w : Nat)))) ∧
    (∀ u, readyV s (.vavg ty u d a b g) g .fv → completes (.vavg ty u d a b g) s (fun t =>
      writesLanes s t ty d (fun i r => (r : Int) = (half u (A i) + half u (B i) + 1) / 2 % (2 ^ w : Nat)))) ∧
    (∀ f, readyV s (.vcmp f ty d a b g) g .fv → completes (.vcmp f ty d a b g) s (fun t =>
      writesLanes s t ty d (fun i r =>
        let holds := match f with
          | .eq => A i = B i
          | .ne => A i ≠ B i
          | .lt => S (A i) < S (B i)
          | .le => S (A i) ≤ S (B i)
          | .ltu => A i < B i
          | .leu => A i ≤ B i
        (holds → r = 2 ^ w - 1) ∧ (¬holds → r = 0)))) ∧
    (∀ f n, readyV s (.vsh f ty d a n g) g .fv → completes (.vsh f ty d a n g) s (fun t =>
      writesLanes s t ty d (fun i r =>
        let k := match n with | .reg c => laneAt (s.cur.getQ c) w i % 256 | .imm v => v.toNat
        match f with
        | .shl => r = A i * 2 ^ k % 2 ^ w
        | .shr => r = A i / 2 ^ k
        | .sra => S r = S (A i) / (2 ^ k : Nat))))

/-- R223, R224: on float lanes every lane of the result is one rounding of the exact result. -/
def Obligations.FloatLanesRoundOnce : Prop :=
  ∀ (s : State) (ty : LaneT) (d a b c : Reg) (g : Guard), WellFormed.isInt ty = false →
    let w := WellFormed.laneBits ty
    let F := fmtOf ty
    let A := fun i => F.decode (laneAt (s.cur.getQ a) w i)
    let B := fun i => F.decode (laneAt (s.cur.getQ b) w i)
    let C := fun i => F.decode (laneAt (s.cur.getQ c) w i)
    let l := letterArith ty
    let m := letterMove ty
    (readyV s (.vadd ty .wrap d a b g) g l → completes (.vadd ty .wrap d a b g) s (fun t =>
      writesLanes s t ty d (fun i r => r = F.round (Fp.sum [A i, B i]) % 2 ^ w))) ∧
    (readyV s (.vsub ty .wrap d a b g) g l → completes (.vsub ty .wrap d a b g) s (fun t =>
      writesLanes s t ty d (fun i r => r = F.round (Fp.sum [A i, (B i).negate]) % 2 ^ w))) ∧
    (readyV s (.vmul ty .wrap d a b g) g l → completes (.vmul ty .wrap d a b g) s (fun t =>
      writesLanes s t ty d (fun i r => r = F.round (Fp.mul (A i) (B i)) % 2 ^ w))) ∧
    (readyV s (.vfma ty d a b c g) g l → completes (.vfma ty d a b c g) s (fun t =>
      writesLanes s t ty d (fun i r => r = F.round (Fp.sum [Fp.mul (A i) (B i), C i]) % 2 ^ w))) ∧
    (readyV s (.vdiv ty d a b g) g l → completes (.vdiv ty d a b g) s (fun t =>
      writesLanes s t ty d (fun i r => r = F.round (Fp.div (A i) (B i)) % 2 ^ w))) ∧
    (readyV s (.vsqrt ty d a g) g l → completes (.vsqrt ty d a g) s (fun t =>
      writesLanes s t ty d (fun i r => r = F.round (A i).sqrt % 2 ^ w))) ∧
    (readyV s (.vmin ty .wrap d a b g) g m → completes (.vmin ty .wrap d a b g) s (fun t =>
      writesLanes s t ty d (fun i r => r = F.round (Fp.minV (A i) (B i)) % 2 ^ w))) ∧
    (readyV s (.vmax ty .wrap d a b g) g m → completes (.vmax ty .wrap d a b g) s (fun t =>
      writesLanes s t ty d (fun i r => r = F.round (Fp.maxV (A i) (B i)) % 2 ^ w))) ∧
    (readyV s (.vabs ty .wrap d a g) g m → completes (.vabs ty .wrap d a g) s (fun t =>
      writesLanes s t ty d (fun i r => r = (if (A i).isNan then F.nanBits else laneAt (s.cur.getQ a) w i % F.signBit) % 2 ^ w))) ∧
    (readyV s (.vneg ty .wrap d a g) g m → completes (.vneg ty .wrap d a g) s (fun t =>
      writesLanes s t ty d (fun i r => r = (if (A i).isNan then F.nanBits else laneAt (s.cur.getQ a) w i ^^^ F.signBit) % 2 ^ w))) ∧
    (∀ f, readyV s (.vcmp f ty d a b g) g m → f ≠ .ltu → f ≠ .leu → completes (.vcmp f ty d a b g) s (fun t =>
      writesLanes s t ty d (fun i r =>
        let nan := (A i).isNan || (B i).isNan
        let holds := match f with
          | .eq => !nan && Fp.eq (A i) (B i)
          | .ne => nan || !Fp.eq (A i) (B i)
          | .lt => !nan && Fp.lt (A i) (B i)
          | _ => !nan && !Fp.lt (B i) (A i)
        r = if holds then 2 ^ w - 1 else 0)))

/-- R219, R225 to R227: the logical, select, move, splat, lane and permute heads move bits and lanes unchanged. -/
def Obligations.MovesAndPermutesKeepLanes : Prop :=
  ∀ (s : State) (ty : LaneT) (d a b c : Reg) (k : BitVec 4) (g : Guard),
    let x := s.cur
    let w := WellFormed.laneBits ty
    let n := WellFormed.lanes ty
    let A := fun i => laneAt (x.getQ a) w i
    let B := fun i => laneAt (x.getQ b) w i
    let m := letterMove ty
    (∀ f, readyV s (.vlog f d a b g) g .fv → completes (.vlog f d a b g) s (fun t => ∃ r : Quad,
      (∀ j < 128, r.getLsbD j = (match f with
        | .and => (x.getQ a).getLsbD j && (x.getQ b).getLsbD j
        | .or => (x.getQ a).getLsbD j || (x.getQ b).getLsbD j
        | .xor => (x.getQ a).getLsbD j != (x.getQ b).getLsbD j
        | .andn => (x.getQ a).getLsbD j && !(x.getQ b).getLsbD j
        | .not => !(x.getQ a).getLsbD j)) ∧ writesQ s t d r)) ∧
    (readyV s (.vsel d c a b g) g .fv → completes (.vsel d c a b g) s (fun t =>
      writesQ s t d (if x.getP c then x.getQ a else x.getQ b))) ∧
    (readyV s (.vmov d a g) g .fv → completes (.vmov d a g) s (fun t => writesQ s t d (x.getQ a))) ∧
    (readyV s (.vmovQm d a g) g .fv → completes (.vmovQm d a g) s (fun t =>
      ∃ r : Quad, r.toNat = (x.getM a).toNat ∧ writesQ s t d r)) ∧
    (readyV s (.vmovMq d a g) g .fv → completes (.vmovMq d a g) s (fun t =>
      ∃ r : Word, r.toNat = (x.getQ a).toNat % 2 ^ 64 ∧ writesM s t d r)) ∧
    (readyV s (.vsplat ty d a g) g m → completes (.vsplat ty d a g) s (fun t =>
      writesLanes s t ty d (fun _ r => r = (x.getM a).toNat % 2 ^ w))) ∧
    (readyV s (.vlaneExt ty d a k g) g m → completes (.vlaneExt ty d a k g) s (fun t =>
      ∃ r : Word, r.toNat = A k.toNat ∧ writesM s t d r)) ∧
    (readyV s (.vlaneIns ty d a k g) g m → completes (.vlaneIns ty d a k g) s (fun t =>
      writesLanes s t ty d (fun i r => r = if i = k.toNat then (x.getM a).toNat % 2 ^ w else laneAt (x.getQ d) w i))) ∧
    (readyV s (.vshuf ty d a b g) g .fv → completes (.vshuf ty d a b g) s (fun t =>
      writesLanes s t ty d (fun i r => r = if B i % 256 < n then A (B i % 256) else 0))) ∧
    (readyV s (.vrot ty d a k g) g .fv → completes (.vrot ty d a k g) s (fun t =>
      writesLanes s t ty d (fun i r => r = A ((i + k.toNat) % n)))) ∧
    (∀ z, readyV s (.vzip ty z d a b g) g .fv → completes (.vzip ty z d a b g) s (fun t =>
      writesLanes s t ty d (fun i r => r = match z.getD .lo with
        | .lo => if i % 2 = 0 then A (i / 2) else B (i / 2)
        | .hi => if i % 2 = 0 then A (n / 2 + i / 2) else B (n / 2 + i / 2)
        | .ev => if i < n / 2 then A (2 * i) else B (2 * (i - n / 2))
        | .od => if i < n / 2 then A (2 * i + 1) else B (2 * (i - n / 2) + 1))))

/-- R228 to R233: reductions, dot products, conversions, packed and palette forms write their value to D and nothing else; VCVT to narrower lanes keeps the other half of D. -/
def Obligations.ReductionsAndConversionsWriteOnlyD : Prop :=
  ∀ (s : State) (ty st : LaneT) (d a b : Reg) (n : BitVec 2) (g : Guard),
    let x := s.cur
    let w := WellFormed.laneBits ty
    let ws := WellFormed.laneBits st
    let k := s.arch s.fTask
    let A := fun i => laneAt (x.getQ a) w i
    (∀ f, readyV s (.vred f ty d a g) g (letterRed f ty) → WellFormed.isInt ty = true → completes (.vred f ty d a g) s (fun t =>
      ∃ r : Quad, r.toNat < 2 ^ w ∧ (match f with
        | .add => (r.toNat : Int) = (((List.range (WellFormed.lanes ty)).map (fun i => sx (A i) w)).sum) % (2 ^ w : Nat)
        | .min => (∃ i < WellFormed.lanes ty, r.toNat = A i) ∧ ∀ i < WellFormed.lanes ty, sx r.toNat w ≤ sx (A i) w
        | .max => (∃ i < WellFormed.lanes ty, r.toNat = A i) ∧ ∀ i < WellFormed.lanes ty, sx (A i) w ≤ sx r.toNat w) ∧
        writesQ s t d r)) ∧
    (∀ f, readyV s (.vred f ty d a g) g (letterRed f ty) → completes (.vred f ty d a g) s (fun t =>
      writesQ s t d (vredQ f ty (x.getQ a)))) ∧
    (readyV s (.vdot ty d a b g) g .fv → completes (.vdot ty d a b g) s (fun t =>
      ∃ r : Quad, (WellFormed.isInt ty = true → ∀ j < 4, (laneAt r 32 j : Int) = (sx (laneAt (x.getQ d) 32 j) 32 +
        ((List.range (32 / w)).map (fun i =>
          sx (A (32 / w * j + i)) w * sx (laneAt (x.getQ b) w (32 / w * j + i)) w)).sum) % (2 ^ 32 : Nat)) ∧ writesQ s t d r)) ∧
    (∀ h, readyV s (.vcvt ty st d a h g) g (letterCvt ty st) → completes (.vcvt ty st d a h g) s (fun t =>
      writesLanes s t ty d (fun i r =>
        let p := 128 / max w ws; let base := (h.elim 0 BitVec.toNat) * p
        r = if w < ws then (if base ≤ i ∧ i < base + p then convLane ty st (laneAt (x.getQ a) ws (i - base)) % 2 ^ w
                            else laneAt (x.getQ d) w i)
            else convLane ty st (laneAt (x.getQ a) ws (base + i)) % 2 ^ w))) ∧
    (readyV s (.pdec n ty d a g) g .fv → completes (.pdec n ty d a g) s (fun t =>
      writesLanes s t ty d (fun i r =>
        r = (fmtOf ty).round (palDec k.lineNx k.linePal2 k.linePal3 n.toNat (laneAt (x.getQ a) 8 i)) % 2 ^ w))) ∧
    (readyV s (.penc n ty d a g) g .fv → completes (.penc n ty d a g) s (fun t => ∃ r : Quad,
      (∀ i < 16, laneAt r 8 i = if i < WellFormed.lanes ty then
        palEnc k.lineNx k.linePal2 k.linePal3 n.toNat ((fmtOf ty).decode (A i)) % 256 else 0) ∧ writesQ s t d r)) ∧
    (∀ f, readyV s (.vpack f d a g) g .f → completes (.vpack f d a g) s (fun t => writesQ s t d (vpackQ f (x.getQ a)))) ∧
    (∀ f, readyV s (.vunpk f d a g) g .f → completes (.vunpk f d a g) s (fun t => ∃ r : Quad,
      (∀ i < 8, laneAt r 16 i = (if f = .int4 then wrap (sx (laneAt (x.getQ a) 4 i) 4) 16
        else fBf16.round (packVal f (laneAt (x.getQ a) (packBits f) i))) % 2 ^ 16) ∧ writesQ s t d r))

/-- R239 to R241: REP hands its body to the sequencer and the line goes on after it; each issue of the sequencer has the effect of one body head, with its q fields moved on by the stride. -/
def Obligations.RepetitionIssuesItsBody : Prop :=
  ∀ (s : State) (h : BitVec 3) (st : BitVec 4) (p : BitVec 8) (body : List Instr) (t : Nat) (q : Seq),
    let n := h.toNat + 1
    (s.fSlot < 10 → repBody (s.cur.line.img.getD []) s.cur.line.next n = some body →
      body.findSome? (fun i => s.lacks (bodyLetter i)) = none → (s.arch s.fTask).seq = none →
      completes (.rep h st p) s (fun u =>
        (∃ q : Seq, (u.arch s.fTask).seq = some q ∧ q.slot = s.fSlot ∧ q.body = body ∧ q.stride = st.toNat ∧ q.passes = p.toNat + 1 ∧
          q.pass = 0 ∧ q.head = 0) ∧
        u.cur.line.next = s.cur.line.next + n + 1 ∧ keepsRegs s.cur u.cur ∧ sameBytes s u)) ∧
    (∀ i, (s.task t).onCore = true → q.slot < 10 → (s.arch t).seq = some q →
      q.body[q.head]?.bind (bodyHead (q.stride * q.pass)) = some i → completes (.sequencerIssue t) s (fun u =>
        u.slot t q.slot = bodyEffect q.nx q.pal2 q.pal3 (s.slot t q.slot) i ∧
        (∀ j, j ≠ q.slot → u.slot t j = s.slot t j) ∧ sameBytes s u ∧
        (u.arch t).seq = (if q.head + 1 < q.body.length then some { q with head := q.head + 1 }
          else if q.pass + 1 < q.passes then some { q with head := 0, pass := q.pass + 1 } else none)))

/-! ### Engine commands (R243 to R275) -/

/-- R152, R244, R245, R247, R266 to R275: every easel head is accepted as the next command of the easel queue, with its operands, its sync fields and its slot, discarded at once where a late fault has emptied the queue (the model's reading of R152, log 87); a malformed sync register makes it malformed, before any other fault (log 126); a full ring makes each of them wait. -/
def Obligations.EaselHeadsAreAcceptedInOrder : Prop :=
  ∀ (s : State) (d a b : Reg) (y : Sync) (z : Option Reg) (n : BitVec 11) (clear on : Bool) (g : Guard),
    let v := (s.cur.getM a).toNat
    let waits := fun (j : Instr) => ready s j g → s.cur.kill = none → completes j s (fun t => waitsFor s t .engineSem .ring)
    ((s.eng s.fTask).full = true →
      (s.lacksAny s.fTask [s.accLetter a, s.accLetter b] = none → waits (.ezmm clear d a b y g)) ∧
      (s.lacksAny s.fTask [.f, s.accLetter a, s.accLetter b] = none → waits (.ezmms clear d a b y g)) ∧
      waits (.ezring d a y g) ∧ waits (.ezpush d n z g) ∧ waits (.ezpop d n z g) ∧
      (∀ c p sp, s.lacks (fmtLetter c.toNat sp) = none → waits (.ezfmt d c p sp z g)) ∧ waits (.ezzld d a y g) ∧
      (∀ m, waits (.ezzst d a m y g)) ∧ waits (.ezzclr d y g) ∧ waits (.ezwf y g) ∧ waits (.ezchk on y g)) ∧
    ((s.eng s.fTask).full = false →
    (ready s (.ezmm clear d a b y g) g → s.lacksAny s.fTask [s.accLetter a, s.accLetter b] = none →
      completes (.ezmm clear d a b y g) s (fun t => accepts s t 0x60 4 y (.ezmm d.toNat a.toNat b.toNat clear) none)) ∧
    (ready s (.ezmms clear d a b y g) g → s.lacksAny s.fTask [.f, s.accLetter a, s.accLetter b] = none →
      completes (.ezmms clear d a b y g) s (fun t => accepts s t 0x61 4 y (.ezmms d.toNat a.toNat b.toNat clear) none)) ∧
    (ready s (.ezring d a y g) g → completes (.ezring d a y g) s (fun t =>
      accepts s t 0x62 4 y (.ezring d.toNat (v % 2 ^ 22) (v / 2 ^ 32 % 2 ^ 10 + 1))
        (if v % 2 ^ 6 = 0 ∧ v / 2 ^ 22 % 2 ^ 10 = 0 ∧ v / 2 ^ 42 = 0 then none else some (0x16, 0)))) ∧
    (ready s (.ezpush d n z g) g → completes (.ezpush d n z g) s (fun t => accepts s t 0x63 4 (.field z) (.ezpush d.toNat n.toNat) none)) ∧
    (ready s (.ezpop d n z g) g → completes (.ezpop d n z g) s (fun t => accepts s t 0x64 4 (.field z) (.ezpop d.toNat n.toNat) none)) ∧
    (∀ c p sp, ready s (.ezfmt d c p sp z g) g → s.lacks (fmtLetter c.toNat sp) = none → completes (.ezfmt d c p sp z g) s (fun t =>
      accepts s t 0x65 4 (.field z) (.ezfmt d.toNat c.toNat p.toNat sp) none ∧
      ((t.eng s.fTask).ring d.toNat).accFmt = c.toNat ∧ ((t.eng s.fTask).ring d.toNat).accSparse = sp)) ∧
    (∀ off, ready s (.ezzld d a y g) g → s.accAddr a 4096 = some off → completes (.ezzld d a y g) s (fun t =>
      accepts s t 0x66 4 y (.ezzld d.toNat off) none)) ∧
    (∀ off m, ready s (.ezzst d a m y g) g → s.accAddr a (if m = .raw then 4096 else 2048) = some off →
      completes (.ezzst d a m y g) s (fun t =>
        accepts s t 0x67 4 y (.ezzst d.toNat off (match m with | .raw => 0 | .bf16 => 1 | .fp16 => 2)) none)) ∧
    (ready s (.ezzclr d y g) g → completes (.ezzclr d y g) s (fun t => accepts s t 0x68 4 y (.ezzclr d.toNat) none)) ∧
    (ready s (.ezwf y g) g → completes (.ezwf y g) s (fun t => accepts s t 0x69 4 y .ezwf none)) ∧
    (ready s (.ezchk on y g) g → completes (.ezchk on y g) s (fun t => accepts s t 0x6A 4 y (.ezchk on) none)))

/-- R152, R244, R252 to R254, R257, R234, R241: COPY, COPY2, TLOAD and PLOAD are accepted with what their registers and descriptors give, where no copy that a FENCE.CORE orders is outstanding (R70, log 105) and, for PLOAD, no sequence of the slot is active; in a queue that a late fault has emptied they are discarded at once (the model's reading of R152, log 87), and a malformed sync register comes before any other fault (log 126); a full ring makes each of them wait. -/
def Obligations.CopyHeadsAreAcceptedInOrder : Prop :=
  ∀ (s : State) (q a b c : Reg) (y : Sync) (z : Option Reg) (n : BitVec 2) (g : Guard),
    let A := (s.cur.getM a).toNat
    let r := s.makeCopy A (s.cur.getM b).toNat (s.cur.getM c).toNat 1 0 0
    let pol : TPol → Nat := fun p => match p with | .wait => 0 | .direct => 1 | .shadow => 2
    let reads := ownOffset s.me.coord A = none ∨ s.me.arch.fenceStalls s.cur = false
    let waits := fun (j : Instr) => completes j s (fun t => waitsFor s t .engineSem .ring)
    ((s.eng s.fTask).full = false → ready s (.copy q a b c z g) g → completes (.copy q a b c z g) s (fun t =>
      accepts s t 0x6C q.toNat (.field z) r.1 r.2)) ∧
    ((s.eng s.fTask).full = false → ready s (.copy2 q a y g) g → reads → completes (.copy2 q a y g) s (fun t =>
      accepts s t 0x6D q.toNat y (s.makeCopy2 A).1 (s.makeCopy2 A).2)) ∧
    (∀ p, (s.eng s.fTask).full = false → ready s (.tload q a p z g) g → reads → completes (.tload q a p z g) s (fun t =>
      accepts s t 0x6E q.toNat (.field z) (s.makeTload (pol p) (syncSays s (.field z)).1 A).1
        (s.makeTload (pol p) (syncSays s (.field z)).1 A).2)) ∧
    ((s.eng s.fTask).full = false → readyV s (.pload n a g) g .fv → reads → completes (.pload n a g) s (fun t =>
      accepts s t 0x53 4 .short (s.makePload n.toNat A).1 (s.makePload n.toNat A).2)) ∧
    ((s.eng s.fTask).full = true → s.cur.kill = none →
      (ready s (.copy q a b c z g) g → waits (.copy q a b c z g)) ∧
      (ready s (.copy2 q a y g) g → reads → waits (.copy2 q a y g)) ∧
      (∀ p, ready s (.tload q a p z g) g → reads → waits (.tload q a p z g)) ∧
      (readyV s (.pload n a g) g .fv → reads → waits (.pload n a g)))

/-- R249 to R251, R261, R262, R267: engine semaphores saturate, wait heads end when their condition holds and wait otherwise, and the query heads read. -/
def Obligations.SemaphoresAndEngineWaits : Prop :=
  ∀ (s : State) (d a : Reg) (k : BitVec 3) (v : BitVec 16) (mask : BitVec 5) (p : Path) (g : Guard),
    let e := s.eng s.fTask
    let sem := fun n => (e.sem n).toNat
    let i := (s.cur.getM d).toNat % 256
    let r := e.ring k.toNat
    let others : State → Prop := fun t => (∀ j, j ≠ i → (t.eng s.fTask).sem j = e.sem j) ∧ keepsRegs s.cur t.cur ∧ advances s.cur t.cur ∧ sameBytes s t
    (ready s (.sems d v g) g → completes (.sems d v g) s (fun t =>
      ((t.eng s.fTask).sem i).toNat = min (sem i + v.toNat) 0xFFFF ∧ others t)) ∧
    (ready s (.semini d a g) g → completes (.semini d a g) s (fun t =>
      ((t.eng s.fTask).sem i).toNat = (s.cur.getM a).toNat % 2 ^ 16 ∧ others t)) ∧
    (ready s (.semrd d a g) g → completes (.semrd d a g) s (fun t => ∃ r : Word,
      r.toNat = sem ((s.cur.getM a).toNat % 256) ∧ writesM s t d r)) ∧
    (ready s (.semw d v g) g → v.toNat ≤ sem i → completes (.semw d v g) s (fun t => writesNothing s t)) ∧
    (ready s (.semw d v g) g → sem i < v.toNat → s.cur.kill = none → completes (.semw d v g) s (fun t =>
      waitsFor s t .engineSem (.sem i v.toNat))) ∧
    (ready s (.join mask g) g → e.joined s.cutOf mask.toNat = true → completes (.join mask g) s (fun t => writesNothing s t)) ∧
    (ready s (.join mask g) g → e.joined s.cutOf mask.toNat = false → s.cur.kill = none → completes (.join mask g) s (fun t =>
      waitsFor s t .levelCopy (.join mask.toNat) ∧ t.cur.cut = some s.cutOf)) ∧
    (ready s (.drain p g) g → e.pathsClear s.me.coord s.cutOf [pathCode p] = true → completes (.drain p g) s (fun t =>
      writesNothing s t)) ∧
    (ready s (.drain p g) g → e.pathsClear s.me.coord s.cutOf [pathCode p] = false → s.cur.kill = none →
      completes (.drain p g) s (fun t => waitsFor s t .levelCopy (.drain (pathCode p)) ∧ t.cur.cut = some s.cutOf)) ∧
    (ready s (.cqst d g) g → completes (.cqst d g) s (fun t => writesM s t d (BitVec.ofNat 64 (s.me.arch.cqst s.me.coord)))) ∧
    (ready s (.ezqry d k g) g → completes (.ezqry d k g) s (fun t => ∃ w : Word,
      w.toNat = r.head % 2 ^ 10 + r.count % 2 ^ 11 * 2 ^ 10 + r.fmt % 16 * 2 ^ 21 + r.pal % 4 * 2 ^ 25 +
        (if r.sparse then 2 ^ 27 else 0) ∧ writesM s t d w))

/-! ### The control thread (R145 to R176) -/

/-- R145: the integer instructions of RV64IM write rd with their result, write nothing else, and leave x0 at 0. -/
def Obligations.ControlThreadIntegerInstructions : Prop :=
  ∀ (s : State) (rd rs1 rs2 : XReg) (imm : Word),
    let c := s.ctl s.fTask
    let a := c.getX rs1
    let b := c.getX rs2
    let run : Rv → (State → Prop) → Prop := fun i P => completes (.controlThreadInstruction i) s P
    let gives : Rv → (Word → Prop) → Prop := fun i R => run i (fun t => ∃ r, R r ∧ ctWrites s t rd r)
    let sh := imm.toNat % 64
    gives (.lui rd imm) (fun r => r = imm) ∧ gives (.auipc rd imm) (fun r => r = c.pc + imm) ∧
    gives (.opImm .addi rd rs1 imm) (aluSays .add a imm) ∧ gives (.opImm .xori rd rs1 imm) (aluSays .xor a imm) ∧
    gives (.opImm .ori rd rs1 imm) (aluSays .or a imm) ∧ gives (.opImm .andi rd rs1 imm) (aluSays .and a imm) ∧
    gives (.opImm .slti rd rs1 imm) (fun r => r = if a.toInt < imm.toInt then 1 else 0) ∧
    gives (.opImm .sltiu rd rs1 imm) (fun r => r = if a.toNat < imm.toNat then 1 else 0) ∧
    gives (.opImm .slli rd rs1 imm) (shiftSays .shl a sh) ∧ gives (.opImm .srli rd rs1 imm) (shiftSays .shr a sh) ∧
    gives (.opImm .srai rd rs1 imm) (shiftSays .sra a sh) ∧
    gives (.opImm .addiw rd rs1 imm) (signs32 (a.toNat + imm.toNat)) ∧
    gives (.opImm .slliw rd rs1 imm) (signs32 (a.toNat * 2 ^ (imm.toNat % 32))) ∧
    gives (.opImm .srliw rd rs1 imm) (signs32 (a.toNat % 2 ^ 32 / 2 ^ (imm.toNat % 32))) ∧
    gives (.opImm .sraiw rd rs1 imm) (fun r => r.toInt = sx a.toNat 32 / (2 ^ (imm.toNat % 32) : Nat)) ∧
    gives (.op .add rd rs1 rs2) (aluSays .add a b) ∧ gives (.op .sub rd rs1 rs2) (aluSays .sub a b) ∧
    gives (.op .xor rd rs1 rs2) (aluSays .xor a b) ∧ gives (.op .or rd rs1 rs2) (aluSays .or a b) ∧
    gives (.op .and rd rs1 rs2) (aluSays .and a b) ∧
    gives (.op .slt rd rs1 rs2) (fun r => r = if a.toInt < b.toInt then 1 else 0) ∧
    gives (.op .sltu rd rs1 rs2) (fun r => r = if a.toNat < b.toNat then 1 else 0) ∧
    gives (.op .sll rd rs1 rs2) (shiftSays .shl a (b.toNat % 64)) ∧ gives (.op .srl rd rs1 rs2) (shiftSays .shr a (b.toNat % 64)) ∧
    gives (.op .sra rd rs1 rs2) (shiftSays .sra a (b.toNat % 64)) ∧
    gives (.op .addw rd rs1 rs2) (signs32 (a.toNat + b.toNat)) ∧
    gives (.op .subw rd rs1 rs2) (signs32 (a.toNat + (2 ^ 64 - b.toNat))) ∧
    gives (.op .sllw rd rs1 rs2) (signs32 (a.toNat * 2 ^ (b.toNat % 32))) ∧
    gives (.op .srlw rd rs1 rs2) (signs32 (a.toNat % 2 ^ 32 / 2 ^ (b.toNat % 32))) ∧
    gives (.op .sraw rd rs1 rs2) (fun r => r.toInt = sx a.toNat 32 / (2 ^ (b.toNat % 32) : Nat)) ∧
    gives (.op .mul rd rs1 rs2) (mulSays .mul a b) ∧ gives (.op .mulh rd rs1 rs2) (mulSays .mulh a b) ∧
    gives (.op .mulhu rd rs1 rs2) (mulSays .mulhu a b) ∧ gives (.op .mulhsu rd rs1 rs2) (mulSays .mulhsu a b) ∧
    gives (.op .mulw rd rs1 rs2) (signs32 (a.toNat * b.toNat)) ∧
    (let x := sx a.toNat 32; let y := sx b.toNat 32; let m := a.toNat % 2 ^ 32; let n := b.toNat % 2 ^ 32
     gives (.op .divw rd rs1 rs2) (fun r => if n = 0 then r.toInt = -1 else signs32 (wrap (x.tdiv y) 32) r) ∧
     gives (.op .divuw rd rs1 rs2) (fun r => if n = 0 then r.toInt = -1 else signs32 (m / n) r) ∧
     gives (.op .remw rd rs1 rs2) (fun r => if n = 0 then signs32 m r else signs32 (wrap (x.tmod y) 32) r) ∧
     gives (.op .remuw rd rs1 rs2) (fun r => if n = 0 then signs32 m r else signs32 (m % n) r)) ∧
    gives (.op .div rd rs1 rs2) (divSays .div a b) ∧ gives (.op .divu rd rs1 rs2) (divSays .divu a b) ∧
    gives (.op .rem rd rs1 rs2) (divSays .rem a b) ∧ gives (.op .remu rd rs1 rs2) (divSays .remu a b)

/-- R145: jumps link the next instruction and go to their target; a branch is taken when its relation holds. -/
def Obligations.ControlThreadJumpsAndBranches : Prop :=
  ∀ (s : State) (rd rs1 rs2 : XReg) (imm : Word) (op : BrOp),
    let c := s.ctl s.fTask
    let next := c.pc + BitVec.ofNat 64 s.fLen
    let taken := relationSays (match op with | .beq => .eq | .bne => .ne | .blt => .lt | .bge => .ge | .bltu => .ltu | .bgeu => .geu)
      (c.getX rs1) (c.getX rs2)
    completes (.controlThreadInstruction (.jal rd imm)) s (fun t => ctJumps s t rd next (c.pc + imm)) ∧
    completes (.controlThreadInstruction (.jalr rd rs1 imm)) s (fun t => ctJumps s t rd next ((c.getX rs1 + imm) &&& ~~~ 1)) ∧
    (taken → completes (.controlThreadInstruction (.br op rs1 rs2 imm)) s (fun t => ctJumps s t 0 0 (c.pc + imm))) ∧
    (¬taken → completes (.controlThreadInstruction (.br op rs1 rs2 imm)) s (fun t => ctJumps s t 0 0 next))

/-- R65, R147, R149: loads, stores, LR, SC and AMOs of the control thread that raise no exception; SC answers 1 without a reservation; an SC or an AMO changes no byte but those it writes and those of the undo log (R383), and no register but rd. -/
def Obligations.ControlThreadMemoryInstructions : Prop :=
  ∀ (s : State) (rd rs1 rs2 : XReg) (imm : Word) (f : StW) (dbl aq rl : Bool),
    let u := s.fTask
    let c := s.ctl u
    let a := (c.getX rs1 + imm).toNat
    let b := (c.getX rs1).toNat
    let n := if dbl then 8 else 4
    let val := fun v => if dbl then BitVec.ofNat 64 v else sextW v 32
    let others : State → Prop := fun t =>
      (∀ k, (k < s.colKey u b ∨ s.colKey u b + n ≤ k) → ¬inUndoLog s u k → t.readByte k = s.readByte k) ∧
      (∀ r, r ≠ rd → (t.ctl u).getX r = c.getX r) ∧ (t.ctl u).pc = c.pc + BitVec.ofNat 64 s.fLen ∧ (t.ctl u).mode = c.mode ∧
      (t.ctl u).d = c.d
    (∀ op, let k := rvLdW op
      s.ctFault u .rd false true a k.1 = none → completes (.controlThreadInstruction (.load op rd rs1 imm)) s (fun t =>
        ctWrites s t rd (if k.2 then sextW (s.readSb u c.sb a k.1) (8 * k.1) else BitVec.ofNat 64 (s.readSb u c.sb a k.1)))) ∧
    (s.ctFault u .wr true (decide (f ≠ .d)) a (rvStW f) = none → completes (.controlThreadInstruction (.store f rs1 rs2 imm)) s (fun t =>
      (t.ctl u).sb = c.sb ++ [⟨a, rvStW f, (c.getX rs2).toNat % 2 ^ (8 * rvStW f), (s.arch u).serial⟩] ∧ (t.ctl u).x = c.x ∧
      (t.ctl u).pc = c.pc + BitVec.ofNat 64 s.fLen ∧ sameBytes s t)) ∧
    (s.ctFault u .rd false true b n = none → c.sb = [] → completes (.controlThreadInstruction (.lr dbl rd rs1 aq rl)) s (fun t =>
      (t.ctl u).getX rd = (if rd = 0 then 0 else val (s.read (s.colKey u b) n)) ∧ (t.ctl u).resv = some (b / 8 * 8) ∧ sameBytes s t)) ∧
    (s.ctFault u .wr true (!dbl) b n = none → c.sb = [] → c.resv = some (b / 8 * 8) →
      completes (.controlThreadInstruction (.sc dbl rd rs1 rs2 aq rl)) s (fun t =>
        (t.ctl u).getX rd = 0 ∧ t.read (s.colKey u b) n = (c.getX rs2).toNat % 256 ^ n ∧ (t.ctl u).resv = none ∧ others t)) ∧
    (s.ctFault u .wr true (!dbl) b n = none → c.sb = [] → c.resv ≠ some (b / 8 * 8) →
      completes (.controlThreadInstruction (.sc dbl rd rs1 rs2 aq rl)) s (fun t =>
        (t.ctl u).getX rd = (if rd = 0 then 0 else 1) ∧ (t.ctl u).resv = none ∧ sameBytes s t ∧ others t)) ∧
    (∀ op, s.ctFault u .rw true true b n = none → c.sb = [] → completes (.controlThreadInstruction (.amo op dbl rd rs1 rs2 aq rl)) s (fun t =>
      let old := s.read (s.colKey u b) n
      let v := (c.getX rs2).toNat % 256 ^ n
      (t.ctl u).getX rd = (if rd = 0 then 0 else val old) ∧
      t.read (s.colKey u b) n = (match op with
        | .swap => v
        | .add => old + v
        | .xor => old ^^^ v
        | .and => old &&& v
        | .or => old ||| v
        | .min => if sx old (8 * n) ≤ sx v (8 * n) then old else v
        | .max => if sx old (8 * n) ≤ sx v (8 * n) then v else old
        | .minu => min old v
        | .maxu => max old v) % 256 ^ n ∧ others t)) ∧
    (s.ctFault u .rd false true a 8 = some (4, a) → completes (.controlThreadInstruction (.load .ld rd rs1 imm)) s (fun t =>
      trapsTo s t u false 4 (BitVec.ofNat 64 a)))

/-- R145, R147: ECALL from U-mode, EBREAK, and a privileged instruction in U-mode take their exceptions, the last with its bits in stval; ECALL from S-mode is answered; FENCE goes on. That WFI goes on in every mode is the model's choice (log 42), and stval of EBREAK is 0 or the pc, which the spec leaves open (log 24). -/
def Obligations.SystemInstructionsTrapOrComplete : Prop :=
  ∀ (s : State) (rs1 rs2 : XReg) (i : Instr),
    let u := s.fTask
    let c := s.ctl u
    let priv := i = .controlThreadInstruction .sret ∨ i = .controlThreadInstruction .sfenceVma ∨ (∃ d, i = .dtPark d rs1) ∨
      i = .dtResume rs1 ∨ (∃ d, i = .dtLmigr d rs1 rs2) ∨ ∃ d, i = .dtHarvest d rs1
    (c.mode = .u → completes (.controlThreadInstruction .ecall) s (fun t => trapsTo s t u false 8 0)) ∧
    (c.mode = .s → c.getX 17 ≠ 0x10 → completes (.controlThreadInstruction .ecall) s (fun t =>
      ((t.ctl u).getX 10).toInt = -2 ∧ (t.ctl u).pc = c.pc + BitVec.ofNat 64 s.fLen ∧ (t.ctl u).mode = .s)) ∧
    completes (.controlThreadInstruction .ebreak) s (fun t => ∃ v, (v = 0 ∨ v = c.pc) ∧ trapsTo s t u false 3 v) ∧
    (c.mode = .u → priv → completes i s (fun t => trapsTo s t u false 2 (BitVec.ofNat 64 s.fWord))) ∧
    completes (.controlThreadInstruction .wfi) s (fun t => ctWrites s t 0 0) ∧
    (c.mode = .s → c.getX 17 = 0x10 → c.getX 16 = 3 → c.getX 10 ≠ 0x10 → completes (.controlThreadInstruction .ecall) s (fun t =>
      (t.ctl u).getX 10 = 0 ∧ (t.ctl u).getX 11 = 0 ∧ (t.ctl u).pc = c.pc + BitVec.ofNat 64 s.fLen ∧ (t.ctl u).mode = .s)) ∧
    (c.mode = .s → completes (.controlThreadInstruction .sfenceVma) s (fun t => ctWrites s t 0 0)) ∧
    completes (.controlThreadInstruction (.fence false)) s (fun t => ctWrites s t 0 0) ∧
    completes (.controlThreadInstruction (.fence true)) s (fun t => (t.ctl u).sb = [] ∧ (t.ctl u).x = c.x) ∧
    completes (.controlThreadInstruction .fenceI) s (fun t => (t.ctl u).sb = [] ∧
      ∀ k ∈ t.cores.icopies, k.phys ≠ (s.task u).phys)

/-- R145: SRET in S-mode restores the mode, the interrupt enable and the pc that the trap saved, and changes no x register. -/
def Obligations.SretRestoresWhatTheTrapSaved : Prop :=
  ∀ s : State,
    let u := s.fTask
    let c := s.ctl u
    c.mode = .s → completes (.controlThreadInstruction .sret) s (fun t =>
      (t.ctl u).pc = c.s.sepc ∧ (t.ctl u).mode = (if c.s.stSpp then .s else .u) ∧ (t.ctl u).s.stSie = c.s.stSpie ∧
      (t.ctl u).s.stSpie = true ∧ (t.ctl u).s.stSpp = false ∧ (t.ctl u).x = c.x ∧ (t.ctl u).d = c.d ∧
      t = s.updCtl u (fun _ => t.ctl u) ∧ sameBytes s t)

/-- R10, R56, R145, R146, R154, R155, R248: a CSR instruction, with a register or an immediate, gives the old value and writes the new one (the source, the old value with its bits set, or with its bits cleared); an unknown number, a privileged one in U-mode, a write to a read-only one and a counter that scounteren hides are illegal. The bits that stvec keeps are the model's choice (log 8), and stval is the instruction or 0 where the spec leaves it open (log 24). -/
def Obligations.CsrInstructionsReadAndWrite : Prop :=
  ∀ (s : State) (rd : XReg) (n : BitVec 12) (op : CsrOp) (src : CsrSrc),
    let u := s.fTask
    let c := s.ctl u
    let i : Instr := .controlThreadInstruction (.csr op rd n src)
    let v : Word := match src with | .reg r => c.getX r | .imm k => BitVec.ofNat 64 k.toNat
    let writes := op = .rw ∨ match src with | .reg r => r ≠ 0 | .imm k => k ≠ 0
    let priv := n.toNat / 256 % 4 = 1 ∧ c.mode = .u
    let hidden := c.mode = .u ∧ 0xC00 ≤ n.toNat ∧ n.toNat ≤ 0xC02 ∧ c.s.scounteren.getLsbD (n.toNat - 0xC00) = false
    let illegal := priv ∨ 2 ≤ n.toNat / 256 % 4 ∨ (writes ∧ n.toNat / 1024 = 3) ∨ hidden
    let traps : State → Prop := fun t => ∃ w, (w = 0 ∨ w = BitVec.ofNat 64 s.fWord) ∧ trapsTo s t u false 2 w
    let sstatus := b01 c.s.stSie * 2 + b01 c.s.stSpie * 32 + b01 c.s.stSpp * 256 + b01 c.s.stSum * 2 ^ 18 + b01 c.s.stMxr * 2 ^ 19
    (∀ p ∈ [(0x104, c.s.sie), (0x105, c.s.stvec), (0x106, c.s.scounteren), (0x10A, c.s.senvcfg), (0x140, c.s.sscratch), (0x141, c.s.sepc),
        (0x142, c.s.scause), (0x143, c.s.stval), (0x14D, c.s.stimecmp), (0x5D1, c.d.mtfpend.setWidth 64), (0x5D2, c.d.upPq.setWidth 64),
        (0x5D3, BitVec.ofNat 64 c.d.fibre), (0x5D5, c.d.ecsel.setWidth 64), (0xDDA, c.d.elval)], s.csrValue u p.1 = some p.2) ∧
    (∃ w, s.csrValue u 0x100 = some w ∧ w.toNat % 2 ^ 20 = sstatus) ∧
    (s.csrValue u n.toNat = none → completes i s traps) ∧ (illegal → completes i s traps) ∧
    (∀ old, s.csrValue u n.toNat = some old →
      (priv → completes i s (fun t => trapsTo s t u false 2 (BitVec.ofNat 64 s.fWord))) ∧
      (¬illegal → ¬writes → completes i s (fun t => ctWrites s t rd old)) ∧
      (c.mode = .s → writes →
        let w : Word := match op with | .rw => v | .rs => old ||| v | .rc => old &&& ~~~ v
        let others : State → Prop := fun t => (t.ctl u).getX rd = (if rd = 0 then 0 else old) ∧
          (∀ r, r ≠ rd → (t.ctl u).getX r = c.getX r) ∧ (t.ctl u).pc = c.pc + BitVec.ofNat 64 s.fLen ∧ (t.ctl u).mode = c.mode ∧
          sameBytes s t
        let std : Nat → SCsr → Prop := fun k x => n.toNat = k → completes i s (fun t =>
          (t.ctl u).s = { x with instret := c.s.instret + 1 } ∧ (t.ctl u).d = c.d ∧ t = s.updCtl u (fun _ => t.ctl u) ∧ others t)
        let dev : Nat → DCsr → Prop := fun k x => n.toNat = k → completes i s (fun t =>
          (t.ctl u).s = { c.s with instret := c.s.instret + 1 } ∧ (t.ctl u).d = x ∧ t = s.updCtl u (fun _ => t.ctl u) ∧ others t)
        std 0x100 { c.s with
          stSie := w.getLsbD 1
          stSpie := w.getLsbD 5
          stSpp := w.getLsbD 8
          stSum := w.getLsbD 18
          stMxr := w.getLsbD 19 } ∧
        std 0x104 { c.s with sie := w &&& 0x70222 } ∧ std 0x105 { c.s with stvec := w &&& ~~~ 2 } ∧
        std 0x106 { c.s with scounteren := w &&& 7 } ∧ std 0x10A { c.s with senvcfg := w &&& 1 } ∧
        std 0x140 { c.s with sscratch := w } ∧ std 0x141 { c.s with sepc := w &&& ~~~ 1 } ∧ std 0x142 { c.s with scause := w } ∧
        std 0x143 { c.s with stval := w } ∧ std 0x144 { c.s with ssip := w.getLsbD 1 } ∧ std 0x14D { c.s with stimecmp := w } ∧
        std 0x180 c.s ∧ dev 0x5D2 c.d ∧
        dev 0x5D0 (if w.getLsbD 63 then { c.d with
          elV := false
          elMore := false } else c.d) ∧
        dev 0x5D1 { c.d with mtfpend := c.d.mtfpend &&& ~~~ w.setWidth 10 } ∧
        dev 0x5D3 { c.d with fibre := w.toNat % 2 ^ 22 / 512 * 512 } ∧
        dev 0x5D4 { c.d with
          sig := c.d.sig &&& ~~~ w.setWidth 10
          go := (w >>> 16).setWidth 10 } ∧
        dev 0x5D5 { c.d with ecsel := w.setWidth 8 } ∧
        (∀ k : Fin 16, n.toNat = 0x5C0 + k.val → completes i s (fun t =>
          (t.ctl u).d.lpa[k] = w &&& 0x8000000F03FF03FF ∧ (∀ j : Fin 16, j ≠ k → (t.ctl u).d.lpa[j] = c.d.lpa[j]) ∧ others t))))

/-- R157 to R162: the slot-control instructions of the control thread. -/
def Obligations.SlotControlInstructions : Prop :=
  ∀ (s : State) (rd rs1 rs2 : XReg),
    let u := s.fTask
    let c := s.ctl u
    let a := (c.getX rs1).toNat
    let n := (c.getX rs2).toNat
    let isLine := a < 2 ^ 56 ∧ a % 64 = 0
    let done : State → Word → Prop := fun t v => (t.ctl u).getX rd = (if rd = 0 then 0 else v) ∧ (t.ctl u).pc = c.pc + BitVec.ofNat 64 s.fLen
    let idle : Slot → Prop := fun x => x.st = .free ∨ x.st = .stopped
    (9 < n → completes (.dtStart rd rs1 rs2) s (fun t => ctWrites s t rd 3)) ∧
    (n ≤ 9 → ¬isLine → completes (.dtStart rd rs1 rs2) s (fun t => ctWrites s t rd 2)) ∧
    (n ≤ 9 → isLine → ¬idle (s.slot u n) → completes (.dtStart rd rs1 rs2) s (fun t => ctWrites s t rd 1)) ∧
    (n ≤ 9 → isLine → idle (s.slot u n) → completes (.dtStart rd rs1 rs2) s (fun t =>
      done t 0 ∧ (t.slot u n).st = .ready ∧ (t.slot u n).ind = true ∧ (t.slot u n).pc.toNat = a + 2 ∧
      (∀ r : Reg, r.toNat < 10 → (t.slot u n).getM r = if (s.slot u n).st = .stopped then (s.slot u n).getM r else 0) ∧
      (∀ j, j ≠ n → t.slot u j = s.slot u j) ∧ sameBytes s t)) ∧
    (∀ s' img, isLine → s.fetchLine u a = (s', .ok img) → s'.fTask = u → (lineType img = 1 ∨ lineType img = 5) →
      completes (.dtBcast rd rs1 rs2) s (fun t =>
        (∀ i < 10, (c.getX rs2).getLsbD i = true → (s'.slot u i).takesLine = true →
          (t.slot u i).st = .ready ∧ (t.slot u i).line.img = some img ∧ (t.slot u i).pc.toNat = a + 2) ∧
        (∀ i < 10, (c.getX rs2).getLsbD i = false ∨ (s'.slot u i).takesLine = false → t.slot u i = s'.slot u i) ∧
        (rd ≠ 0 → ∀ i < 10, ((t.ctl u).getX rd).getLsbD i = ((c.getX rs2).getLsbD i && !(s'.slot u i).takesLine)))) ∧
    (¬isLine → completes (.dtBcast rd rs1 rs2) s (fun t => ∃ v, v.getLsbD 63 = true ∧ ctWrites s t rd v)) ∧
    (9 < a → completes (.dtMtstat rd rs1) s (fun t => ∃ v : Word, v.toInt = -1 ∧ ctWrites s t rd v)) ∧
    (a ≤ 9 → completes (.dtMtstat rd rs1) s (fun t =>
      let x := s.slot u a
      ctWrites s t rd (BitVec.ofNat 64 (x.st.code + (if x.ind then 8 else 0) + x.wr.code * 16 +
        if x.st = .faulted then (vget 0 c.d.mtfinfo a).toNat / 2 ^ 56 * 256 else 0)))) ∧
    completes (.dtMtkill rd rs1) s (fun t =>
      (∀ i < 10, (c.getX rs1).getLsbD i = true → (s.slot u i).killable = true → (t.slot u i).st = .free) ∧
      (∀ i < 10, (c.getX rs1).getLsbD i = false → t.slot u i = s.slot u i) ∧
      (rd ≠ 0 → ∀ i < 10, ((t.ctl u).getX rd).getLsbD i = ((c.getX rs1).getLsbD i && (s.slot u i).killable)) ∧ sameBytes s t) ∧
    ((∀ i < 10, (c.getX rs1).getLsbD i = true → (s.slot u i).idle = true) → completes (.dtMtwait rd rs1) s (fun t =>
      ∃ v : Word, (∀ i < 10, v.getLsbD i = ((c.getX rs1).getLsbD i && decide ((s.slot u i).st = .faulted))) ∧ ctWrites s t rd v)) ∧
    (∀ i < 10, (c.getX rs1).getLsbD i = true → (s.slot u i).idle = false → completes (.dtMtwait rd rs1) s (fun t =>
      (t.ctl u).wait = .mtwait rd.toNat (a % 1024) ∧ (t.ctl u).pc = c.pc ∧ (t.ctl u).x = c.x)) ∧
    (9 < a → completes (.dtMtgo rd rs1) s (fun t => ctWrites s t rd 3)) ∧
    (a ≤ 9 → (s.slot u a).st ≠ .faulted → completes (.dtMtgo rd rs1) s (fun t => ctWrites s t rd 1)) ∧
    (a ≤ 9 → (s.slot u a).st = .faulted → rollbackSet ((vget 0 c.d.mtfinfo a).toNat / 2 ^ 56) = true →
      completes (.dtMtgo rd rs1) s (fun t => ctWrites s t rd 2)) ∧
    (a ≤ 9 → (s.slot u a).st = .faulted → rollbackSet ((vget 0 c.d.mtfinfo a).toNat / 2 ^ 56) = false →
      completes (.dtMtgo rd rs1) s (fun t => done t 0 ∧ (t.slot u a).st = .ready ∧ keepsRegs (s.slot u a) (t.slot u a) ∧
        (t.slot u a).pc = (s.slot u a).pc ∧ ∀ k < 10, (t.ctl u).d.mtfpend.getLsbD k = (decide (k ≠ a) && c.d.mtfpend.getLsbD k)))

/-- R163 to R168, R174, R175: the core superstep, launches and joins, capabilities, the trigger and NX. -/
def Obligations.SuperstepLaunchAndJoinInstructions : Prop :=
  ∀ (s s' : State) (rd rs1 : XReg) (nx : Bool) (r : Reply) (k : Nat) (x : Kernel),
    let u := s.fTask
    let c := s.ctl u
    let a := (c.getX rs1).toNat
    let handed : Prop := ∀ e v, r ≠ .exc e v
    completes .dtCbar s (fun t => (∃ j n l, (t.ctl u).wait = .cbar (s.arch u).serial j n l) ∧ (t.ctl u).pc = c.pc ∧ sameBytes s t) ∧
    (s.dies.electing = false → s.launchAt u a = (s', r) → handed →
      completes (.dtLaunch rd rs1) s (fun t => ctWrites (s'.launched u r) t rd r.word)) ∧
    (s.dies.electing = false → s.launchAt u a = (s', r) → handed → r ≠ .full →
      completes (.dtLaunchW rd rs1) s (fun t => ctWrites (s'.launched u r) t rd r.word)) ∧
    (s.dies.electing = false → s.launchAt u a = (s', .full) → s'.fTask = u → completes (.dtLaunchW rd rs1) s (fun t =>
      (t.ctl u).wait = .launchW rd.toNat a s'.now ∧ (t.ctl u).pc = (s'.ctl u).pc)) ∧
    completes .dtTrigger s (fun t => (t.arch u).triggered = true ∧ (t.ctl u).pc = c.pc + BitVec.ofNat 64 s.fLen ∧ (t.ctl u).x = c.x ∧ sameBytes s t) ∧
    (s.heldKernel s.me.ctx a = none → completes (.dtJoink rd rs1) s (fun t => ctWrites s t rd 1)) ∧
    (s.heldKernel s.me.ctx a = some k → s.kernel k = some x → x.st.over = true → x.joined = false →
      completes (.dtJoink rd rs1) s (fun t =>
        (t.ctl u).getX rd = (if rd = 0 then 0 else if x.st = .complete then 0 else 2) ∧
        ∃ y, t.kernel k = some y ∧ y.joined = true ∧ y.held = false)) ∧
    (s.heldKernel s.me.ctx a = some k → s.kernel k = some x → x.st.over = false → completes (.dtJoink rd rs1) s (fun t =>
      (t.ctl u).wait = .joink rd.toNat k ∧ (t.ctl u).pc = c.pc)) ∧
    (c.getX rs1 = 0 → completes (.dtCaps rd rs1) s (fun t => ∃ v : Word,
      v.getLsbD 0 = !(s.onVega u) ∧ v.getLsbD 1 = s.onVega u ∧ ctWrites s t rd v)) ∧
    (c.getX rs1 ≠ 0 → c.getX rs1 ≠ 1 → completes (.dtCaps rd rs1) s (fun t => ctWrites s t rd 0)) ∧
    completes (.dtNxset nx) s (fun t => (t.eng u).nx = nx ∧ (t.ctl u).pc = c.pc + BitVec.ofNat 64 s.fLen ∧ (t.ctl u).x = c.x ∧ sameBytes s t)

/-- R64, R170, R171, R173, R176: fibres, migration and harvests in S-mode: DT_PARK moves UPPEND into the record, DT_RESUME loads a fibre, each location as it has been read ahead or as it is now, and leaves for U-mode, DT_LMIGR starts a move or says by its status why not, DT_HARVEST gives the time of its end. The order of the statuses, a save under way as status 4, a bit above bit 16 as status 3 and another task's reserved core as status 1 are the model's (log 30), as are bit 0 of the pc that DT_RESUME clears (log 103) and bits 63:56 of the address that DT_HARVEST drops (log 124). -/
def Obligations.FibreMigrationAndHarvestInstructions : Prop :=
  ∀ (s : State) (rd rs1 rs2 : XReg),
    let u := s.fTask
    let c := s.ctl u
    let a := (c.getX rs1).toNat
    let f := (c.getX rs2).toNat
    let loc : Nat → Word := fun o => match SMap.find c.ahead o with | some w => w | none => BitVec.ofNat 64 (s.read (s.colKey u o) 8)
    let p : Phys := ⟨a % 32, a / 32 % 32, a / 1024 % 128⟩
    let bad := 2 ^ 17 ≤ a ∨ p.exists = false ∨ s.fencedDie p.d = true ∨ s.regionFenced p.d p.region = true ∨ p ∈ s.cores.retired
    let other := Config.vegaken p.d ≠ Config.vegaken (s.task u).phys.d
    let busy := s.coordOn p ≠ none ∨ s.takenFor u p = true
    let status : Nat → Prop := fun n => completes (.dtLmigr rd rs1 rs2) s (fun t => ctWrites s t rd (BitVec.ofNat 64 n))
    c.mode = .s →
    (s.fibreFault u a [] = none → c.sb = [] → completes (.dtPark rd rs1) s (fun t =>
      let m := s.read (s.colKey u (a + 256)) 8 ||| c.d.upPq.toNat
      t.read (s.colKey u (a + 256)) 8 = m ∧ t.read (s.colKey u (a + 264)) 8 = 1 ∧ (t.ctl u).d.upPq = 0 ∧
      (t.ctl u).getX rd = (if rd = 0 then 0 else BitVec.ofNat 64 m))) ∧
    (s.fibreFault u a ((List.range 32).map (8 * ·)) = none → c.sb = [] → completes (.dtResume rs1) s (fun t =>
      let m := (loc (a + 256)).toNat
      (∀ i : XReg, i ≠ 0 → (t.ctl u).getX i = loc (a + 8 * i.toNat)) ∧
      (t.ctl u).pc = loc a &&& ~~~ 1 ∧ (t.ctl u).mode = .u ∧
      t.read (s.colKey u (a + 256)) 8 = 0 ∧ t.read (s.colKey u (a + 264)) 8 = 2 ∧
      (∀ q < 4, (t.eng u).parkedQ q = ((s.eng u).parkedQ q && !m.testBit q)) ∧ (t.ctl u).s.stSie = c.s.stSpie)) ∧
    (f ≠ 0 → status 5) ∧
    (f = 0 → (s.task u).st ≠ .running → status 4) ∧
    (f = 0 → (s.task u).st = .running → bad → status 3) ∧
    (f = 0 → (s.task u).st = .running → ¬bad → other → status 2) ∧
    (f = 0 → (s.task u).st = .running → ¬bad → ¬other → busy → status 1) ∧
    (f = 0 → (s.task u).st = .running → ¬bad → ¬other → ¬busy → completes (.dtLmigr rd rs1 rs2) s (fun t =>
      (t.task u).st = .quiesceMove ∧ (t.task u).landing = some p ∧ (t.task u).mvWhy = .lmigr ∧
      (t.ctl u).getX rd = 0 ∧ (t.ctl u).pc = c.pc + BitVec.ofNat 64 s.fLen)) ∧
    (s.ctFault u .rd false true a 16 = none → s.readSb u c.sb (a + 8) 8 = 0 → completes (.dtHarvest rd rs1) s (fun t =>
      ctWrites s t rd (BitVec.ofNat 64 s.now))) ∧
    (s.ctFault u .rd false true a 16 = none → s.readSb u c.sb (a + 8) 8 ≠ 0 → completes (.dtHarvest rd rs1) s (fun t =>
      ∃ due, s.now ≤ due ∧ due ≤ s.now + 32000 ∧ (t.ctl u).getX rd = (if rd = 0 then 0 else BitVec.ofNat 64 due) ∧
        t.pg.jobs = s.pg.jobs ++ [.harvest s.me.ctx (s.readSb u c.sb a 8 % 2 ^ 56 / 65536 * 65536) (s.readSb u c.sb (a + 8) 8) 0 due]))

/-! ### Queues and command processors (R308 to R329) -/

/-- R317 to R328: the records of a queue in their effect: what retires at once, what waits, what is written, and where the next record is. That a misaligned address gives error 0x05 before any other check is the model's order (log 62), and what STAMP does at a poisoned word its reading (log 63). -/
def Obligations.QueueRecordsHaveTheirEffect : Prop :=
  ∀ (s s' u : State) (c : QCond) (v : BitVec 48) (a w : Word) (n : BitVec 11) (b m : BitVec 6) (k h : Nat) (l : List Word)
    (dp sp : SMap (Nat × Bool)) (X : Parts),
    let q := s.fQueue
    let x := s.queue q
    let stored := fun (w : Word) => ((s.writeWord k false w .none).queueGather x.ctx a.toNat true).wake k
    let held := fun (v : Nat) (add : Bool) => State.updQueue { s with pg := { s.pg with
      held := s.pg.held ++ [⟨k, a.toNat, x.ctx, v, add, false, true, q, .record⟩] } } q Queue.acted
    let landed := x.kcopies = [] ∧ s.heldBy q [.kcopy] = false
    let idle := landed ∧ s.heldBy q [.kernel] = false ∧ ∀ j ∈ x.kernels, ∀ y, s.kernel j = some y → y.st.over = true
    let bar := ((s.ctx x.ctx).qbar b.toNat).getD ⟨b.toNat, m.toNat + 1, []⟩
    let here := if bar.queues.contains q then bar.queues else bar.queues ++ [q]
    let copy : KCopy := ⟨(l.getD 0 0).toNat, (l.getD 1 0).toNat, (l.getD 2 0).toNat, (l.getD 3 0).toNat, s.oldestGrant x.ctx (dp ++ sp), dp, sp, [], [],
      (x.kcopies.map (·.num)).foldl max 0 + 1⟩
    completes .nopq s (fun t => recordRetires s t q (x.point.map (· + 16))) ∧
    (a.toNat % 8 = 0 → s.queueWord x.gate x.ctx a.toNat = .ok w → QCond.holds c w.toNat v.toNat = true →
      completes (.semwait c v a) s (fun t => recordRetires (s.queueGather x.ctx a.toNat false) t q (x.point.map (· + 16)))) ∧
    (a.toNat % 8 = 0 → s.queueWord x.gate x.ctx a.toNat = .ok w → QCond.holds c w.toNat v.toNat = false →
      runs (.semwait c v a) s ((s.queueGather x.ctx a.toNat false).updQueue q (fun x =>
        { x with st := .waiting, wait := .sem a.toNat c v.toNat s.now 0 (s.now + 1000) none }))) ∧
    (a.toNat % 8 = 0 → s.queueFixed x.gate x.ctx .w a.toNat = .ok k → (s.readWord k false).2 = .none →
      (s.writeHeld k = false → runs (.semset v a) s ((stored (BitVec.ofNat 64 v.toNat)).updQueue q Queue.acted) ∧
        (w.toNat = min ((s.readWord k false).1.toNat + v.toNat) (2 ^ 64 - 1) → runs (.semsig v a) s ((stored w).updQueue q Queue.acted))) ∧
      (s.writeHeld k = true → runs (.semset v a) s (held v.toNat false) ∧ runs (.semsig v a) s (held v.toNat true))) ∧
    (s.dies.electing = false → v.toNat % 8 = 0 → s.completionFault x.gate x.ctx v.toNat = none → a.toNat % 64 = 0 →
      s.queueWords x.gate x.ctx 8 a.toNat = .ok l → s.readLaunch (s.queueOffer q) (LaunchRec.ofWords l) = (u, .ok X) →
      (u.offerParts (u.queueOffer q) (LaunchRec.ofWords l) X v.toNat = (s', .given h) →
        completes (.klaunch v a) s (fun t => recordRetires s' t q ((s'.queue q).point.map (· + 16)))) ∧
      (u.offerParts (u.queueOffer q) (LaunchRec.ofWords l) X v.toNat = (s', .full) →
        runs (.klaunch v a) s (s'.updQueue q (fun x => { x with st := .waiting, wait := .pool u.now v.toNat (LaunchRec.ofWords l) X })))) ∧
    (a.toNat % 16 = 0 → s.queueWords x.gate x.ctx 4 a.toNat = .ok l → s.hostDown = false → copy.sem % 8 = 0 → copy.dst % 8 = 0 →
      copy.src % 8 = 0 → copy.bytes % 8 = 0 → copy.bytes < 2 ^ 40 → overlapping copy.dst copy.src copy.bytes = false →
      queueForm copy.dst = true → queueForm copy.src = true →
      s.kcopyPages x.gate x.ctx .w copy.dst (copy.dst / 65536) (pagesIn copy.dst copy.bytes) = .ok dp →
      s.kcopyPages x.gate x.ctx .r copy.src (copy.src / 65536) (pagesIn copy.src copy.bytes) = .ok sp →
      s.completionFault x.gate x.ctx copy.sem = none → completes (.kcopy a) s (fun t =>
        t.queue q = { x with kcopies := x.kcopies ++ [copy], st := .active, wait := .none, retiring := true } ∧
        (∀ j, j ≠ q → t.queue j = s.queue j) ∧ t.tasks = s.tasks ∧ t.kernels = s.kernels)) ∧
    (m ≠ 0 → bar.n = m.toNat + 1 → here.length ≤ m.toNat → runs (.qbar b m) s
      ((s.updCtx x.ctx (fun x => x.putQbar ⟨b.toNat, m.toNat + 1, here⟩)).updQueue q (fun x =>
        { x with st := .waiting, wait := .qbar b.toNat }))) ∧
    (m ≠ 0 → bar.n = m.toNat + 1 → m.toNat < here.length → here.Nodup → completes (.qbar b m) s (fun t =>
      (∀ j ∈ here, retiresTo (s.queue j) (t.queue j) ((s.queue j).point.map (· + 16))) ∧ (∀ j, j ∉ here → t.queue j = s.queue j) ∧
      (t.ctx x.ctx).qbar b.toNat = none)) ∧
    (16 ≤ n.toNat → landed → s.hostDown = false → runs (.intr n) s (State.updQueue { s with msix := s.msix ++ [n.toNat] } q Queue.acted)) ∧
    (16 ≤ n.toNat → ¬landed ∨ s.hostDown = true → runs (.intr n) s (s.updQueue q (fun x => { x with st := .waiting, wait := .copies (some n.toNat) }))) ∧
    (x.point ≠ none → a.toNat % 16 = 0 → s.queueFixed x.gate x.ctx .r a.toNat = .ok k → completes (.jump a) s (fun t =>
      recordRetires s t q (some a.toNat))) ∧
    (x.sdepth < 3 → a.toNat % 16 = 0 → s.queueFixed x.gate x.ctx .r a.toNat = .ok k → completes (.callq a) s (fun t =>
      recordRetires s t q (some a.toNat) ∧ (t.queue q).sdepth = x.sdepth + 1 ∧
      (t.queue q).retstk = x.retstk.set x.sdepth (match x.point with | none => 0 | some p => (p + 16) % 2 ^ 64))) ∧
    (x.point ≠ none → completes .retq s (fun t =>
      let r := x.retstk.getD (x.sdepth - 1) 0
      recordRetires s t q (if r = 0 then none else some r) ∧ (t.queue q).sdepth = x.sdepth - 1)) ∧
    (idle → completes .waitidle s (fun t => recordRetires s t q (x.point.map (· + 16)))) ∧
    (¬idle → runs .waitidle s (s.updQueue q (fun x => { x with st := .waiting, wait := .idle none }))) ∧
    (a.toNat % 8 = 0 → s.queueFixed x.gate x.ctx .w a.toNat = .ok k →
      (s.writeHeld k = false → runs (.stamp false a) s ((stored (BitVec.ofNat 64 s.now)).updQueue q Queue.acted)) ∧
      (s.writeHeld k = true → runs (.stamp false a) s (held s.now false)) ∧
      (idle → s.writeHeld k = false → runs (.stamp true a) s ((stored (BitVec.ofNat 64 s.now)).updQueue q Queue.acted)) ∧
      (¬idle → runs (.stamp true a) s (s.updQueue q (fun x => { x with st := .waiting, wait := .idle (some a.toNat) })))) ∧
    (landed → completes .fenceq s (fun t => recordRetires s t q (x.point.map (· + 16)))) ∧
    (¬landed → runs .fenceq s (s.updQueue q (fun x => { x with st := .waiting, wait := .copies none }))) ∧
    (x.retiring = false →
      (a.toNat % 8 ≠ 0 → completes (.semwait c v a) s (fun t => queueStops s t q 0x05) ∧ completes (.semsig v a) s (fun t => queueStops s t q 0x05) ∧
        completes (.semset v a) s (fun t => queueStops s t q 0x05)) ∧
      completes (.qbar b 0) s (fun t => queueStops s t q 0x16) ∧
      (n.toNat < 16 → completes (.intr n) s (fun t => queueStops s t q 0x16)) ∧
      (x.point = none → completes (.jump a) s (fun t => queueStops s t q 0x16) ∧ completes .retq s (fun t => queueStops s t q 0x16)) ∧
      (3 ≤ x.sdepth → completes (.callq a) s (fun t => queueStops s t q 0x16)))

/-- R313 to R316, R320, R323, R328, R337: queue commands and doorbells, service and retirement of records, the reads again of SEMWAIT, the words and the end of a KCOPY, and the entry that a waiter of the pool gets. A KCOPY ends only when every word has landed; a word whose two ends lie at the queue's own gateway is read and landed in one step, one that lies elsewhere has packets on the data class (the model's reading of R323 and R418, logs 13 and 35). A KCOPY past its lease whose entry now fails stops its queue (log 119), and a dt.launch.w that waits executes again where no interrupt is pending and enabled (log 115). -/
def Obligations.QueueEvents : Prop :=
  ∀ (s s' : State) (q h n : Nat) (w : BitVec 32) (l : List Word) (i : Instr) (v : Word) (X : Parts),
    let k := q % 1024
    let x := s.queue k
    let status := fun (c : Nat) => { s with mg := { s.mg with qStatus := c, qLast := k } }
    let f := fun o b => s.queueField k o b
    (s.mg.qBusy = true → runs (.queueCreate q) s s ∧ runs (.queueResume q) s s ∧ runs (.queueDestroy q) s s) ∧
    (s.mg.qBusy = false →
      (x.st ≠ .free → runs (.queueCreate q) s (status 2)) ∧
      (x.st = .free → f 12 2 < 4096 → (s.ctx (f 12 2)).st = .defined ∨ (s.ctx (f 12 2)).st = .resident →
        (s.queuesOf (f 12 2)).length < 64 → s.queueDescOk k (s.ctx (f 12 2)) = true → completes (.queueCreate q) s (fun t =>
          let y := t.queue k
          y.st = (if (s.ctx (f 12 2)).st = .resident then .idle else .suspended) ∧ y.prior = .idle ∧ y.rbase = f 0 8 ∧ y.rsize = f 8 4 ∧
          y.ctx = f 12 2 ∧ y.prio = f 14 1 ∧ (y.bulk = true ↔ f 15 1 = 1) ∧ y.rptr = 0 ∧ y.wptr = 0 ∧ y.cp = s.bindCp ∧ t.mg.qCp = s.bindCp ∧
          t.mg.qStatus = 0 ∧ t.mg.qLast = k ∧ (∀ j, j ≠ k → t.queue j = s.queue j) ∧ t.tasks = s.tasks)) ∧
      (x.st ≠ .error → runs (.queueResume q) s (status 2)) ∧
      (x.st = .error → completes (.queueResume q) s (fun t => (t.queue k).st = .active ∧ (t.queue k).rptr = x.rptr ∧
        (t.queue k).point = x.point ∧ t.mg.qStatus = 0 ∧ ∀ j, j ≠ k → t.queue j = s.queue j)) ∧
      (x.st = .free ∨ x.st = .active ∨ x.st = .waiting → runs (.queueDestroy q) s (status 2)) ∧
      (x.st = .idle ∨ x.st = .error ∨ x.st = .suspended ∨ x.st = .halted → completes (.queueDestroy q) s (fun t =>
        (if x.kcopies = [] then (t.queue k).st = .free else (t.queue k).destroying = true) ∧ (t.mg.qBusy = true ↔ x.kcopies ≠ []) ∧
        t.mg.qStatus = 0 ∧ ∀ j, j ≠ k → t.queue j = s.queue j))) ∧
    (x.st ≠ .free → x.st ≠ .halted → x.destroying = false →
      ((x.wptr - x.rptr).toNat ≤ (w - x.rptr).toNat → (w - x.rptr).toNat ≤ x.rsize → w ≠ x.wptr →
        completes (.queueDoorbell q w) s (fun t => (t.queue k).wptr = w ∧ (t.queue k).rptr = x.rptr ∧
          (t.queue k).st = (if x.st = .idle then .active else x.st) ∧ t = s.updQueue k (fun _ => t.queue k))) ∧
      ((w - x.rptr).toNat < (x.wptr - x.rptr).toNat ∨ x.rsize < (w - x.rptr).toNat → x.retiring = false →
        completes (.queueDoorbell q w) s (fun t => queueStops s t k 0x16))) ∧
    (s.nextServed h = none → runs (.recordService h) s s) ∧
    (s.nextServed h = some q → s.hostDown = false →
      let u := { s with fQueue := q, mg := { s.mg with served := SMap.put s.mg.served h q } }
      let y := s.queue q
      let a := match y.point with | some a => a | none => y.rbase + 16 * (y.rptr.toNat % y.rsize)
      (y.point = none → y.rptr = y.wptr → runs (.recordService h) s (u.updQueue q (fun y => { y with st := .idle }))) ∧
      (y.point ≠ none ∨ y.rptr ≠ y.wptr → u.queueWords y.gate y.ctx 2 a = .ok l →
        Decode.decodeRec ((l.getD 0 0).toNat + (l.getD 1 0).toNat * 2 ^ 64) = .ok i → completes (.recordService h) s (fun t =>
          exec i (u.queueGather y.ctx a false) = .next t))) ∧
    (let y := s.queue q
     let past := y.point.map (· + 16)
     let done := y.kcopies = [] ∧ s.heldBy q [.kcopy] = false
     let idle := done ∧ s.heldBy q [.kernel] = false ∧ ∀ j ∈ y.kernels, ∀ z, s.kernel j = some z → z.st.over = true
     (y.st = .active → y.retiring = true → s.heldBy q [.record] = true → runs (.recordRetirement q) s s) ∧
     (y.st = .active → y.retiring = true → s.heldBy q [.record] = false → completes (.recordRetirement q) s (fun t => recordRetires s t q past)) ∧
     (y.st = .waiting → y.wait = .idle none → idle → completes (.recordRetirement q) s (fun t => recordRetires s t q past)) ∧
     (y.st = .waiting → y.wait = .copies none → done → completes (.recordRetirement q) s (fun t => recordRetires s t q past)) ∧
     (y.st = .waiting → y.wait = .copies (some n) → done → s.hostDown = false → completes (.recordRetirement q) s (fun t =>
       recordRetires { s with msix := s.msix ++ [n] } t q past)) ∧
     (∀ a c b t0 k at_ woken, y.st = .waiting → y.wait = .sem a c b t0 k at_ woken → s.hostDown = false → s.queueWord y.gate y.ctx a = .ok v →
       let read := s.queueGather y.ctx a false
       (at_ ≤ s.now → QCond.holds c v.toNat b = true → completes (.semwaitReread q) s (fun t => recordRetires read t q past)) ∧
       (at_ ≤ s.now → QCond.holds c v.toNat b = false → k ≤ 8 → runs (.semwaitReread q) s (read.updQueue q (fun y =>
         { y with st := .waiting, wait := .sem a c b t0 (k + 1) (t0 + 1000 * (2 ^ (k + 2) - 1)) woken }))) ∧
       (woken ≠ none → QCond.holds c v.toNat b = true → completes (.localWake q) s (fun t => recordRetires read t q past)) ∧
       (woken ≠ none → QCond.holds c v.toNat b = false → runs (.localWake q) s (read.updQueue q (fun y =>
         { y with st := .waiting, wait := .sem a c b s.now 0 (s.now + 1000) none })))) ∧
     (∀ k, y.kcopies[n]? = some k → (∀ z, y.kcopies[n + 1]? = some z → z.num ≠ k.num) →
       let word := WordOwner.kcopy q k.num
       let here := (gatePoint y.gate).d
       let stops := fun (c : Nat) => completes (.kcopyComplete q n) s (fun t => (t.queue q).st = .error ∧ (t.queue q).errcode = c ∧
         (t.queue q).kcopies = y.kcopies.eraseIdx n ∧ sameBytes s t)
       let goes := s.kcopyCut y.gate k = false ∧ s.hostDown = false ∧ s.kcopyFault y.gate y.ctx k = none
       let fresh : Nat → Prop := fun j => j < k.bytes / 8 ∧ j ∉ k.landed ∧ j ∉ k.sent ∧ s.wordPacket word j = none
       let live := y.destroying = false ∧ (y.st = .idle ∨ y.st = .active ∨ y.st = .waiting) ∧ 8 ≤ k.bytes
       (goes → (∀ j < k.bytes / 8, j ∈ k.landed) → k.bytes / 8 ≤ k.landed.length → (∀ j, s.wordPacket word j = none) →
         completes (.kcopyComplete q n) s (fun t =>
           (t.queue q).kcopies = y.kcopies.eraseIdx n ∧ (y.destroying = true → y.kcopies.length = 1 → (t.queue q).st = .free) ∧
           (∀ j, j ≠ q → (t.queue j).kcopies = (s.queue j).kcopies) ∧ (k.sem = 0 → sameBytes s t) ∧
           (∀ a, k.sem ≠ 0 → s.semKey .w y.gate y.ctx k.sem = some a → s.writeHeld a = true → sameBytes s t ∧
             t.pg.held = s.pg.held ++ [⟨a, k.sem, y.ctx, 1, true, false, true, q, .kcopy⟩]) ∧
           (∀ a, k.sem ≠ 0 → s.semKey .w y.gate y.ctx k.sem = some a → s.writeHeld a = false → (s.readWord a false).2 = .none →
             (s.readWord a false).1.toNat < 2 ^ 64 - 1 → (t.readWord a false).1 = (s.readWord a false).1 + 1))) ∧
       (∀ j dst src, goes → fresh j → s.kcopySpot y.gate y.ctx .w k k.dpages (k.dst + 8 * j) = some dst → s.writeHeld dst.1 = false →
         s.kcopySpot y.gate y.ctx .r k k.spages (k.src + 8 * j) = some src → (s.memPoint 0 src.1).d = here →
         (s.memPoint 0 dst.1).d = here → s.kcopyStep q n j =
           (((s.gatherAt y.ctx (k.src + 8 * j) false).writeWord dst.1 dst.2 (s.readWord src.1 src.2).1 (s.readWord src.1 src.2).2).gatherAt
             y.ctx (k.dst + 8 * j) true).updKcopy q k.num (fun z => z.done j)) ∧
       (∀ j dst src, goes → fresh j → s.kcopySpot y.gate y.ctx .w k k.dpages (k.dst + 8 * j) = some dst → s.writeHeld dst.1 = false →
         s.kcopySpot y.gate y.ctx .r k k.spages (k.src + 8 * j) = some src → (s.memPoint 0 src.1).d ≠ here →
         s.kcopyStep q n j = s.kcopySend q y.gate y.ctx k j src.1 .read ∧ sameBytes s (s.kcopyStep q n j)) ∧
       (∀ j m p, goes → s.wordPacket word j = some (m, p, .ack) → p.lost = false →
         s.kcopyStep q n j = (s.takePacket m).updKcopy q k.num (fun z => z.done j)) ∧
       (live → s.kcopyCut y.gate k = true → stops 0x15) ∧
       (∀ c, live → s.kcopyCut y.gate k = false → s.hostDown = false → s.kcopyFault y.gate y.ctx k = some c → stops c))) ∧
    (s.dies.electing = false → s.tableFull = false →
      (s.nextWaiter = none → runs .poolEntryFreed s s) ∧
      (∀ c since sem rec, s.nextWaiter = some (n, c, .queue q) → (s.queue q).wait = .pool since sem rec X →
        s.offerParts (s.queueOffer q) rec X sem = (s', .given h) →
        completes .poolEntryFreed s (fun t => recordRetires s' t q ((s'.queue q).point.map (· + 16)))) ∧
      (∀ c rd a since, s.nextWaiter = some (n, c, .task q) → (s.ctl q).wait = .launchW rd a since → (s.task q).st = .running →
        (s.task q).halted = false → (s.task q).ending = false → s.interrupt q = none →
        (s.updTask q (fun k => { k with resumedFor := none })).launchAt q a = (s', .given h) → completes .poolEntryFreed s (fun t =>
          (t.ctl q).wait = .none ∧ (t.ctl q).pc = (s'.ctl q).pc + 4 ∧
          (0 < rd → rd < 32 → (t.ctl q).getX (BitVec.ofNat 5 rd) = BitVec.ofNat 64 h))))

/-! ### Contexts (R289 to R297) -/

/-- R291 to R297: the context commands and the ends of EVICTING and DESTROYING. FATAL and DESTROYING keep the channel (R291); that they give up the place, that ADMIT takes the lowest free place and what counts as resident are the model's reading (log 57), as are EVICT's answer at once (log 56) and WAITING going to ACTIVE at ADMIT (log 58). -/
def Obligations.ContextEvents : Prop :=
  ∀ (s s' : State) (c : Nat),
    let k := c % 4096
    let x := s.ctx k
    let f := fun o b => s.ctxField k o b
    let status := fun (n : Nat) => { s with mg := { s.mg with ctxStatus := n, ctxLast := k, ctxPend := none } }
    let named := fun (t : State) => t.mg.ctxStatus = 0 ∧ t.mg.ctxLast = k ∧ ∀ j, j ≠ k → t.ctx j = s.ctx j
    (s.mg.ctxPend ≠ none → runs (.contextCreate c) s s ∧ runs (.contextAdmit c) s s ∧ runs (.contextEvict c) s s ∧
      runs (.contextStop c) s s ∧ runs (.contextDestroy c) s s) ∧
    (s.mg.ctxPend = none → x.st ≠ .evicting → x.st ≠ .destroying →
      (x.st ≠ .undefined → runs (.contextCreate c) s (status 2)) ∧
      (x.st = .undefined → s.descriptorOk k = false → runs (.contextCreate c) s (status 3)) ∧
      (x.st = .undefined → s.descriptorOk k = true → completes (.contextCreate c) s (fun t =>
        let y := t.ctx k
        y.st = .defined ∧ y.ptroot = f 0 8 ∧ y.tqbase = f 8 8 ∧ y.savebase = f 32 8 ∧ y.saveframes = f 40 4 ∧ y.caps = f 48 8 ∧
        y.classes = f 56 1 ∧ y.priomax = f 57 1 ∧ y.podtag = f 60 2 ∧ y.channel = none ∧ y.place = none ∧
        t.ctxField k 16 4 = 0 ∧ t.ctxField k 24 4 = 0 ∧ t.ctxField k 28 1 = 0 ∧ named t ∧ t.tasks = s.tasks)) ∧
      (x.st ≠ .defined → runs (.contextAdmit c) s (status 2)) ∧
      (x.st = .defined → 64 ≤ s.residents → runs (.contextAdmit c) s (status 4)) ∧
      (x.st = .defined → s.residents < 64 → x.chanAsk = true → s.freeChannel = none → runs (.contextAdmit c) s (status 5)) ∧
      (x.st = .defined → s.residents < 64 → x.chanAsk = true → s.freeChannel ≠ none → completes (.contextAdmit c) s (fun t =>
        (t.ctx k).st = .resident ∧ (t.ctx k).channel = s.freeChannel ∧ (t.ctx k).place = s.freePlace ∧ named t)) ∧
      (x.st = .defined → s.residents < 64 → x.chanAsk = false → completes (.contextAdmit c) s (fun t =>
        (t.ctx k).st = .resident ∧ (t.ctx k).channel = none ∧ (t.ctx k).place = s.freePlace ∧ named t ∧
        ∀ j ∈ s.queuesOf k, (s.queue j).st = .suspended → (s.queue j).prior = .active ∨ (s.queue j).prior = .waiting →
          (t.queue j).st = .active ∧ (t.queue j).rptr = (s.queue j).rptr ∧ (t.queue j).wait = .none)) ∧
      (x.st ≠ .resident → runs (.contextEvict c) s (status 2) ∧ runs (.contextStop c) s (status 2)) ∧
      (x.st = .resident → completes (.contextEvict c) s (fun t =>
        (t.ctx k).st = .evicting ∧ named t ∧
        (∀ j, (s.task j).ctx = k → (s.task j).st = .running → (s.task j).ending = false →
          (t.task j).st = .quiesceSave ∧ (t.task j).why = .evict ∧ (t.task j).arch = (s.task j).arch) ∧
        (∀ j, (s.task j).ctx ≠ k → t.task j = s.task j) ∧
        ∀ j ∈ s.queuesOf k, (s.queue j).retiring = false → (s.queue j).st = .active →
          (t.queue j).st = .suspended ∧ (t.queue j).prior = .active)) ∧
      (x.st = .resident → completes (.contextStop c) s (fun t =>
        (t.ctx k).st = .fatal ∧ (t.ctx k).place = none ∧ (t.ctx k).channel = x.channel ∧ named t ∧ t.mg.fatalV = true ∧ t.mg.fatalCtx = k ∧ tellsHost s t 1 ∧
        (∀ j, (s.task j).ctx = k → (s.task j).live = true → (t.task j).halted = true) ∧
        (∀ j, (s.task j).ctx ≠ k → t.task j = s.task j) ∧ ∀ j ∈ s.queuesOf k, (t.queue j).st = .halted)) ∧
      (x.st = .resident ∨ x.st = .undefined → runs (.contextDestroy c) s (status 2)) ∧
      (x.st = .defined ∨ x.st = .fatal → completes (.contextDestroy c) s (fun t =>
        (t.ctx k).st = .destroying ∧ (t.ctx k).place = none ∧ (t.ctx k).channel = x.channel ∧ (t.ctx k).destroyAt = s.now + Config.leaseLen ∧ named t ∧
        (∀ j, (s.task j).ctx = k → (s.task j).live = true → (t.task j).st = .discarded) ∧
        ∀ j z, s.kernel j = some z → z.ctx = k → ∃ y, t.kernel j = some y ∧ y.st = (if z.st.over then z.st else .discarded)))) ∧
    (s.mg.ctxPend = none → (s.ctx c).st = .evicting → (∀ e ∈ s.tasks, e.2.ctx = c → e.2.live = true → e.2.st = .saved) →
      (∀ e ∈ s.queues, e.2.ctx = c → e.2.kcopies = []) →
      let mine := s.net.filter (fun p => s.spoolable c p)
      let drained := fun (t : State) => (t.ctx c).st = .defined ∧ (t.ctx c).channel = none ∧ (t.ctx c).place = none
      ((∀ p ∈ s.net, p.ctx ≠ c) → completes (.evictionComplete c) s (fun t =>
        drained t ∧ t.tasks = s.tasks ∧ (∀ j, j ≠ c → t.ctx j = s.ctx j) ∧ sameBytes s t)) ∧
      (s.spoolAll mine = some s' → s'.mg.ctxPend = none →
        ((∀ p ∈ s.net, p.ctx = c → s.spoolable c p = true) → completes (.evictionComplete c) s (fun t => drained t ∧ t.tasks = s'.tasks)) ∧
        ((∃ p ∈ s.net, p.ctx = c ∧ p.held = false ∧ s.spoolable c p = false) → completes (.evictionComplete c) s (fun t =>
          (t.ctx c).st = .evicting ∧ (t.ctx c).channel = (s.ctx c).channel ∧ t.tasks = s'.tasks))) ∧
      (s.spoolAll mine = none → completes (.evictionComplete c) s (fun t =>
        (t.ctx c).st = .resident ∧ t.mg.ctxStatus = 6 ∧ t.net = s.net ∧ t.tasks = s.tasks))) ∧
    (s.mg.ctxPend = none → (s.ctx c).st = .destroying → (s.ctx c).destroyAt ≤ s.now → (∀ p ∈ s.net, p.ctx ≠ c) →
      (∀ e ∈ s.queues, e.2.ctx = c → e.2.destroying = false) → s.chargedTo c = [] →
      completes (.destroyComplete c) s (fun t => t.ctx c = Ctx.blank ∧ (∀ j, j ≠ c → t.ctx j = s.ctx j) ∧ t.tasks = s.tasks ∧
        t.kernels = s.kernels ∧ t.net = s.net ∧ (∀ e ∈ t.pg.gathered, e.1 / 2 ^ 40 ≠ c) ∧ ∀ l ∈ t.pg.gleases, l.ctx ≠ c))

/-! ### The issue pipe (R31 to R36, R125 to R130) -/

/-- R33, R35, R125 to R128, R181, R187: line entry and line end, the run budget, the pass of the pipe to the next READY slot in cyclic order, and the end of a wait. That a slot which goes on in mid-line enters its line again, from the image as it is then, and that a failed entry leaves it at head slot 1, are the model's choices (logs 23 and 97). -/
def Obligations.PipeEvents : Prop :=
  ∀ (s s' : State) (t i c : Nat) (img : List Half),
    let k := s.task t
    let x := s.slot t i
    let can := fun d => (s.slot t ((i + d) % 10)).st = .ready ∧ k.mayEnter (s.slot t ((i + d) % 10)) = true
    let entered := fun (u : State) =>
      let y := u.slot t i
      y.line.img = some img ∧ y.line.entered = true ∧ y.line.next = (if headOfPc x.pc = 0 then 1 else headOfPc x.pc) ∧ y.line.target = none ∧
        y.st = .running ∧ y.budget = x.budget + 1 ∧ y.pc = x.pc ∧ keepsRegs x y
    let faults := fun (u : State) (cause val : Nat) =>
      let y := u.slot t i
      y.st = .faulted ∧ keepsRegs x y ∧ (vget 0 (u.ctl t).d.mtfinfo i).toNat = y.pc.toNat + cause * 2 ^ 56 ∧
        (vget 0 (u.ctl t).d.mtfval i).toNat = val ∧ (u.ctl t).d.mtfpend.getLsbD i = true
    s.cutDue t = false → i < 10 → x.kill = none →
    ((s.arch t).runner = some i → x.line.entered = false → k.mayEnter x = true →
      (x.line.img = some img → lineOk img = true → completes (.lineEntry t) s (fun u => entered u)) ∧
      (x.line.img = some img → lineOk img = false → completes (.lineEntry t) s (fun u => faults u 0x01 x.line_ ∧ (u.slot t i).pc.toNat = x.line_ + 2)) ∧
      (x.line.img = none → s.fetchLine t x.line_ = (s', .ok img) → lineOk img = true → completes (.lineEntry t) s (fun u => entered u)) ∧
      (∀ e, x.line.img = none → s.fetchLine t x.line_ = (s', .error e) → e < 256 → completes (.lineEntry t) s (fun u => faults u e x.line_ ∧ (u.slot t i).pc.toNat = x.line_ + 2)) ∧
      (Config.runBudget ≤ x.budget → (∀ d, 1 ≤ d → d ≤ 10 → ¬can d) →
        runs (.runBudgetReached t) s (s.updSlot t i (fun x => { x with budget := 0 }))) ∧
      (∀ d, Config.runBudget ≤ x.budget → 1 ≤ d → d ≤ 9 → can d → (∀ e, 1 ≤ e → e < d → ¬can e) → c = (i + d) % 10 →
        completes (.runBudgetReached t) s (fun u =>
          (u.slot t c).st = .running ∧ (u.arch t).holder = c ∧ (u.slot t i).st = .ready ∧ keepsRegs x (u.slot t i) ∧
          keepsRegs (s.slot t c) (u.slot t c) ∧ ∀ j < 10, j ≠ i → j ≠ c → u.slot t j = s.slot t j))) ∧
    ((s.arch t).runner = some i → x.line.entered = true → x.line.img = some img → lineHeads img < x.line.next →
      (x.sigBad = true → completes (.lineEnd t) s (fun u => faults u 0x0B 0 ∧ (u.slot t i).pc.toNat = x.pc.toNat / 64 * 64 + 2)) ∧
      (∀ p, x.sigBad = false → x.line.target = some p → x.line.safept = none → completes (.lineEnd t) s (fun u =>
        (u.slot t i).pc = p ∧ (u.slot t i).st = .running ∧ (u.slot t i).line.entered = false ∧ keepsRegs x (u.slot t i))) ∧
      (x.sigBad = false → x.line.target = none → x.ind = true → x.line.safept = none → completes (.lineEnd t) s (fun u =>
        (u.slot t i).pc.toNat = (x.pc.toNat / 64 * 64 + 64) % 2 ^ 56 + 2 ∧ (u.slot t i).st = .running ∧ keepsRegs x (u.slot t i))) ∧
      (x.sigBad = false → x.line.target = none → x.ind = false → x.line.safept = none → completes (.lineEnd t) s (fun u =>
        (u.slot t i).st = .waiting ∧ (u.slot t i).wr = .broadcast ∧ keepsRegs x (u.slot t i))) ∧
      (∀ m, x.sigBad = false → x.line.safept = some m → k.quiescing = true → k.bulk = false → completes (.lineEnd t) s (fun u =>
        (u.slot t i).quiet = some m ∧ (u.slot t i).st ≠ .running ∧ keepsRegs x (u.slot t i)))) ∧
    (k.active = true → (s.arch t).runner = none → (s.arch t).holder = i →
      (∀ d, 1 ≤ d → d ≤ 10 → can d → (∀ e, 1 ≤ e → e < d → ¬can e) → c = (i + d) % 10 → completes (.pipeIdleWake t) s (fun u =>
        (u.slot t c).st = .running ∧ (u.arch t).holder = c ∧ keepsRegs (s.slot t c) (u.slot t c) ∧ ∀ j < 10, j ≠ c → u.slot t j = s.slot t j)) ∧
      ((∀ d, 1 ≤ d → d ≤ 10 → ¬can d) → runs (.pipeIdleWake t) s s)) ∧
    (x.st = .waiting → k.st = .running → k.halted = false →
      ((∃ tag, x.cond = .message tag ∧ ∃ m ∈ (s.arch t).msgs.mailbox, m.tag = tag) ∨
       (∃ e n, x.cond = .sem e n ∧ n ≤ ((s.eng t).sem e).toNat) ∨ (x.cond = .inbox ∧ x.inbox ≠ []) ∨
       (x.cond = .go ∧ (s.ctl t).d.go.getLsbD i = true) ∨ (∃ l v, x.cond = .barrier l ∧ x.barEnd = some (.done v)) ∨
       (∃ l, x.cond = .abort l ∧ x.barEnd = some .recorded) ∨
       (∃ v n, x.cond = .generation v n ∧ s.onVega t = v)) →
      runs (.waitConditionHolds t i) s (s.updSlot t i (fun x => { x with st := .ready, wr := .none, cond := .none })))

/-! ### Packets, arrivals and the send buffer (R37 to R41, R277 to R283) -/

/-- R31, R32, R39 to R41, R77, R78, R203, R277, R281 to R283: a bale leaves, packets are delivered in their order, wait while there is no room (a refused one keeps its place before those that come later, and BP shows that a bale was refused, log 120), or go back; arrivals are admitted to the lowest FREE slot; messages leave the send buffer. -/
def Obligations.ArrivalEvents : Prop :=
  ∀ (s : State) (t i n : Nat) (p : Packet) (b : Bale) (m : Msg) (e : SendEnt),
    let k := s.task t
    let q := (s.arch t).msgs
    let x := s.slot t i
    let whole := p.heldFor = none ∧ p.lost = false
    let there := whole ∧ s.validCoord p.dst = true ∧ s.taskAt p.ctx p.dst = some t ∧ k.takes = true
    let own := p.group = k.group
    let left := s.net.eraseIdx n
    let next := fun (turn : Option Nat) => State.waitsBefore { s with net := left } t turn = false
    let back := fun (u : State) (c : Nat) => u.tasks = s.tasks ∧ sameBytes s u ∧ ∃ y, u.net = left ++ [y] ∧ y.src = p.dst ∧ y.dst = p.src ∧
      y.ch = 19 ∧ y.ctx = p.ctx ∧ y.group = p.group ∧ y.old = p.old ∧ y.body = .retBale b c
    (∀ c ea, x.travel = some (c, ea) → x.st = .travelling → x.sb = [] → k.onCore = true → s.inGroup t c = true → i < 10 →
      k.arch.fenceStalls x = false → completes (.baleAccepted t i) s (fun u => (u.slot t i).st = .free ∧ (u.slot t i).id.sp = false ∧
        ∃ y z, u.net = s.net ++ [y] ∧ y.src = k.coord ∧ y.dst = c ∧ y.ctx = k.ctx ∧ y.body = .bale z ∧ z.m = x.m ∧ z.pw = x.pw ∧ z.pc = x.pc ∧
          z.ctx = k.ctx ∧ z.id.hops = min (x.id.hops + 1) 65535 ∧ z.id.home = x.id.home ∧ z.id.sp = x.id.sp ∧ z.id.skh = k.kh)) ∧
    (s.nextPacket n = some p →
      (p.body = .bale b → there → own → next p.turn → q.arrivals.length < 16 → runs (.baleArrival n) s
        (State.updMsgs { s with net := left } t (fun q => { q with arrivals := q.arrivals ++ [.bale b] }))) ∧
      (p.body = .bale b → there → own → next p.turn → 16 ≤ q.arrivals.length → q.room = true → completes (.baleArrival n) s (fun u =>
        (u.arch t).msgs.arrivals = q.arrivals ++ [.bale b] ∧ (u.arch t).msgs.caravan = (q.caravan + 1) % 256 ∧ u.net = left)) ∧
      (p.body = .bale b → there → q.room = false ∨ ¬next p.turn → runs (.baleArrival n) s (s.refuse t p.uid)) ∧
      (p.body = .bale b → whole → s.validCoord p.dst = true → s.taskAt p.ctx p.dst = none → completes (.baleArrival n) s (fun u => back u 0x0E)) ∧
      (p.body = .bale b → whole → s.validCoord p.dst = false → completes (.baleArrival n) s (fun u => back u 0x15)) ∧
      (p.body = .bale b → p.heldFor = none → p.lost = true → completes (.baleArrival n) s (fun u => back u 0x15)) ∧
      (p.body = .bale b → whole → s.validCoord p.dst = true → s.taskAt p.ctx p.dst = some t → k.takes = false → runs (.baleArrival n) s s) ∧
      (∀ kh gi, p.body = .credit kh gi → s.taskAt p.ctx p.dst = some t → k.kh = kh → k.gidx = gi → k.takes = true →
        runs (.spawnCreditArrival n) s (State.updArch { s with net := left } t (fun a => { a with spawnOut := a.spawnOut - 1 }))) ∧
      (∀ kh gi, p.body = .credit kh gi → s.taskAt p.ctx p.dst = none → runs (.spawnCreditArrival n) s { s with net := left }) ∧
      (p.body = .msg m → m.trig = false → there → own → q.mailbox.length < 64 → runs (.messageArrival n) s
        (State.updMsgs { s with net := left } t (fun q => { q with mailbox := q.mailbox ++ [m] }))) ∧
      (p.body = .msg m → m.trig = false → there → 64 ≤ q.mailbox.length → runs (.messageArrival n) s s) ∧
      (∀ line, p.body = .msg m → m.trig = true → there → own → q.tag m.tag = .bound line → q.arrivals.length < 16 →
        next none → (∀ x ∈ q.parking, x.tag ≠ m.tag) → runs (.triggeredMessageArrival n) s
          (State.updMsgs { s with net := left } t (fun q => { q with arrivals := q.arrivals ++ [.handler m line] }))) ∧
      (p.body = .msg m → m.trig = true → there → own → q.tag m.tag = .unbound → q.parking.length < 32 →
        runs (.triggeredMessageArrival n) s
          (State.updMsgs { s with net := left } t (fun q => { q with parking := q.parking ++ [m] }))) ∧
      (∀ c, p.body = .retBale b c → s.taskAt p.ctx p.dst = some t → k.kh = b.id.skh → k.gidx = b.id.sgrp → k.takes = true →
        q.arrivals.length < 16 → next p.turn → b.id.sp = false → runs (.returnedPacketArrival n) s
          (State.updMsgs { s with net := left } t (fun q => { q with arrivals := q.arrivals ++ [.returned b c] }))) ∧
      (∀ c, p.body = .retBale b c → s.taskAt p.ctx p.dst = some t → k.kh = b.id.skh → k.gidx = b.id.sgrp → k.takes = true →
        q.room = false ∨ ¬next p.turn → runs (.returnedPacketArrival n) s (s.refuse t p.uid)) ∧
      (∀ c d, p.body = .retMsg m c d → s.taskAt p.ctx p.dst = some t → k.kh = m.kh → k.gidx = m.grp → k.takes = true → q.mailbox.length < 64 →
        completes (.returnedPacketArrival n) s (fun u => u.net = left ∧ ∃ r, (u.arch t).msgs.mailbox = q.mailbox ++ [r] ∧ r.tag = 63 ∧
          r.payload.toNat = c % 256 + m.tag % 64 * 256 + (if m.trig then 16384 else 0) + d.code * 2 ^ 32)) ∧
      (∀ u c kh gi, p.body = .copyErr u c kh gi → (s.taskAt p.ctx p.dst = none ∨ (s.taskAt p.ctx p.dst = some t ∧ (k.kh ≠ kh ∨ k.gidx ≠ gi))) →
        runs (.returnedPacketArrival n) s { s with net := left }) ∧
      (∀ u c kh gi, p.body = .copyErr u c kh gi → s.taskAt p.ctx p.dst = some t → k.kh = kh → k.gidx = gi → k.takes = false → k.st = .saved →
        runs (.returnedPacketArrival n) s (s.holdPacket n)) ∧
      (∀ c d, p.body = .retMsg m c d → s.taskAt p.ctx p.dst = none → runs (.returnedPacketArrival n) s { s with net := left })) ∧
    (∀ rest, k.takes = true → i < 10 → x.st = .free → (∀ j < i, (s.slot t j).st ≠ .free) → q.parking = [] →
      (q.arrivals = .bale b :: rest → b.id.nx = (s.eng t).nx → completes (.baleAdmission t) s (fun u =>
        let y := u.slot t i
        y.st = .ready ∧ y.ind = true ∧ y.m = b.m ∧ y.pw = b.pw ∧ y.pc = b.pc ∧ y.id.sp = b.id.sp ∧ (u.arch t).msgs.arrivals = rest ∧ (u.arch t).msgs.refuses = false ∧
          (∀ j < 10, j ≠ i → u.slot t j = s.slot t j) ∧ sameBytes s u)) ∧
      (q.arrivals = .bale b :: rest → b.id.nx ≠ (s.eng t).nx → completes (.baleAdmission t) s (fun u =>
        (u.slot t i).st = .faulted ∧ (u.slot t i).m = b.m ∧ (vget 0 (u.ctl t).d.mtfinfo i).toNat = b.pc.toNat + 0x0D * 2 ^ 56)) ∧
      (∀ c, q.arrivals = .returned b c :: rest → c < 256 → completes (.baleAdmission t) s (fun u =>
        (u.slot t i).st = .faulted ∧ (u.slot t i).m = b.m ∧ (vget 0 (u.ctl t).d.mtfinfo i).toNat = b.pc.toNat + c * 2 ^ 56 ∧
          (vget 0 (u.ctl t).d.mtfval i).toNat = b.ea % 2 ^ 64)) ∧
      (∀ line : Word, q.arrivals = .handler m line :: rest → m.nx = (s.eng t).nx → completes (.baleAdmission t) s (fun u =>
        let y := u.slot t i
        y.st = .ready ∧ y.getM 0 = m.payload ∧ (y.getM 1).toNat = m.src.code ∧ (y.getM 2).toNat = m.tag % 2 ^ 64 ∧
          (∀ r : Reg, 3 ≤ r.toNat → r.toNat < 10 → y.getM r = 0) ∧ y.pc.toNat = (line.toNat / 64 * 64 + 2) % 2 ^ 56 ∧ y.id.sp = false ∧
          (u.arch t).msgs.arrivals = rest))) ∧
    (q.sendb[n]? = some e → (∀ j < n, ∀ f, q.sendb[j]? = some f → f.dst ≠ e.dst) → k.sends = true →
      let gone := fun (u : State) => (u.arch t).msgs.sendb = q.sendb.eraseIdx n
      let out := fun (u : State) => gone u ∧ ∃ y, u.net = s.net ++ [y] ∧ y.src = k.coord ∧ y.dst = e.dst ∧ y.body = .msg e.msg
      (e.hold = none → e.dst ≠ k.coord → s.inGroup t e.dst = true → completes (.sendBufferEntrySent t n) s out) ∧
      (e.hold = none → e.dst = k.coord → e.msg.trig = false → q.mailbox.length < 64 → completes (.sendBufferEntrySent t n) s (fun u =>
        gone u ∧ (u.arch t).msgs.mailbox = q.mailbox ++ [e.msg] ∧ u.net = s.net)) ∧
      (e.hold ≠ none → s.holdOver t e = true → e.dst ≠ k.coord → s.inGroup t e.dst = true → completes (.postReleaseSend t n) s out) ∧
      (e.hold ≠ none → s.holdOver t e = false → runs (.postReleaseSend t n) s s))

/-! ### Moves and saves (R299 to R302, R355 to R367, R439) -/

/-- R301, R355, R358 to R366, R439: the landing trap, the steps of a move, and saving and resuming a task; registers go with the task. That any changed byte of the frame counts as a tag mismatch is the model's choice (log 12), as are the channels that carry markers and when they are in (logs 45 and 108), and the attempts to resume a saved sender (log 93). -/
def Obligations.MoveAndSaveEvents : Prop :=
  ∀ (s : State) (t : Nat) (done : Bool) (q : Phys) (f : Nat) (ps : List Place),
    let k := s.task t
    let still := k.halted = false ∧ k.ending = false ∧ k.cutRes = none ∧ k.arch.seq = none ∧ k.ctRests = true ∧
      (∀ i < 10, k.slotRests (s.slot t i) = true) ∧ ∀ c ∈ (s.eng t).cmds, c.st ≠ .begun
    let same := fun (u : State) => (∀ i < 10, keepsRegs (s.slot t i) (u.slot t i) ∧ (u.slot t i).pc = (s.slot t i).pc) ∧ (u.ctl t).x = (s.ctl t).x ∧
      (u.ctl t).pc = (s.ctl t).pc
    (k.st = .running → k.trapSince ≠ none → k.halted = false → k.ending = false → s.trapLives t = true → s.trapLate t = false →
      (k.trapOpen = false → runs (.landingGrant t) s s) ∧
      (k.trapOpen = true → s.landingFor t (!s.onVega t) = some q → runs (.landingGrant t) s
        (s.updTask t (fun k => { k with st := .quiesceMove, landing := some q, mvWhy := .trap, trapOpen := false }))) ∧
      (k.trapOpen = true → s.landingFor t (!s.onVega t) = none → runs (.landingGrant t) s (s.updTask t (fun k => { k with trapOpen := false })))) ∧
    (s.trapLives t = false ∨ s.trapLate t = true → runs (.landingGrant t) s s) ∧
    (k.trapSince ≠ none → k.trapAsk + 10_000 ≤ s.now → runs (.landingRetry t) s (s.updTask t (fun k => { k with trapAsk := s.now, trapOpen := true }))) ∧
    (k.trapSince ≠ none → s.now < k.trapAsk + 10_000 → runs (.landingRetry t) s s) ∧
    (k.st = .running → k.trapSince ≠ none → k.ezSince = none → (∀ i < 10, (s.slot t i).kill = none) → completes (.landingTimeout t) s (fun u =>
      ∀ i < 10, (s.overdue (s.slot t i) = true → (u.slot t i).st = .faulted ∧ keepsRegs (s.slot t i) (u.slot t i) ∧
          (vget 0 (u.ctl t).d.mtfinfo i).toNat = (s.slot t i).pc.toNat + 0x13 * 2 ^ 56) ∧
        (s.overdue (s.slot t i) = false → u.slot t i = s.slot t i))) ∧
    (k.st = .quiesceMove → k.landing = some q → (s.fwdOf k.phys).length < 16 → still → completes (.moveQuiescence t done) s (fun u =>
      (u.task t).st = .moving ∧ (u.task t).markers = markerChannels ∧ (u.entry k.coord).moving = true ∧ same u ∧ ∀ i < 10, (u.slot t i).sb = [])) ∧
    (k.st = .moving → k.landing = some q → k.mvWhy = .retire → k.home = k.phys → q ≠ k.phys → completes (.moveTransferComplete t) s (fun u =>
      (u.task t).phys = q ∧ (u.task t).home = q ∧ u.cores.retired.contains k.phys = true)) ∧
    (k.st = .moving → k.landing = some q → k.mvWhy ≠ .retire → s.cores.marked.contains k.phys = false → completes (.moveTransferComplete t) s (fun u =>
      (u.task t).phys = q ∧ (u.task t).landing = none ∧ (u.task t).home = k.home ∧ (u.entry k.coord).phys = q ∧ (u.task t).arch = k.arch ∧
      (∀ a < columnBytes, u.readByte (columnKey q a) = s.readByte (columnKey k.phys a)) ∧
      (∀ a, a < columnKey q 0 ∨ columnKey q 0 + columnBytes ≤ a → u.readByte a = s.readByte a))) ∧
    (k.st = .moving → k.landing = none → k.markers.find? (fun c => s.markersIn k c) = none → runs (.markerArrival t) s s) ∧
    (∀ c, k.st = .moving → k.landing = none → k.markers.find? (fun c => s.markersIn k c) = some c → 1 < k.markers.length →
      runs (.markerArrival t) s (s.updTask t (fun k => { k with markers := k.markers.erase c }))) ∧
    (∀ c, k.st = .moving → k.landing = none → k.markers = [c] → s.markersIn k c = true → k.why = .none →
      (∀ i < 10, (s.slot t i).wr = .migrate → (s.slot t i).st = .waiting ∧ ∃ n, (s.slot t i).cond = .generation (s.onVega t) n) →
      completes (.markerArrival t) s (fun u =>
      (u.task t).st = .running ∧ (u.entry k.coord).moving = false ∧ same u ∧
      ∀ i < 10, ∀ v n, (s.slot t i).st = .waiting → (s.slot t i).cond = .generation v n → v = s.onVega t → (u.slot t i).st = .ready)) ∧
    (k.st = .quiesceSave → k.frame = some f → still → completes (.saveQuiescence t done) s (fun u =>
      (u.task t).st = .saving ∧ (u.task t).frame = some f ∧ (u.ctl t).x = (s.ctl t).x ∧
      ∀ i < 10, (u.slot t i).sb = [] ∧
        ((s.slot t i).quiet = none → keepsRegs (s.slot t i) (u.slot t i)) ∧
        (∀ mask, (s.slot t i).quiet = some mask →
          (∀ r : Reg, r.toNat < 10 → (u.slot t i).getM r = if mask.getLsbD r.toNat then (s.slot t i).getM r else 0) ∧
          (∀ r : Reg, (u.slot t i).getQ r = if mask.getLsbD (10 + r.toNat) then (s.slot t i).getQ r else 0) ∧
          (u.slot t i).pw = if mask.getLsbD 26 then (s.slot t i).pw else 0))) ∧
    (k.st = .saving → k.frame = some f → s.framePages k.ctx f .w = some ps → k.arch.msgs.sendb = [] → s.cores.marked.contains k.phys = false →
      completes (.saveFrameWritten t) s (fun u =>
        (u.task t).st = .saved ∧ (u.task t).phys = k.home ∧ (u.task t).arch = k.arch ∧ (k.phys ≠ k.home → (u.entry k.coord).phys = k.home) ∧
        ∀ j, j ≠ t → u.task j = s.task j)) ∧
    (s.canSeat t = true → k.frame = some f → s.framePages k.ctx f .r = some ps →
      let back := fun (u : State) => (u.task t).st = .running ∧ (u.task t).why = .none ∧ same u ∧ ∀ j, j ≠ t → u.task j = s.task j
      let good := s.frameCells ps = k.frameImg ∧ ∀ p ∈ ps, s.takesWrite p = true
      (k.why ≠ .wait → s.mayResume t = true → good → completes (.taskResume t) s back) ∧
      (k.why ≠ .wait → s.mayResume t = true → ¬good →
        runs (.taskResume t) s ((s.gatherFrame t f false).moduleRecord t 0x16 4 0xFF 0 0 0 false)) ∧
      (s.rollsBack t = true → good → completes (.taskResume t) s back) ∧
      (k.why = .preempt → s.groupWaits t = true → good → completes (.savedSenderResume t) s back) ∧
      (k.why = .wait → s.groupWaits t = true → good → completes (.savedSenderResume t) s (fun u =>
        back u ∧ (u.task t).resumedFor = some s.now))) ∧
    (s.groupWaits t = false → runs (.savedSenderResume t) s s) ∧
    (∀ n rd a, k.resumedFor = some n → k.st = .running → k.ending = false → n + 100_000 ≤ s.now → s.groupWaits t = false →
      (∃ since, k.arch.ctl.wait = .launchW rd a since) ∨ k.arch.ctl.wait = .joink rd a →
      runs (.savedSenderResave t) s (s.updTask t (fun k => { k with st := .quiesceSave, why := .wait, resumedFor := none })))

/-! ### Engine commands (R152, R153, R243 to R276, R397 to R399) -/

/-- R152, R153, R246, R247, R249, R255, R258, R267, R273, R399: the command at the head of a queue begins, waits or ends in a late fault; a word of a copy lands; commands complete with their effect and their signal; leases are read again, and one that fails gives the lowest address the copy still has on its page; a TLOAD ends at its deadline. Each is followed by the check for barriers that it lets complete. That ring commands act when they complete is the model's choice (log 39), and so is that a word whose ends lie on the copying core's die is read and landed in one step (log 35). -/
def Obligations.EngineEvents : Prop :=
  ∀ (s : State) (t q n : Nat) (c : Cmd) (d : CopyD) (td : TloadD) (l : PageLease) (k z base cap code pal off : Nat) (b : Bool) (pl : Place),
    let e := s.eng t
    let drains := fun (i : Instr) (P : State → Prop) => completes i s (fun w => ∃ u : State, w = u.drainCheck ∧ P u)
    let late := fun (u : State) (cause val : Nat) =>
      ((s.ctl t).d.elV = false → (u.ctl t).d.elV = true ∧ (u.ctl t).d.elCause = cause ∧ (u.ctl t).d.elQueue = c.queue ∧
        (u.ctl t).d.elSeq = c.uid % 256 ∧ (u.ctl t).d.elval.toNat = val % 2 ^ 64) ∧
      ((s.ctl t).d.elV = true → (u.ctl t).d.elMore = true ∧ (u.ctl t).d.elval = (s.ctl t).d.elval) ∧
      ∀ x ∈ (u.eng t).cmds, x.queue = c.queue → c.uid ≤ x.uid → x.out = false
    let begun := fun (u : State) => ∃ x, (u.eng t).find c.uid = some x ∧ x.st = .begun ∧
      (c.again = false → x.nx = e.nx ∧ x.pal2 = e.pal2 ∧ x.pal3 = e.pal3) ∧
      (c.again = true → c.op.isEasel = true → x.nx = c.nx ∧ x.pal2 = c.pal2 ∧ x.pal3 = c.pal3)
    let ended := fun (u : State) => (∃ x, (u.eng t).find c.uid = some x ∧ x.st = .completed) ∧
      (c.sync.sen = true → ((u.eng t).sem c.sync.ssem).toNat = min ((e.sem c.sync.ssem).toNat + c.sync.sinc) 65535) ∧
      (c.sync.sen = false → (u.eng t).sems = e.sems)
    e.find c.uid = some c →
    (s.headCmd t q = none → runs (.commandBegin t q) s s.drainCheck) ∧
    (s.headCmd t q = some c →
      (∀ f, c.fault = some f → drains (.commandBegin t q) (fun u => late u f.1 f.2)) ∧
      (c.fault = none → (s.arch t).mayBegin (s.task t).coord c = false → runs (.commandBegin t q) s s.drainCheck) ∧
      (c.fault = none → (s.arch t).mayBegin (s.task t).coord c = true → c.op.isEasel = true → e.letters c.op = [] →
        (∀ f, (s.arch t).easelFault c.op = some f → drains (.commandBegin t q) (fun u => late u f.1 f.2)) ∧
        ((s.arch t).easelFault c.op = none → drains (.commandBegin t q) begun)) ∧
      (c.fault = none → (s.arch t).mayBegin (s.task t).coord c = true → c.op = .copy d → d.dEnd = .own → d.sEnd = .own → c.again = false →
        (∀ p ∈ d.dPieces, firstDenied (s.ctl t).d.lpa false .wr p.1 p.2 = none) →
        (∀ p ∈ d.sPieces, firstDenied (s.ctl t).d.lpa false .rd p.1 p.2 = none) →
        drains (.commandBegin t q) (fun u => begun u ∧ ∀ x, (u.eng t).find c.uid = some x → x.landed = [] ∧ x.counted = none)) ∧
      (c.fault = none → (s.arch t).mayBegin (s.task t).coord c = true → c.op = .tload td → q < 4 → c.queue = q → ∀ va,
        (s.flushBefore t c.slot c.after).rangeFrames (s.task t).ctx 3 .r td.range (td.bytes / 65536) = .error (.absent, va) →
        drains (.commandBegin t q) (fun u => (u.eng t).parkedQ q = true ∧ (u.ctl t).d.upPq.getLsbD q = true ∧
          (vget 0 (u.ctl t).d.upaddr q).toNat = va % 2 ^ 64))) ∧
    (c.op = .copy d → c.st = .begun → (s.task t).onCore = true → n < d.words → n ∉ c.landed → n ∉ c.sent →
      s.wordPacket (.copy t c.uid) n = none → d.dEnd = .own → d.sEnd = .own →
      let at_ := fun (o : Nat) (stride : Int) => (rowAt o stride (n / (d.rowb / 8))).toNat + 8 * (n % (d.rowb / 8))
      at_ d.dst d.dstr + 8 ≤ Config.undoBase → drains (.wordLanded t c.uid n) (fun u =>
        u.read (s.colKey t (at_ d.dst d.dstr)) 8 = s.read (s.colKey t (at_ d.src d.sstr)) 8 ∧
        (∀ a, a < s.colKey t (at_ d.dst d.dstr) ∨ s.colKey t (at_ d.dst d.dstr) + 8 ≤ a → ¬inUndoLog s t a → u.readByte a = s.readByte a) ∧
        ∃ x, (u.eng t).find c.uid = some x ∧ x.landed = n :: c.landed)) ∧
    ((e.queue q).head? = some c → c.st = .begun → (s.task t).onCore = true →
      (c.op = .copy d → d.words ≤ c.landed.length → drains (.commandComplete t q) (fun u => ended u ∧ sameBytes s u)) ∧
      (c.op = .copy d → c.landed.length < d.words → runs (.commandComplete t q) s s.drainCheck) ∧
      (c.op = .ezring k base cap → k < 8 → drains (.commandComplete t q) (fun u => ended u ∧
        (u.eng t).ring k = { e.ring k with base := base, cap := cap, head := 0, count := 0 })) ∧
      (c.op = .ezfmt k code pal b → k < 8 → drains (.commandComplete t q) (fun u => ended u ∧
        (u.eng t).ring k = { e.ring k with fmt := code, pal := pal, sparse := b, head := 0, count := 0 })) ∧
      (c.op = .ezpush k n → k < 8 → drains (.commandComplete t q) (fun u => ended u ∧
        (u.eng t).ring k = { e.ring k with count := (e.ring k).count + n })) ∧
      (c.op = .ezpop k n → k < 8 → drains (.commandComplete t q) (fun u => ended u ∧
        (u.eng t).ring k = { e.ring k with head := ((e.ring k).head + n) % (e.ring k).cap, count := (e.ring k).count - n })) ∧
      (c.op = .ezzclr z → drains (.commandComplete t q) (fun u => ended u ∧ ∀ i < 1024, (u.eng t).acc z i = 0)) ∧
      (c.op = .ezzld z off → c.seen = [] → s.colPoison t [] off 4096 = none → drains (.commandComplete t q) (fun u => ended u ∧
        ∀ i < 1024, ((u.eng t).acc z i).toNat = s.read (s.colKey t (off + 4 * i)) 4)) ∧
      (∀ p, c.op = .ezzld z off → c.seen = [] → s.colPoison t [] off 4096 = some p → drains (.commandComplete t q) (fun u => late u (poisonCause p.2) p.1)) ∧
      (c.op = .ezchk b → drains (.commandComplete t q) (fun u => ended u ∧ (u.eng t).ezchk = b)) ∧
      (c.op = .ezwf → drains (.commandComplete t q) (fun u => ended u ∧ ∀ i < 8, ((u.eng t).ring i).gen = (e.ring i).gen + 1)) ∧
      (∀ o img, c.op = .pload 2 o img → drains (.commandComplete t q) (fun u => ended u ∧ (u.eng t).pal2 = .image o img ∧ (u.eng t).pal3 = e.pal3))) ∧
    (c.op = .copy d → c.leases[n]? = some l → c.st = .begun → (s.task t).onCore = true → l.expiry ≤ s.now → c.pageOpen l = true →
      (s.taskTranslate t (d.scopeOf l.write) (if l.write then .w else .r) (l.vpage * 65536) = .ok pl →
        drains (.copyLeaseExpiry t c.uid n) (fun u => ∃ x, (u.eng t).find c.uid = some x ∧ x.landed = c.landed ∧
          x.leases = c.leases.set n ⟨l.vpage, l.write, pl.key, pl.tier, pl.eph,
            s.grantedAt (s.task t).ctx (l.vpage * 65536) + Config.leaseLen⟩)) ∧
      (∀ m, s.taskTranslate t (d.scopeOf l.write) (if l.write then .w else .r) (l.vpage * 65536) = .error m →
        drains (.copyLeaseExpiry t c.uid n) (fun u => ∃ a, late u 0x08 a ∧
          let addr := fun i => if l.write then d.dAddr i else d.sAddr i
          (∃ i < d.words, i ∉ c.landed ∧ addr i = a) ∧ a / 65536 = l.vpage ∧
          ∀ i < d.words, i ∉ c.landed → addr i / 65536 = l.vpage → a ≤ addr i))) ∧
    (c.op = .tload td → c.st = .begun → td.deadline ≤ s.now →
      (s.tloadCode (s.task t).ctx td c.leases = some k → drains (.tloadDeadline t c.uid) (fun u =>
        (∃ x, (u.eng t).find c.uid = some x ∧ x.st = .completed) ∧
        (c.sync.sen = true → ((u.eng t).sem c.sync.ssem).toNat = min ((e.sem c.sync.ssem).toNat + k) 65535))) ∧
      (s.tloadCode (s.task t).ctx td c.leases = none → runs (.tloadDeadline t c.uid) s s.drainCheck))

/-! ### Events of the control thread (R146, R150, R161, R163, R168) -/

/-- R146, R150: interrupts are taken in the order 17, 16, 18, software, timer; R161, R163, R168: dt.mtwait, dt.cbar and dt.joink return when what they wait for has come, where no interrupt is pending and enabled: that is taken first (the model's reading of R150, log 115). That a dt.joink which waits gets its status whatever has become of the handle meanwhile is the model's choice (log 102). -/
def Obligations.ControlThreadEvents : Prop :=
  ∀ (s : State) (t rd m n k : Nat) (copies : List (Nat × Nat)) (x : Kernel),
    let c := s.ctl t
    let open_ := (s.task t).active = true ∧ (s.task t).ending = false
    let can := open_ ∧ (s.task t).st = .running ∧ (c.mode = .u ∨ c.s.stSie = true)
    let late := c.d.elV = true ∧ c.s.sie.getLsbD 17 = true
    let faulted := c.d.mtfpend ≠ 0 ∧ c.s.sie.getLsbD 16 = true
    let upcall := c.d.upPq ≠ 0 ∧ c.s.sie.getLsbD 18 = true
    let soft := c.s.ssip = true ∧ c.s.sie.getLsbD 1 = true
    let timer := c.s.stimecmp.toNat ≤ s.now ∧ c.s.sie.getLsbD 5 = true
    let done := fun (u : State) => (u.ctl t).wait = .none ∧ (u.ctl t).pc = c.pc + 4
    let quiet := ¬(can ∧ (late ∨ faulted ∨ upcall ∨ soft ∨ timer))
    (can → late → completes (.ctInterrupt t) s (fun u => trapsTo s u t true 17 0)) ∧
    (can → ¬late → faulted → completes (.ctInterrupt t) s (fun u => trapsTo s u t true 16 0)) ∧
    (can → ¬late → ¬faulted → upcall → completes (.ctInterrupt t) s (fun u => trapsTo s u t true 18 0)) ∧
    (can → ¬late → ¬faulted → ¬upcall → soft → completes (.ctInterrupt t) s (fun u => trapsTo s u t true 1 0)) ∧
    (can → ¬late → ¬faulted → ¬upcall → ¬soft → timer → completes (.timerInterrupt t) s (fun u => trapsTo s u t true 5 0)) ∧
    (¬can ∨ (¬late ∧ ¬faulted ∧ ¬upcall ∧ ¬soft ∧ ¬timer) → runs (.ctInterrupt t) s s ∧ runs (.timerInterrupt t) s s) ∧
    (c.wait = .mtwait rd m → ¬quiet → runs (.mtwaitReturn t) s s) ∧ (c.wait = .cbar n none m copies → ¬quiet → runs (.cbarComplete t) s s) ∧
    (c.wait = .mtwait rd m → open_ → quiet → c.dflt = false → 0 < rd → rd < 32 →
      ((∀ i < 10, m.testBit i = true → (s.slot t i).idle = true) → completes (.mtwaitReturn t) s (fun u => done u ∧
        ∀ i < 10, ((u.ctl t).getX (BitVec.ofNat 5 rd)).getLsbD i = (m.testBit i && decide ((s.slot t i).st = .faulted)))) ∧
      ((∃ i < 10, m.testBit i = true ∧ (s.slot t i).idle = false) → runs (.mtwaitReturn t) s s)) ∧
    (c.wait = .cbar n none m copies → open_ → quiet →
      (s.cbarOver t (max n m) copies = true → completes (.cbarComplete t) s (fun u => done u ∧
        (u.arch t).bar.step0 = (s.arch t).bar.step0 + 1 ∧ (∀ e ∈ u.cores.icopies, e.phys ≠ (s.task t).phys) ∧ (u.ctl t).x = c.x ∧ sameBytes s u)) ∧
      (s.cbarOver t (max n m) copies = false → runs (.cbarComplete t) s s)) ∧
    (c.wait = .joink rd k → s.kernel k = some x →
      (x.st.over = false → runs (.joinkReturn t) s s) ∧
      (x.st.over = true → (s.task t).st = .running → (s.task t).halted = false → (s.task t).ending = false → quiet → 0 < rd → rd < 32 →
        completes (.joinkReturn t) s (fun u => done u ∧
          ((u.ctl t).getX (BitVec.ofNat 5 rd)).toNat = (if x.joined then 1 else if x.st = .complete then 0 else 2) ∧
          ∃ y, u.kernel k = some y ∧ y.joined = true ∧ y.held = false)))

/-- R10, R56, R145, R152, R155, R210, R304, R305, R382, R386, R389, R414, R424, R428: writes of the runtime to the registers of a running task, and of the host to the registers of the module. That TQPOST refuses a KIND of 8 and above too is the model's choice (log 53), as are the bits that stvec keeps (log 8). -/
def Obligations.RegisterWriteEvents : Prop :=
  ∀ (s s' : State) (t st idx : Nat) (i : Inst) (v : Word) (a : BitVec 4) (n : BitVec 12) (lv : BitVec 3),
    let k := s.task t
    let d := (s.ctl t).d
    let off := v.toNat / 64 % 65536 * 64
    let rest := fun (u : State) => (u.ctl t).x = (s.ctl t).x ∧ (u.ctl t).pc = (s.ctl t).pc ∧ sameBytes s u ∧ ∀ j, j ≠ t → u.task j = s.task j
    let reg := fun (o : Nat) (u : State) => runs (.registerWrite (.mgmt o) v) s u
    (k.active = true → k.ending = false →
      (s.ctReadFault t off 8 = none → postRefused (s.ctWords t off 8) = true → completes (.tqpost t v) s (fun u =>
        (u.ctl t).d.tqSt = 3 ∧ rest u)) ∧
      (s.ctReadFault t off 8 = none → postRefused (s.ctWords t off 8) = false →
        s.trapAppend k.ctx (postRecord (s.ctWords t off 8) s.now) (((s.ctWords t off 8).getD 0 0).getLsbD 16) = (s', st, idx) →
        completes (.tqpost t v) s (fun u => (u.ctl t).d.tqSt = st ∧ (st = 0 → (u.ctl t).d.tqIdx = idx) ∧ u.mem = s'.mem ∧ u.ctxs = s'.ctxs)) ∧
      completes (.elfaultClear t) s (fun u => (u.ctl t).d.elV = false ∧ (u.ctl t).d.elMore = false ∧ (u.ctl t).d.elval = d.elval ∧ rest u) ∧
      completes (.mtfpendClear t v) s (fun u => (∀ j < 10, (u.ctl t).d.mtfpend.getLsbD j = (d.mtfpend.getLsbD j && !v.getLsbD j)) ∧ rest u) ∧
      completes (.ctsyncGo t v) s (fun u => (∀ j < 10, (u.ctl t).d.go.getLsbD j = (d.go.getLsbD j || v.getLsbD (16 + j))) ∧
        (u.ctl t).d.sig = d.sig ∧ rest u) ∧
      completes (.lpareaWrite t a v) s (fun u => vget 0 (u.ctl t).d.lpa a.toNat = v &&& 0x8000_000F_03FF_03FF ∧
        (∀ j < 16, j ≠ a.toNat → vget 0 (u.ctl t).d.lpa j = vget 0 d.lpa j) ∧ rest u) ∧
      runs (.grpctlRollback t) s (s.sendRoot t (match s.groupOf t with | none => 0 | some g => g.top) (.rbTrigger k.group t 0)) ∧
      (1 ≤ lv.toNat → lv.toNat ≤ 4 → SMap.find s.insts (s.myInst t lv.toNat) = some i → i.st = .aborted ∨ i.st = .timedout →
        completes (.grpctlRearm t lv) s (fun u =>
          (∃ j, SMap.find u.insts (s.myInst t lv.toNat) = some j ∧ j.st = .open_ ∧ j.code = 0 ∧ j.arrived = [] ∧ j.counter = i.counter ∧
            j.members = i.members) ∧
          (∀ m ∈ i.members, ((u.arch m).bar.membOf lv.toNat).arr = false) ∧
          (∀ p ∈ u.net, ∀ m op c, p.body = .arrival m lv.toNat op c → m ∉ i.members) ∧ sameBytes s u)) ∧
      (1 ≤ lv.toNat → lv.toNat ≤ 4 → SMap.find s.insts (s.myInst t lv.toNat) = some i → i.st ≠ .aborted → i.st ≠ .timedout →
        runs (.grpctlRearm t lv) s s) ∧
      (let std := fun (n : BitVec 12) (x : SCsr) => completes (.registerWrite (.csr t n) v) s (fun u =>
         (u.ctl t).s = x ∧ (u.ctl t).d = d ∧ rest u)
       let dev := fun (n : BitVec 12) (x : DCsr) => completes (.registerWrite (.csr t n) v) s (fun u =>
         (u.ctl t).d = x ∧ (u.ctl t).s = (s.ctl t).s ∧ rest u)
       let c := (s.ctl t).s
       std 0x100 { c with
         stSie := v.getLsbD 1
         stSpie := v.getLsbD 5
         stSpp := v.getLsbD 8
         stSum := v.getLsbD 18
         stMxr := v.getLsbD 19 } ∧
       std 0x104 { c with sie := v &&& 0x70222 } ∧ std 0x105 { c with stvec := v &&& ~~~ 2 } ∧ std 0x106 { c with scounteren := v &&& 7 } ∧
       std 0x10A { c with senvcfg := v &&& 1 } ∧ std 0x140 { c with sscratch := v } ∧ std 0x141 { c with sepc := v &&& ~~~ 1 } ∧
       std 0x142 { c with scause := v } ∧ std 0x143 { c with stval := v } ∧ std 0x144 { c with ssip := v.getLsbD 1 } ∧
       std 0x14D { c with stimecmp := v } ∧ std 0x180 c ∧ dev 0x5D2 d ∧
       dev 0x5D0 (if v.getLsbD 63 then { d with
         elV := false
         elMore := false } else d) ∧
       dev 0x5D1 { d with mtfpend := d.mtfpend &&& ~~~ v.setWidth 10 } ∧ dev 0x5D3 { d with fibre := v.toNat % 2 ^ 22 / 512 * 512 } ∧
       dev 0x5D4 { d with
         sig := d.sig &&& ~~~ v.setWidth 10
         go := (v >>> 16).setWidth 10 } ∧
       dev 0x5D5 { d with ecsel := v.setWidth 8 } ∧
       (∀ i : Fin 16, completes (.registerWrite (.csr t (BitVec.ofNat 12 (0x5C0 + i.val))) v) s (fun u =>
         (u.ctl t).d.lpa[i] = v &&& 0x8000000F03FF03FF ∧ (∀ j : Fin 16, j ≠ i → (u.ctl t).d.lpa[j] = d.lpa[j]) ∧ rest u))) ∧
      (n.toNat / 1024 = 3 → runs (.registerWrite (.csr t n) v) s s)) ∧
    (k.active = false → runs (.elfaultClear t) s s ∧ runs (.mtfpendClear t v) s s ∧ runs (.ctsyncGo t v) s s ∧ runs (.lpareaWrite t a v) s s ∧
      runs (.tqpost t v) s s ∧ runs (.grpctlRollback t) s s ∧ runs (.grpctlRearm t lv) s s ∧ runs (.grpctlKill t) s s) ∧
    reg 0x1000 { s with mg := { s.mg with ctxtbase := v.toNat / 4096 % 2 ^ 36 * 4096 } } ∧
    reg 0x1040 { s with mg := { s.mg with qtbase := v.toNat / 65536 % 2 ^ 32 * 65536 } } ∧
    reg 0x1018 { s with mg := { s.mg with fatalV := s.mg.fatalV && !v.getLsbD 31 } } ∧
    reg 0x1060 { s with mg := { s.mg with qerrV := s.mg.qerrV && !v.getLsbD 31 } } ∧
    reg 0x1070 { s with mg := { s.mg with barwdog := v } } ∧
    reg 0x1088 { s with pg := { s.pg with va := v.toNat / 65536 % 2 ^ 40 * 65536 } } ∧
    reg 0x1090 { s with pg := { s.pg with cnt := v.toNat % 2 ^ 32 } } ∧
    reg 0x1098 { s with pg := { s.pg with arg := v } } ∧
    ((∀ e ∈ s.ctxs, e.2.st ≠ .resident) → v.toNat % 2 ^ 23 ≤ 4194304 → reg 0x10B0 { s with pg := { s.pg with pool := v.toNat % 2 ^ 23 } }) ∧
    ((∃ e ∈ s.ctxs, e.2.st = .resident) ∨ 4194304 < v.toNat % 2 ^ 23 → reg 0x10B0 s) ∧
    (s.mg.podEn = false → completes (.registerWrite (.mgmt 0x1078) v) s (fun u => u.mg.podIdx = v.toNat % 2 ^ 11 ∧
      u.mg.podCnt = v.toNat / 2 ^ 12 % 2 ^ 11 ∧ u.mg.podJob = v.toNat / 2 ^ 32 % 2 ^ 16 ∧ u.mg.podEn = v.getLsbD 31 ∧
      u.mg.podDown = (s.mg.podDown && !v.getLsbD 48) ∧ u.tasks = s.tasks ∧ sameBytes s u)) ∧
    (s.mg.podEn = true → reg 0x1078 { s with mg := { s.mg with podEn := v.getLsbD 31 } }) ∧
    completes (.registerWrite (.mgmt 0x008) v) s (fun u => (∀ j : Fin 4, u.pw.pre[j] = v.toNat / 2 ^ (8 * j.val) % 2 ^ 7) ∧
      u.pw.cap = s.pw.cap ∧ u.pw.thermal = s.pw.thermal ∧ u.tasks = s.tasks ∧ sameBytes s u) ∧
    (let w := v.toNat / 2 ^ 8 % 2 ^ 8
     (w < 80 ∨ 105 < w → reg 0x018 s) ∧
     (80 ≤ w → w ≤ 105 → s.pw.tj < 256 → s.pw.tj ≤ w ∨ s.pw.hot = true → reg 0x018 { s with pw := { s.pw with
       warn := w
       hot := s.pw.hot && decide (w ≤ s.pw.tj) } }) ∧
     (80 ≤ w → w ≤ 105 → w < s.pw.tj → s.pw.hot = false → completes (.registerWrite (.mgmt 0x018) v) s (fun u =>
       u.pw.warn = w ∧ u.pw.thermal = max 12 (s.pw.eff - 1) ∧ u.tasks = s.tasks ∧ sameBytes s u))) ∧
    reg 0x020 { s with pw := { s.pw with
      pfAddr := v.toNat / 2 ^ 6 % 2 ^ 42 * 64
      pfCount := min 64 (v.toNat / 2 ^ 48 % 2 ^ 7) } } ∧
    (v.toNat % 4 = 1 → exec (.registerWrite (.mgmt 0x10F8) v) s = exec (.dieFence (v.toNat / 16 % 16)) s) ∧
    (v.toNat % 4 = 2 → exec (.registerWrite (.mgmt 0x10F8) v) s = exec (.warmReset (v.toNat / 16 % 16)) s) ∧
    (v.toNat % 4 = 0 ∨ v.toNat % 4 = 3 → reg 0x10F8 s) ∧
    reg 0x10C0 { s with pg := { s.pg with chgsel := v.toNat % 4096 } } ∧
    reg 0x10E0 { s with lk := { s.lk with sel := v.toNat % 512 } } ∧
    (v.toNat % 16 = 3 → exec (.registerWrite (.mgmt 0x1008) v) s = exec (.contextEvict (v.toNat / 65536 % 4096)) s) ∧
    (v.toNat % 16 = 1 → exec (.registerWrite (.mgmt 0x1048) v) s = exec (.queueCreate (v.toNat / 65536 % 1024)) s) ∧
    exec (.registerWrite (.mgmt 0x1058) v) s = exec (.queueDoorbell (v.toNat % 1024) (BitVec.ofNat 32 (v.toNat / 2 ^ 32))) s

/-- R341, R388: TEXIT ends a task at once where no slot is within a line or travels and no command is begun; otherwise the task is ending, with its slots marked, and ends once that has come. GRPCTL.KILL kills the writer's group and kernel: its live instances are aborted with 0x8003 and every member ends. -/
def Obligations.TasksEndAndGroupsAreKilled : Prop :=
  ∀ (s : State) (t : Nat) (x : Group) (z : Kernel),
    let k := s.task t
    let settled := ∀ i < 10, (s.slot t i).st ≠ .travelling ∧ ((s.slot t i).st = .running → (s.slot t i).line.entered = false)
    let free := ∀ c ∈ (s.eng t).cmds, c.st ≠ .begun
    (k.active = true → k.ending = false →
      (settled → free → completes (.texit t) s (fun u => (u.task t).st = .ended ∧ (u.task t).ending = false ∧ ∀ i < 10, (u.slot t i).st = .free)) ∧
      (settled → completes (.texit t) s (fun u => (u.task t).st = .ended ∨ (u.task t).ending = true)) ∧
      (¬settled → completes (.texit t) s (fun u => (u.task t).ending = true ∧ (u.task t).live = true ∧
        ∀ i < 10, ((s.slot t i).st = .travelling ∨ ((s.slot t i).st = .running ∧ (s.slot t i).line.entered = true) →
            (u.slot t i).kill = some true ∧ (u.slot t i).st = (s.slot t i).st ∧ keepsRegs (s.slot t i) (u.slot t i)) ∧
          ((s.slot t i).st ≠ .travelling → ((s.slot t i).st = .running → (s.slot t i).line.entered = false) → (u.slot t i).st = .free)))) ∧
    (k.ending = true → settled → free → completes (.texit t) s (fun u => (u.task t).st = .ended ∧ (u.task t).ending = false)) ∧
    (k.ending = true → ¬settled → runs (.texit t) s s) ∧
    (k.active = true → k.ending = false → SMap.find s.groups k.group = some x → x.complete = false → x.killed = false →
      s.kernel x.kernel = some z → completes (.grpctlKill t) s (fun u =>
        (∃ y, u.kernel x.kernel = some y ∧ y.st = .killed ∧ y.todo = []) ∧ (∃ y, SMap.find u.groups k.group = some y ∧ y.killed = true) ∧
        (∀ j ∈ x.tasks, (s.task j).live = true → (u.task j).st = .ended ∨ (u.task j).ending = true) ∧
        ∀ e j, SMap.find s.insts e = some j → j.group = k.group → j.live = true →
          ∀ y, SMap.find u.insts e = some y → y.group = k.group → y.st = .aborted ∧ y.code = 0x8003)) ∧
    (k.active = true → k.ending = false → SMap.find s.groups k.group = some x → x.complete = true ∨ x.killed = true → runs (.grpctlKill t) s s)

/-! ### Kernels and groups (R339 to R354) -/

/-- R339, R340, R344, R345, R349 to R351: a dependence that is met makes a kernel READY, the first group in order that fits starts its tasks as R340 says, a group that does not fit has another saved, starvation is noted, and an election makes the lowest live die master. -/
def Obligations.KernelAndGroupEvents : Prop :=
  ∀ (s : State) (c h g a key gidx m : Nat) (k : Kernel) (r : Ranked) (x : Group) (all : List Coord),
    (s.kernel key = some k → k.ctx = c → k.handle = h → k.st = .waitdep → k.depend = some a →
      (s.dependMet a = true → completes (.dependenceMet c h) s (fun u => u.kernel key = some { k with st := .ready, since := s.now } ∧
        u.tasks = s.tasks ∧ u.groups = s.groups)) ∧
      (s.dependMet a = false → completes (.dependenceMet c h) s (fun u => u.kernel key = some k))) ∧
    (s.dies.electing = true → runs .groupPlacement s s) ∧
    (s.dies.electing = false → s.ranked.head? = some r → r.cand = .fresh key gidx → s.candFits r.cand = true → s.kernel key = some k →
      s.placesFor key k gidx = some all → s.podHeld = [] → k.st.over = false → completes .groupPlacement s (fun u =>
        (∀ j < all.length, ∀ co, all[j]? = some co →
          let t := u.task (s.ids + 2 + j); let e := u.ctl (s.ids + 2 + j)
          t.st = .running ∧ t.coord = co ∧ t.phys = (s.entry co).phys ∧ t.ctx = k.ctx ∧ t.kh = k.handle ∧ t.gidx = gidx ∧ t.index = j ∧
          t.group = s.ids + 1 ∧ t.bulk = k.bulk ∧ (e.getX 10).toNat = gidx % 2 ^ 64 ∧ (e.getX 11).toNat = j % 2 ^ 64 ∧
          (e.getX 12).toNat = k.handle % 2 ^ 64 ∧ (e.getX 13).toNat = k.count % 2 ^ 64 ∧ e.pc.toNat = k.ctentry % 2 ^ 64 ∧ e.mode = .u ∧
          (∀ n : XReg, n.toNat < 10 ∨ 13 < n.toNat → e.getX n = 0) ∧ ∀ i < 10, (u.slot (s.ids + 2 + j) i).st = .free) ∧
        (∃ y, SMap.find u.groups (s.ids + 1) = some y ∧ y.kernel = key ∧ y.gidx = gidx ∧ y.tasks.length = all.length ∧ y.complete = false) ∧
        u.ids = s.ids + 1 + all.length ∧ (∃ z, u.kernel key = some z ∧ (z.st = .running ∨ z.st = .placed)) ∧
        ∀ t, t ≤ s.ids + 1 → u.task t = s.task t)) ∧
    (s.dies.electing = false → s.ranked.head? = some r → s.candFits r.cand = false → s.preempting (s.candDies r.cand) = false →
      s.victimGroup r.prio (s.candDies r.cand) = some g → SMap.find s.groups g = some x → completes .groupPlacement s (fun u =>
        (∀ t ∈ x.tasks, (s.task t).st = .running → (s.task t).ending = false → (u.task t).st = .quiesceSave ∧ (u.task t).why = .preempt ∧
          (u.task t).arch = (s.task t).arch) ∧ ∀ t, t ∉ x.tasks → u.task t = s.task t)) ∧
    (s.kernel key = some k → k.ctx = c → k.handle = h → k.st = .ready → (s.ctx c).st = .resident → k.todo = [] → k.starving = [] → k.first ≤ g →
      g < k.count → (k.since + 1_000_000 ≤ s.now → completes (.placementStarvation c h g) s (fun u =>
          u.kernel key = some { k with starving := [g] } ∧ u.tasks = s.tasks)) ∧
        (s.now < k.since + 1_000_000 → completes (.placementStarvation c h g) s (fun u => u.kernel key = some k))) ∧
    (s.dies.electing = true → m < 16 → (s.fencedDie m = false ∧ ∀ e ∈ s.dies.fencing, e.1 ≠ m) →
      (∀ j < m, s.fencedDie j = true ∨ ∃ e ∈ s.dies.fencing, e.1 = j) →
      runs .masterElection s { s with dies := { s.dies with electing := false, master := m } }) ∧
    (s.dies.electing = false → runs .masterElection s s)

/-! ### Barrier domains and rollback (R285 to R288, R372 to R388) -/

/-- R285 to R288, R372, R375 to R378, R381, R385 to R387: an arrival is sent once no copy holds it back, and counts at its root; the last one completes its instance, and the heads of the members return, at the rollback level with the cut of every member; an abort code, a clash of operators, an arrival that reached no root and a watchdog end an instance; marks and triggers reach the group; a rollback halts, restores and releases the members. The completion is stated for members with no command begun and no retirement pending, at the rollback level within no line. That a copy whose waits held together at the head of its queue has begun is the model's reading (log 116), and that the members see a completion at once its choice (log 121); the frames of a trigger and of a restore between modules are its choice too (log 110), as are logs 44, 78 and 89 on marks, the watchdog and BARA. -/
def Obligations.BarrierAndRollbackEvents : Prop :=
  ∀ (s : State) (t l n m g k : Nat) (lv : BitVec 3) (p : Packet) (i : Inst) (x : Group) (a : Arch) (w : PendArr) (op : Option (BarOp × Option Word)),
    let kt := s.task t
    let taken := s.takePacket n
    ((s.arch t).bar.pendOf lv.toNat = some w → kt.onCore = true →
      let unchecked := fun u => ∃ c, kt.arch.eng.find u = some c ∧ c.st = .accepted ∧ c.again = false ∧ c.met = true
      let inProgress := fun u => ∃ c, kt.arch.eng.find u = some c ∧ (c.st = .begun ∨ (c.st = .accepted ∧ (c.again = true ∨ c.met = true)))
      let back := (∃ u ∈ w.same, unchecked u) ∨ ∃ u ∈ w.lower, inProgress u
      (¬back → runs (.barrierArrivalSend t lv) s
        ((s.updBar t (fun b => b.setPend lv.toNat none)).sendRoot t lv.toNat (.arrival t lv.toNat w.op w.code))) ∧
      (back → runs (.barrierArrivalSend t lv) s s)) ∧
    ((s.arch t).bar.pendOf lv.toNat = none → runs (.barrierArrivalSend t lv) s s) ∧
    (s.nextPacket n = none → runs (.barrierArrival n) s s ∧ runs (.nonrestartableMark n) s s ∧ runs (.rollbackTrigger n) s s) ∧
    (s.nextPacket n = some p → k = s.myInst t l → SMap.find s.insts k = some i →
      let count := fun (i : Inst) => { i with arrived := i.arrived ++ [(t, op)], st := if i.st = .open_ then .gathering else i.st,
                                              wdRun := if i.st = .open_ then true else i.wdRun, wdCount := if i.st = .open_ then 0 else i.wdCount,
                                              wdLimit := if i.st = .open_ then s.wdLimit l else i.wdLimit }
      let agrees := ∀ o v, op = some (o, v) → i.operator = none ∨ i.operator = some o
      let reaches := p.lost = false ∧ i.expired = false ∧ i.live = true
      let faults := fun (u : State) (lev : Nat) => ∀ m ∈ i.members, ∀ q < 10, (s.slot m q).barEnd = none →
        ((s.slot m q).kill = none → (s.slot m q).cond = .barrier lev → (u.slot m q).st = .faulted) ∧
        ((s.slot m q).cond = .abort lev → (u.slot m q).barEnd = some .recorded)
      let ends := fun (st : InstSt) (c : Nat) => completes (.barrierArrival n) s (fun u =>
        (∃ j, SMap.find u.insts k = some j ∧ j.st = st ∧ (st = .aborted → j.code = c)) ∧ faults u i.level)
      let calm := ∀ e ∈ s.insts, e.1 ≠ k → e.2.expired = false ∧ (e.2.live = true → e.2.full = true → 0 < e.2.pend)
      let last := p.body = .arrival t l op none ∧ reaches ∧ agrees ∧ i.level = l ∧ 1 ≤ l ∧ l < 4 ∧ i.members ≠ [] ∧
        (∀ u ∈ i.members, u = t ∨ ∃ e ∈ i.arrived, e.1 = u)
      let opened := fun (u : State) => ∃ j, SMap.find u.insts k = some j ∧ j.st = .open_ ∧ j.arrived = [] ∧ j.counter = i.counter + 1 ∧
        j.pend = i.pend + i.next ∧ j.next = 0
      let returns := fun (u : State) => ∀ m ∈ i.members, vget 0 (u.arch m).bar.steps (l - 1) = i.counter + 1 ∧
        ∀ q < 10, (s.slot m q).cond = .barrier l → (s.slot m q).barEnd = none → (u.slot m q).barEnd = some (.done (count i).result)
      (p.body = .arrival t l op none → reaches → agrees → runs (.barrierArrival n) s (taken.updInst k count).drainCheck) ∧
      (last → 0 < i.pend → calm → completes (.barrierArrival n) s (fun u => ∃ j, SMap.find u.insts k = some j ∧ j.st = .draining ∧
        j.arrived = i.arrived ++ [(t, op)] ∧ j.counter = i.counter)) ∧
      (last → i.pend ≤ 0 → calm → SMap.find s.groups i.group = some x → x.top ≠ l →
        completes (.barrierArrival n) s (fun u => opened u ∧ returns u)) ∧
      (last → i.pend ≤ 0 → calm → SMap.find s.groups i.group = some x → x.top = l →
        (∀ e ∈ s.tasks, e.2.group = i.group → e.2.cutRes = none) →
        (∀ m ∈ i.members, (s.task m).group = i.group ∧ (s.arch m).seq = none ∧ s.cores.marked.contains (s.task m).phys = false ∧
          (∀ c ∈ (s.eng m).cmds, c.st ≠ .begun) ∧ ∀ q < 10, (s.slot m q).st = .running → (s.slot m q).line.entered = false) →
        completes (.barrierArrival n) s (fun u => opened u ∧ returns u ∧
          (∃ y, SMap.find u.groups i.group = some y ∧ y.nr = false ∧ y.rbcnt = 0) ∧
          ∀ m ∈ i.members, (u.task m).cutRes = none ∧ (u.task m).snap.isSome = true ∧ (u.arch m).bar.undo = [] ∧ (u.arch m).bar.undoNr = false)) ∧
      (∀ c, p.body = .arrival t l op (some c) → reaches → i.level ≠ 4 → ends .aborted c) ∧
      (∀ o o' v, p.body = .arrival t l (some (o, v)) none → reaches → i.level ≠ 4 → i.operator = some o' → o ≠ o' → ends .aborted 0x8000) ∧
      (∀ c, p.body = .arrival t l op c → p.lost = true → i.live = true → i.level ≠ 4 → ends .aborted 0x8001) ∧
      (∀ c, p.body = .arrival t l op c → p.lost = false → i.expired = true → ends .timedout 0) ∧
      (∀ c, p.body = .arrival t l op c → i.live = false → runs (.barrierArrival n) s taken)) ∧
    (SMap.find s.insts k = some i →
      (i.st = .gathering ∨ i.st = .draining → 0 < i.wdLimit → i.wdLimit ≤ i.wdCount → completes (.watchdogExpiry k) s (fun u =>
        (∃ j, SMap.find u.insts k = some j ∧ j.st = .timedout) ∧
        ∀ m ∈ i.members, ∀ q < 10, (s.slot m q).barEnd = none → (s.slot m q).kill = none → (s.slot m q).cond = .barrier i.level →
          (u.slot m q).st = .faulted)) ∧
      (i.live = false ∨ i.st = .open_ ∨ i.wdLimit = 0 ∨ i.wdCount < i.wdLimit → runs (.watchdogExpiry k) s s)) ∧
    (s.nextPacket n = some p → p.body = .nrMark g t → p.old = true ∨ p.lost = true → runs (.nonrestartableMark n) s taken) ∧
    (s.nextPacket n = some p → p.body = .rbTrigger g t m → p.lost = true → runs (.rollbackTrigger n) s taken) ∧
    (s.nextPacket n = some p → p.lost = false → SMap.find s.groups g = some x →
      let runsOn := x.rolling = false ∧ x.complete = false ∧ x.killed = false
      (p.body = .nrMark g t → p.old = false → x.nr = false → completes (.nonrestartableMark n) s (fun u =>
        (∃ y, SMap.find u.groups g = some y ∧ y.nr = true) ∧ ∀ m ∈ x.tasks, (u.arch m).bar.undoNr = true)) ∧
      (p.body = .rbTrigger g t m → runsOn → s.podAbove x = none → x.nr = false → x.rbcnt < 3 →
        completes (.rollbackTrigger n) s (fun u =>
          (∃ y, SMap.find u.groups g = some y ∧ y.rolling = true ∧ y.rbcnt = x.rbcnt) ∧
          (∀ e ∈ u.insts, e.2.group = g → e.2.st = .aborted ∧ e.2.code = 0x8002) ∧
          (∀ y ∈ u.net, y.group = g → (∃ o j b, y.body = .word o j b) ∨ (y.old = true ∧ ∀ m l op c, y.body ≠ .arrival m l op c)) ∧
          ∀ j ∈ x.tasks, (s.task j).live = true → (u.task j).halted = true ∧ (u.task j).arch = (s.task j).arch)) ∧
      (p.body = .rbTrigger g t m → runsOn → s.podAbove x = none → x.nr = true ∨ 3 ≤ x.rbcnt → runs (.rollbackTrigger n) s (taken.killGroup g t m)) ∧
      (∀ up, p.body = .rbTrigger g t m → runsOn → s.podAbove x = some up → runs (.rollbackTrigger n) s (taken.podSend up g none (.trigger m))) ∧
      (p.body = .rbTrigger g t m → ¬runsOn → runs (.rollbackTrigger n) s taken)) ∧
    (s.canRestore t = true → s.groupOf t = some x → kt.snap = some a →
      (∀ u ∈ x.tasks, (s.task u).live = true → (s.task u).cutRes = none ∧ ∀ c ∈ (s.eng u).cmds, c.st ≠ .begun) →
      let log := (s.arch t).bar.undo
      completes (.rollbackRestore t) s (fun u => (u.task t).arch = a ∧ (u.task t).restored = true ∧ (u.task t).halted = true) ∧
      (log = [] → a.msgs.arrivals.length ≤ 16 → completes (.rollbackRestore t) s (fun u => sameBytes s u)) ∧
      (log.Nodup → (∀ o ∈ log, o % 64 = 0 ∧ o + 64 ≤ Config.undoBase) → a.msgs.arrivals.length ≤ 16 → completes (.rollbackRestore t) s (fun u =>
        (∀ e < log.length, ∀ j < 64, u.readByte (s.colKey t (log.getD e 0 + j)) = s.readByte (s.colKey t (Config.undoBase + 64 * e + j))) ∧
        ∀ b, (∀ o ∈ log, b < s.colKey t o ∨ s.colKey t o + 64 ≤ b) → u.readByte b = s.readByte b))) ∧
    (s.canRestore t = false → runs (.rollbackRestore t) s s) ∧
    (SMap.find s.groups g = some x →
      let all := ∀ j ∈ x.tasks, (s.task j).live = true → (s.task j).restored = true
      let kids := x.top ≠ 4 ∨ s.mg.podEn = false ∨ ∀ c ∈ s.podChildren, c ∈ x.podRest
      (x.rolling = true → all → kids → s.podAbove x = none → completes (.rollbackRendezvous g) s (fun u =>
        (∃ y, SMap.find u.groups g = some y ∧ y.rolling = false ∧ y.rbcnt = x.rbcnt + 1 ∧ y.nr = false) ∧
        (∀ e ∈ u.insts, e.2.group = g → e.2.st = .open_ ∧ e.2.arrived = []) ∧
        ∀ j ∈ x.tasks, (s.task j).live = true → (u.arch j).bar.rbcnt = x.rbcnt + 1 ∧ (u.task j).restored = false ∧
          ((u.task j).halted = true ↔ (s.ctx (s.task j).ctx).st = .fatal))) ∧
      (∀ up, x.rolling = true → all → kids → s.podAbove x = some up → x.restSent = false → runs (.rollbackRendezvous g) s
        ((s.podSend up g none .restored).updGroup g (fun x => { x with restSent := true }))) ∧
      (x.rolling = false ∨ ¬all ∨ ¬kids → runs (.rollbackRendezvous g) s s))

/-! ### The pod (R389 to R391, R410 to R412) -/

/-- R389 to R391, R410 to R412: a module's arrival goes to its parent or the root releases; frames are acknowledged, act, are held or dropped; a frame is sent again up to three times; pages settle, move and end their settlement, and what another module sends about a page comes in on a port. That a page new to the directory enters it with its move, and which word a forwarded request names, are the model's choices (log 18); so are that an instance gathers until its forward (log 80) and the frames of a rollback (log 110). -/
def Obligations.PodEvents : Prop :=
  ∀ (s : State) (k n g page who e : Nat) (i : Inst) (x : Group) (z : Kernel) (f : PodFrame) (p : PodPage),
    (SMap.find s.insts k = some i → i.level = 4 → i.live = true → i.full = true → i.pend ≤ 0 → s.kidsIn i = true → i.podSent = false →
      i.expired = false → s.mg.podRefuse = false → s.mg.podEn = true → SMap.find s.groups i.group = some x → s.kernel x.kernel = some z →
      x.podSeq = some n →
      (s.mg.podIdx ≠ 0 → completes (.podArrivalForward k) s (fun u =>
        (∃ j, SMap.find u.insts k = some j ∧ j.podSent = true ∧ j.st = i.st) ∧ u.tasks = s.tasks ∧
        ∃ y at_, u.podOut = s.podOut ++ [(y, (s.mg.podIdx - 1) / 16, 1, at_)] ∧ y.body = .arrival ∧ y.seqnum = n ∧ y.src = s.mg.podIdx ∧
          y.job = s.mg.podJob ∧ y.contrib = i.upward)) ∧
      (s.mg.podIdx = 0 → s.mg.podCnt = 0 → runs (.podArrivalForward k) s (s.complete k (releaseValue i.upward)).drainCheck)) ∧
    (SMap.find s.insts k = some i → i.level ≠ 4 ∨ i.full = false ∨ 0 < i.pend ∨ i.podSent = true ∨ s.mg.podEn = false ∨ s.mg.podRefuse = true ∨
      s.kidsIn i = false → runs (.podArrivalForward k) s s) ∧
    (s.mg.podEn = false ∨ f.job ≠ s.mg.podJob → runs (.podFrameArrival f) s s) ∧
    (s.mg.podEn = true → f.job = s.mg.podJob →
      let acked := s.podEmit f.src { f with src := s.mg.podIdx, body := .ack, contrib := none }
      let fresh := { acked with mg := { s.mg with podSeen := (f.src, f.serial) :: s.mg.podSeen } }
      (f.body = .ack → runs (.podFrameArrival f) s
        { s with podOut := s.podOut.filter (fun e => decide (¬ (e.1.serial = f.serial ∧ e.2.1 = f.src))) }) ∧
      (f.body ≠ .ack → s.mg.podSeen.contains (f.src, f.serial) = true → runs (.podFrameArrival f) s acked) ∧
      (f.body ≠ .ack → s.mg.podSeen.contains (f.src, f.serial) = false →
        (s.podGroup f = none → s.podCtx f.podtag = none → runs (.podFrameArrival f) s fresh) ∧
        (s.podGroup f = none → s.podCtx f.podtag = some n → (s.ctx n).podSeq ≤ f.seqnum ∨ s.podAgain n f.seqnum = true →
          runs (.podFrameArrival f) s { fresh with podHeld := s.podHeld ++ [f] }) ∧
        (s.podGroup f = none → s.podCtx f.podtag = some n → f.seqnum < (s.ctx n).podSeq → s.podAgain n f.seqnum = false →
          runs (.podFrameArrival f) s fresh) ∧
        (f.body = .arrival → s.podGroup f = some g → s.mg.podRefuse = true → runs (.podFrameArrival f) s fresh) ∧
        (f.body = .arrival → s.podGroup f = some g → s.mg.podRefuse = false → SMap.find s.insts (instKey g 4 0) = some i → i.live = true →
          (∀ c ∈ i.podKids, c.1 ≠ f.src) → f.contrib = none → completes (.podFrameArrival f) s (fun u =>
            u.podTx = acked.podTx ∧ ∃ j, SMap.find u.insts (instKey g 4 0) = some j ∧ j.podKids = i.podKids ++ [(f.src, none)] ∧
              j.arrived = i.arrived ∧ j.st = (if i.st = .open_ then .gathering else i.st))) ∧
        (f.body = .release → s.podGroup f = some g → SMap.find s.insts (instKey g 4 0) = some i → i.expired = false →
          i.live = false ∨ i.podSent = false → runs (.podFrameArrival f) s fresh) ∧
        (f.body = .rollback → s.podGroup f = some g → SMap.find s.groups g = some x → x.rolling = false → x.complete = false → x.killed = false →
          completes (.podFrameArrival f) s (fun u => (∃ y, SMap.find u.groups g = some y ∧ y.rolling = true) ∧
            ∀ j ∈ x.tasks, (s.task j).live = true → (u.task j).halted = true)))) ∧
    (∀ sent at_, s.podOut[n]? = some (f, who, sent, at_) →
      (s.now < at_ + 100_000 → runs (.podFrameResend n) s s) ∧
      (at_ + 100_000 ≤ s.now → sent ≤ 3 → runs (.podFrameResend n) s
        (State.podEmit { s with podOut := s.podOut.set n (f, who, sent + 1, s.now) } who f)) ∧
      (at_ + 100_000 ≤ s.now → 3 < sent → completes (.podFrameResend n) s (fun u => u.mg.podDown = true ∧ u.mg.podRefuse = true))) ∧
    (SMap.find s.pg.pod page = some p →
      let put := fun (y : PodPage) => { s with pg := { s.pg with pod := SMap.put s.pg.pod page y } }
      let ask := { p with asks := p.asks ++ [(who, s.now)] }
      let recent := p.moves.filter (fun t => decide (s.now < t + 2_000_000))
      let here := fun (u : State) => ∀ b, b < p.frame * 65536 ∨ p.frame * 65536 + 65536 ≤ b → u.readByte b = s.readByte b
      (who = s.mg.podIdx ∨ s.podPort who s.podCh = none → runs (.podMoveRequest page who) s s) ∧
      (who ≠ s.mg.podIdx → s.podPort who s.podCh ≠ none →
        (p.home ≠ s.mg.podIdx → runs (.podMoveRequest page who) s (s.forwardWord page p.home)) ∧
        (p.home = s.mg.podIdx → p.moving = some n → runs (.podMoveRequest page who) s (s.forwardWord page n)) ∧
        (p.home = s.mg.podIdx → p.moving = none →
          (p.settled = none → recent.length < 4 →
            runs (.podMoveRequest page who) s (put { ask with moving := some who, moves := recent ++ [s.now] })) ∧
          (p.settled = none → 4 ≤ recent.length → completes (.podMoveRequest page who) s (fun u =>
            SMap.find u.pg.pod page = some { ask with settled := some (s.now + 32_000_000) } ∧ u.pg.settle = (s.pg.settle + 1) % 2 ^ 32 ∧ here u)) ∧
          (p.settled = some e → s.now < e → completes (.podMoveRequest page who) s (fun u => SMap.find u.pg.pod page = some ask ∧ here u)) ∧
          (p.settled = some e → e ≤ s.now → runs (.podMoveRequest page who) s
            (put { ask with settled := none, moving := some who, moves := [s.now] })))) ∧
      (p.home ≠ s.mg.podIdx → runs (.podSettleNotice page) s { s with pg := { s.pg with settle := (s.pg.settle + 1) % 2 ^ 32 } }) ∧
      (p.settled = some e → e ≤ s.now → runs (.podSettleEnd page) s (put { p with settled := none, moves := [] })) ∧
      (p.settled = some e → s.now < e → runs (.podSettleEnd page) s s) ∧
      (p.home = s.mg.podIdx → p.moving = some who → completes (.podMoveComplete page) s (fun u =>
        SMap.find u.pg.pod page = some { p with home := who, moving := none } ∧ u.mem = s.mem)) ∧
      (p.home ≠ s.mg.podIdx → s.podPort p.home s.podCh ≠ none → s.freeFrame 0 = some n → completes (.podMoveComplete page) s (fun u =>
        ∃ y, SMap.find u.pg.pod page = some y ∧ y.home = s.mg.podIdx ∧ y.frame = n ∧ y.settled = none ∧ y.moving = none))) ∧
    (SMap.find s.pg.pod page = none → s.activePorts ≠ [] → s.freeFrame 0 = some n → completes (.podMoveComplete page) s (fun u =>
      ∃ y, SMap.find u.pg.pod page = some y ∧ y.home = s.mg.podIdx ∧ y.frame = n ∧ y.settled = none ∧ y.moving = none))

/-! ### Pages (R397 to R415) -/

/-- R258, R397, R400 to R409, R414, R415: page commands judge their range and act; staging and write-back move the page's bytes and no others, before what waited for the page goes on; leases and deadlines end; a shootdown and a harvest complete, and what was gathered reaches A and D of the tables' entries and no other bit. -/
def Obligations.PageEvents : Prop :=
  ∀ (s : State) (c n page va pages sem t0 due : Nat) (frames : List Nat) (l : ILease),
    let k := c % 4096
    let pgres := fun (v : Nat) => { s with pg := { s.pg with status := v } }
    let known := (s.ctx k).st = .defined ∨ (s.ctx k).st = .resident
    let range := s.pg.cnt ≠ 0 ∧ s.pg.va + 65536 * s.pg.cnt ≤ 2 ^ 56
    let aligned := s.pg.arg.toNat % 8 = 0
    let resident := (List.range s.pg.cnt).flatMap (fun i => s.residentOf k (s.pg.va / 65536 + i))
    let ticked := (s.pg.tick + 1) % 2 ^ 32
    (¬known → runs (.shoot c) s (pgres 2) ∧ runs (.stage c) s (pgres 2) ∧ runs (.pageEvict c) s (pgres 2) ∧ runs (.ephset c) s (pgres 2) ∧
      runs (.harvest c) s (pgres 2)) ∧
    (known → ¬(range ∧ aligned) → runs (.shoot c) s (pgres 3) ∧ runs (.stage c) s (pgres 3) ∧ runs (.pageEvict c) s (pgres 3) ∧
      runs (.harvest c) s (pgres 3)) ∧
    (known → range → aligned → completes (.shoot c) s (fun u =>
      u.pg.jobs = s.pg.jobs ++ [.harvest k s.pg.va s.pg.cnt 0 (s.now + Config.leaseLen),
        .shoot k s.pg.va s.pg.cnt s.pg.arg.toNat s.now resident] ∧ u.pg.time = s.now + Config.leaseLen ∧
      u.pg.status = 0 ∧ u.pg.tick = ticked ∧ u.mem = s.mem)) ∧
    (known → range → aligned → completes (.stage c) s (fun u => u.pg.status = 0)) ∧
    (known → range → aligned → s.pg.jobs = [] → (s.stageable k s.pageRange).2 = false → completes (.stage c) s (fun u =>
      let frames := (s.stageable k s.pageRange).1
      u.pg.jobs = [] ∨ (u.pg.jobs = [.stage k frames s.pg.arg.toNat s.pg.serial] ∧
        ∀ f ∈ frames, .stage s.pg.serial ∈ (u.resid f).holds ∨ (f, k, .stage s.pg.serial) ∈ u.pg.frameWait))) ∧
    (known → range → aligned → completes (.pageEvict c) s (fun u => u.pg.status = 0)) ∧
    (known → range → aligned → s.pg.jobs = [] → s.pg.frameWait = [] → completes (.pageEvict c) s (fun u =>
      (∀ f ∈ resident, (s.resid f).st = .resident →
        ((s.resid f).holds = [] → (u.resid f).st = if (s.resid f).dirty then .writeback else .home) ∧
        ((s.resid f).holds ≠ [] → (u.resid f).st = .resident ∧ (u.resid f).leaving = true)) ∧
      ((∃ f ∈ resident, (s.resid f).st = .writeback ∨ (s.resid f).holds ≠ [] ∨ (s.resid f).dirty = true) →
        u.pg.jobs = [.evict k resident s.pg.arg.toNat] ∧ sameBytes s u) ∧
      ((∀ f ∈ resident, (s.resid f).st = .resident ∧ (s.resid f).holds = [] ∧ (s.resid f).dirty = false) → u.pg.jobs = []))) ∧
    (known → range → s.pg.arg.toNat ≤ s.now ∨ s.now + 32_000_000 < s.pg.arg.toNat ∨
      (∃ i < s.pg.cnt, s.ephFrame k (s.pg.va / 65536 + i) = none) → runs (.ephset c) s (pgres 3)) ∧
    (known → range → s.now < s.pg.arg.toNat → s.pg.arg.toNat ≤ s.now + 32_000_000 →
      (∀ i < s.pg.cnt, s.ephFrame k (s.pg.va / 65536 + i) ≠ none) → completes (.ephset c) s (fun u =>
        u.pg.status = 0 ∧ u.mem = s.mem ∧
        (∀ i < s.pg.cnt, ∀ f, s.ephFrame k (s.pg.va / 65536 + i) = some f → (u.ephOf f).deadline = s.pg.arg.toNat ∧
          (u.ephOf f).good = if s.now < (s.ephOf f).deadline then (s.ephOf f).good else []) ∧
        ∀ f, (∀ i < s.pg.cnt, s.ephFrame k (s.pg.va / 65536 + i) ≠ some f) → u.ephOf f = s.ephOf f)) ∧
    (known → range → aligned → completes (.harvest c) s (fun u => u.pg.status = 0 ∧ u.pg.tick = ticked ∧ u.pg.time ≤ s.now + 32_000 ∧ s.now ≤ u.pg.time ∧
      u.pg.jobs = s.pg.jobs ++ [.harvest k s.pg.va s.pg.cnt s.pg.arg.toNat u.pg.time])) ∧
    (s.pg.jobs[n]? = some (.shoot k va pages sem t0 frames) →
      let harvesting := s.pg.jobs.contains (.harvest k va pages 0 (t0 + Config.leaseLen))
      (s.oldLease k va pages t0 = true ∨ s.framesGone frames = false ∨ harvesting = true → runs (.shootdownComplete n) s s) ∧
      (s.oldLease k va pages t0 = false → s.framesGone frames = true → harvesting = false →
        runs (.shootdownComplete n) s (((s.harvestRange k va pages).dropJob n).pageSignal k sem false) ∧
        (sem = 0 → runs (.shootdownComplete n) s ((s.harvestRange k va pages).dropJob n)))) ∧
    (s.pg.jobs[n]? = some (.harvest k va pages sem due) →
      (s.now < due → s.ofShoot k va pages due = false → runs (.harvestComplete n) s s) ∧
      (due ≤ s.now ∨ s.ofShoot k va pages due = true → sem = 0 → (s.ctx k).ptroot % 8 = 0 → completes (.harvestComplete n) s (fun u =>
        let inRange := fun p => va / 65536 ≤ p ∧ p < va / 65536 + pages ∧ p < 2 ^ 40
        let entry := fun p => s.leafAddr (p * 65536) 4 (s.ctx k).ptroot
        u.pg.jobs = s.pg.jobs.eraseIdx n ∧ u.tasks = s.tasks ∧ u.pg.tick = s.pg.tick ∧
        (∀ p, inRange p → SMap.find u.pg.gathered (k * 2 ^ 40 + p) = none) ∧
        (∀ p g a, inRange p → SMap.find s.pg.gathered (k * 2 ^ 40 + p) = some g → entry p = some a → s.writeHeld a = false →
          (g.1 = true → (u.readWord a false).1.getLsbD 5 = true) ∧ (g.2.1 = true → (u.readWord a false).1.getLsbD 6 = true) ∧
          ∀ i < 64, i ≠ 5 → i ≠ 6 → (u.readWord a false).1.getLsbD i = (s.readWord a false).1.getLsbD i) ∧
        ∀ b, (∀ p a, inRange p → SMap.find s.pg.gathered (k * 2 ^ 40 + p) ≠ none → entry p = some a →
          b < s.served a ∨ s.served a + 8 ≤ b) → u.readByte b = s.readByte b))) ∧
    (s.pg.ileases[n]? = some l →
      (l.granted + Config.leaseLen ≤ s.now → runs (.leaseExpiry n) s { s with pg := { s.pg with ileases := s.pg.ileases.eraseIdx n } }) ∧
      (s.now < l.granted + Config.leaseLen → runs (.leaseExpiry n) s s)) ∧
    (let r := s.resid page
     let moved := fun (w : State) (src dst : Nat) => (∀ j < 65536, w.readByte (dst * 65536 + j) = s.readByte (src * 65536 + j)) ∧
       ∀ b, b < dst * 65536 ∨ dst * 65536 + 65536 ≤ b → w.readByte b = s.readByte b
     let unheld := ∀ x ∈ s.pg.held, x.key / 65536 ≠ page
     (r.st = .staging → s.pw.step = 0 → completes (.stagingDone page) s (fun u => ∃ w : State,
       u = (w.pumpFrames.tloadsAll).pageJobs.drainCheck ∧ w.tasks = s.tasks ∧ w.insts = s.insts ∧ (unheld → moved w page r.frame) ∧
       (r.leaving = false → (w.resid page).st = .resident ∧ (w.resid page).age = s.pg.tick ∧ (w.resid page).since = s.now ∧
         (w.resid page).frame = r.frame) ∧
       (unheld → r.leaving = true → r.holds = [] → (w.resid page).st = if r.dirty then .writeback else .home))) ∧
     (r.st = .writeback → completes (.writebackDone page) s (fun u => ∃ w : State,
       u = (r.holds.foldl (fun (x : State) h => x.needPage (page, r.ctx, h)) w.pumpFrames).pageJobs ∧ w.tasks = s.tasks ∧
       (unheld → moved w r.frame page) ∧ (w.resid page).st = .home))) ∧
    ((s.resid page).st = .staging → s.pw.step = 0 → (s.resid page).leaving = false → s.pg.frameWait = [] →
      completes (.stagingDone page) s (fun u => (u.resid page).st = .resident ∧ (u.resid page).age = s.pg.tick ∧
        (u.resid page).frame = (s.resid page).frame)) ∧
    ((s.resid page).st ≠ .staging ∨ 1 ≤ s.pw.step → runs (.stagingDone page) s s) ∧
    ((s.resid page).st ≠ .writeback → runs (.writebackDone page) s s.pageJobs) ∧
    ((s.resid page).st = .writeback → (s.resid page).holds = [] → s.pg.frameWait = [] → s.pg.jobs = [] → s.pg.held = [] → completes (.writebackDone page) s (fun u =>
      (u.resid page).st = .home ∧ (∀ j < 65536, u.readByte (page * 65536 + j) = s.readByte ((s.resid page).frame * 65536 + j)) ∧
      ∀ a, a < page * 65536 ∨ page * 65536 + 65536 ≤ a → u.readByte a = s.readByte a)) ∧
    ((s.ephOf page).deadline ≤ s.now → completes (.ephemeralDeadline page) s (fun u => (u.ephOf page).good = [] ∧
      ∀ a, a / 65536 = page → u.ephLive a = false)) ∧
    (s.now < (s.ephOf page).deadline → runs (.ephemeralDeadline page) s s)

/-! ### Links (R416 to R427) -/

/-- R416, R420, R421, R423, R427, R436: flits are checked, acknowledged and delivered in order, and sent again; links train, retrain, quiesce and fail. That a flit or an acknowledgement which the far end has not sent does not come, and which packet a data flit carries, are the model's (log 13). -/
def Obligations.LinkEvents : Prop :=
  ∀ (s : State) (link d : Nat) (fromLow half repair e : Bool) (flit : BitVec 512) (ch : BitVec 5),
    let key := linkKey link
    let l := s.link key
    let f := flitOf flit.toNat
    let dir := if fromLow then 0 else 1
    let chan := fun k => SMap.get Chan.reset l.chans k
    let put := fun k c => { l with chans := SMap.put l.chans k c }
    let is := fun (x : Link) => s.setLink key x
    let failed := fun (cause : Nat) (u : State) => (u.link key).st = .failed ∧ (u.link key).cause = cause ∧
      ∀ c ∈ (u.link key).chans, c.2.tx = []
    let recentCrc := l.crcTimes.filter (fun t => decide (s.now < t + 1_000_000))
    let recent := l.retrains.filter (fun t => decide (s.now < t + 1_000_000_000))
    let kd := chanKey dir f.e f.ch
    let ka := chanKey (1 - dir) f.ae f.ach
    let ack := fun (nak : Bool) => flitWord (ackBits kd (chan kd).exp nak)
    let kt := chanKey dir e ch.toNat
    let gap := (f.seq + 4096 - (chan kd).exp) % 4096
    let left := (chan ka).tx.filter (fun x => decide ((x.seq + 4096 - f.aseq) % 4096 < 2048))
    let rest := { chan ka with tx := left, since := if left.length < (chan ka).tx.length then s.now else (chan ka).since }
    let acked := { l with acks := l.acks.erase (dir, flit) }
    let again := (chan kt).tx.map (fun x => { x with resent := x.resent + 1 })
    let lanesNow := if key < 256 then (if half then 32 else 64) else if key < 272 then 8 else 16
    (l.st ≠ .active → runs (.flitReceive link fromLow flit) s s ∧ runs (.sidebandError link) s s ∧ runs (.replayTimeout link fromLow ch e) s s) ∧
    (l.st = .active →
      (flitOk flit.toNat = false → recentCrc.length < 63 → runs (.flitReceive link fromLow flit) s
        (is { l with crcerr := min (l.crcerr + 1) (2 ^ 32 - 1), crcTimes := recentCrc ++ [s.now] })) ∧
      (flitOk flit.toNat = false → 63 ≤ recentCrc.length → recent.length < 3 → completes (.flitReceive link fromLow flit) s (fun u =>
        (u.link key).st = .retrain ∧ (u.link key).retrainAt = s.now ∧ (u.link key).crcerr = min (l.crcerr + 1) (2 ^ 32 - 1))) ∧
      (flitOk flit.toNat = true → f.av = false → f.type = 0 → (chan kd).exp < 4096 → l.carries kd f.seq = true →
        (gap = 0 → runs (.flitReceive link fromLow flit) s ((s.flitLands key kd f.seq).setLink key (put kd
          { chan kd with exp := ((chan kd).exp + 1) % 4096, naked := false, due := some ((chan kd).due.getD (s.now + 100)) })).pump) ∧
        (0 < gap → gap < 2048 → (chan kd).naked = true → runs (.flitReceive link fromLow flit) s (is (put kd (chan kd))).pump) ∧
        (0 < gap → gap < 2048 → (chan kd).naked = false → runs (.flitReceive link fromLow flit) s
          (is { (put kd { chan kd with naked := true, due := none }) with acks := l.acks ++ [(1 - dir, ack true)] }).pump) ∧
        (2048 ≤ gap → runs (.flitReceive link fromLow flit) s
          (is { (put kd { chan kd with due := none }) with acks := l.acks ++ [(1 - dir, ack false)] }).pump)) ∧
      (flitOk flit.toNat = true → f.av = false → f.type = 0 → l.carries kd f.seq = false → runs (.flitReceive link fromLow flit) s s) ∧
      (flitOk flit.toNat = true → f.type ≠ 0 → l.acked dir flit f = true →
        (f.nak = false → runs (.flitReceive link fromLow flit) s (is { acked with chans := SMap.put l.chans ka rest })) ∧
        (f.nak = true → (∀ x ∈ left, x.resent < 7) → completes (.flitReceive link fromLow flit) s (fun u =>
          (SMap.get Chan.reset (u.link key).chans ka).tx = left.map (fun x => { x with resent := x.resent + 1 }) ∧
          (u.link key).replay = min (l.replay + left.length) (2 ^ 32 - 1) ∧ (u.link key).acks = l.acks.erase (dir, flit)))) ∧
      (flitOk flit.toNat = true → f.type ≠ 0 → l.acked dir flit f = false → runs (.flitReceive link fromLow flit) s s) ∧
      ((chan kt).tx ≠ [] → (chan kt).since + 500 ≤ s.now →
        ((∀ x ∈ (chan kt).tx, x.resent < 7) → runs (.replayTimeout link fromLow ch e) s
          (is { put kt { chan kt with tx := again, since := s.now } with replay := min (l.replay + again.length) (2 ^ 32 - 1) })) ∧
        ((∃ x ∈ (chan kt).tx, 7 ≤ x.resent) → completes (.replayTimeout link fromLow ch e) s (failed 2))) ∧
      ((chan kt).tx = [] ∨ s.now < (chan kt).since + 500 → runs (.replayTimeout link fromLow ch e) s s) ∧
      (recent.length < 3 → runs (.sidebandError link) s
        (is { l with st := .retrain, retrainAt := s.now, retrains := recent ++ [s.now], crcTimes := [] })) ∧
      (3 ≤ recent.length → completes (.sidebandError link) s (failed 3))) ∧
    (l.st = .training → completes (.linkTrained link half repair) s (fun u =>
        (u.link key).st = .active ∧ (u.link key).width = lanesNow ∧ (u.link key).repair = repair ∧ (u.link key).attempts = 0 ∧ u.mem = s.mem ∧
        (key = 272 → u.msix = s.msix ++ s.msixHeld ∧ u.msixHeld = []) ∧
        u.bt.okBy = (if key = 272 ∧ s.bt.waiting = true ∧ s.bt.okBy = none then some (s.now + 900_000_000_000) else s.bt.okBy)) ∧
      (l.attempts < 2 → runs (.trainingFailed link) s (is { l with attempts := l.attempts + 1 })) ∧
      (2 ≤ l.attempts → completes (.trainingFailed link) s (failed 1))) ∧
    (l.st ≠ .training → runs (.trainingFailed link) s s) ∧
    (l.st = .retrain →
      (s.now < l.retrainAt + 10_000 → (∀ c ∈ l.chans, (chan c.1).tx = []) → completes (.linkTrained link half repair) s (fun u =>
        u.link key = { l with st := .active, width := lanesNow, repair := repair || l.repair } ∧ u.tasks = s.tasks ∧ u.mem = s.mem ∧
        (s.dies.phase ≠ 5 → u.dies = s.dies))) ∧
      (l.retrainAt + 10_000 ≤ s.now → runs (.linkTrained link half repair) s s ∧ completes (.retrainTimeout link) s (failed 3)) ∧
      (s.now < l.retrainAt + 10_000 → runs (.retrainTimeout link) s s)) ∧
    (l.st ≠ .retrain → runs (.retrainTimeout link) s s) ∧
    (l.st ≠ .training → l.st ≠ .retrain → runs (.linkTrained link half repair) s s) ∧
    (s.dies.warm = some d → s.dies.phase = 1 → s.fencedDie d = true → d ∈ linkDies key → l.st = .active ∨ l.st = .retrain →
      ((∀ c ∈ l.chans, c.2.tx = []) → completes (.linkQuiesced link) s (fun u => u.link key = { l with st := .quiesced } ∧ u.tasks = s.tasks ∧
        (u.dies.phase = 1 ∨ u.dies.phase = 3))) ∧
      ((∃ c ∈ l.chans, c.2.tx ≠ []) → runs (.linkQuiesced link) s s)) ∧
    (s.dies.warm = none → runs (.linkQuiesced link) s s) ∧
    ∀ (k n : Nat) (nak : Bool), k < 128 → n < 4096 → flitOf (flitWord (ackBits k n nak)).toNat =
      { ch := 0, e := false, type := 1, seq := 0, ach := k % 32, ae := decide (k / 32 % 2 = 1), av := true, nak := nak, aseq := n }

/-- R351, R425 to R427, R445: the fence of a die, its instant, and the warm reset of a die step by step; a reissued group is back in its kernel's list. The frames that are spilled are the model's reading of R427 (log 67); that die and group SRAM read 0 after the fourth step is its choice (log 3), and so is what the bounds of the steps force (log 118). -/
def Obligations.DieEvents : Prop :=
  ∀ (s : State) (d m g : Nat) (x : Group) (kn : Kernel),
    let di := s.dies
    let put := fun (e : Dies) => { s with dies := e }
    let spilled := fun (f : Nat) => spillBase d + f * 65536
    let w := s.harvestDie d
    let due := di.fencing ++ [(d, s.now + 10_000)]
    let isDue := fun j => ∃ e ∈ di.fencing, e.1 = j
    let elect := di.electing || decide (di.master = d)
    let by_ := if di.master = d then s.now + 10_000 else di.electBy
    d < 16 →
    (di.busy = true → runs (.dieFence d) s s ∧ runs (.warmReset d) s s) ∧
    (di.busy = false → s.fencedDie d = true → runs (.dieFence d) s (put { di with cmdDie := d, phase := 2 })) ∧
    (di.busy = false → s.fencedDie d = false → ¬isDue d →
      runs (.dieFence d) s (put { di with cmdDie := d, busy := true, phase := 1, fencing := due, electing := elect, electBy := by_ }) ∧
      runs (.warmReset d) s
        (put { di with cmdDie := d, busy := true, phase := 1, warm := some d, fencing := due, electing := elect, electBy := by_ })) ∧
    (di.busy = false → s.fencedDie d = false → isDue d →
      runs (.dieFence d) s (put { di with cmdDie := d, busy := true, phase := 1 }) ∧
      runs (.warmReset d) s (put { di with cmdDie := d, busy := true, phase := 1, warm := some d })) ∧
    (di.busy = false → s.fencedDie d = true → completes (.warmReset d) s (fun u => u.dies.warm = some d ∧ u.dies.busy = true ∧
      u.dies.fencing = di.fencing ∧ u.dies.phase =
        (if (linksAt d).all (fun k => decide ((s.link k).st = .quiesced ∨ (s.link k).st = .failed)) then 3 else 1))) ∧
    (¬isDue d → runs (.fenceInstant d) s s) ∧
    (isDue d → (∀ e ∈ s.groups, e.2.complete = false → ∀ t ∈ e.2.tasks, (s.task t).onDie d = false) → completes (.fenceInstant d) s (fun u =>
      u.fencedDie d = true ∧ (∀ j, j ≠ d → u.fencedDie j = s.fencedDie j) ∧ (∀ e ∈ u.dies.fencing, e.1 ≠ d) ∧ u.dies.electing = true ∧
      ((∀ k ∈ linksAt d, s.unacked k = []) → sameBytes s u) ∧
      (di.warm ≠ some d → ∀ k ∈ linksAt d, (s.link k).st = .training ∨ (s.link k).st = .active ∨ (s.link k).st = .retrain →
        (u.link k).st = .failed ∧ (u.link k).cause = 4) ∧
      (di.warm = some d → ∀ k, u.link k = s.link k) ∧
      (di.cmdDie = d → di.warm ≠ some d → u.dies.busy = false ∧ (di.warm = none → u.dies.phase = 2)))) ∧
    (isDue d → SMap.find s.groups g = some x → x.complete = false → x.killed = false → (∃ t ∈ x.tasks, (s.task t).onDie d = true) →
      completes (.fenceInstant d) s (fun u => SMap.find u.groups g = none ∧ (∀ t ∈ x.tasks, (u.task t).live = false) ∧
        (s.kernel x.kernel = some kn → kn.st.over = false → ∃ v, u.kernel x.kernel = some v ∧ v.st = .running ∧
          ∃ a ∈ v.todo, a.gidx = x.gidx ∧ a.podSeq = x.podSeq ∧ a.since = s.now))) ∧
    (di.warm = none → runs .dieSpillDone s s ∧ runs .dieResetDone s s ∧ runs .dieRestoreDone s s ∧ runs .dieReadmitDone s s) ∧
    (di.warm = some d →
      (di.phase ≠ 3 → runs .dieSpillDone s s) ∧
      (di.phase = 3 → s.spillRoute d = false → runs .dieSpillDone s (put { di with phase := 4, spilled := [], stepBy := some (s.now + 50_000) })) ∧
      (di.phase = 3 → s.spillRoute d = true → completes .dieSpillDone s (fun u =>
        u.dies = { di with phase := 4, spilled := s.dirtyFrames d, stepBy := some (s.now + 50_000) } ∧
        (s.pg.gathered = [] → w = s) ∧
        (∀ f ∈ s.dirtyFrames d, ∀ j < 65536, u.readByte (spilled f + j) = w.readByte (spillFrameKey d f + j) ∧
          u.poisonOf (spilled f + j) = w.poisonOf (spillFrameKey d f + j)) ∧
        ∀ a, (∀ f ∈ s.dirtyFrames d, a < spilled f ∨ spilled f + 65536 ≤ a) → u.readByte a = w.readByte a)) ∧
      (di.phase ≠ 4 → runs .dieResetDone s s) ∧
      (di.phase = 4 → completes .dieResetDone s (fun u => (u.dies.phase = 5 ∨ u.dies.phase = 6) ∧ u.dies.fenced = di.fenced ∧
        (∀ a, columnKey ⟨d, 0, 0⟩ 0 ≤ a → a < columnKey ⟨d, 0, 0⟩ 0 + 2 ^ 34 → u.readByte a = 0) ∧
        (∀ a, dieKey d 0 ≤ a → a < dieKey d 0 + 2 ^ 31 → u.readByte a = 0) ∧ (∀ a, a < 2 ^ 54 → u.readByte a = s.readByte a) ∧
        (∀ k ∈ linksAt d, s.peerLive d k = true → (u.link k).st = .training ∧ (u.link k).attempts = 0) ∧
        (∀ e ∈ u.cores.icopies, e.phys.d ≠ d) ∧ u.net = s.net.filter (fun p => !p.standsOn d))) ∧
      (di.phase ≠ 6 → runs .dieRestoreDone s s) ∧
      (di.phase = 6 → di.spilled = [] →
        runs .dieRestoreDone s (put { di with
          phase := 7
          electing := true
          electBy := s.now + 10_000
          spilled := []
          stepBy := some (s.now + 10_000) })) ∧
      (di.phase = 6 → (∀ f ∈ di.spilled, f < 65536) → completes .dieRestoreDone s (fun u => u.dies.phase = 7 ∧ u.dies.spilled = [] ∧
        (∀ f ∈ di.spilled, ∀ j < 65536, u.readByte (spillFrameKey d f + j) = s.readByte (spilled f + j)) ∧
        ∀ a, (∀ f ∈ di.spilled, a < spillFrameKey d f ∨ spillFrameKey d f + 65536 ≤ a) → u.readByte a = s.readByte a)) ∧
      (di.phase ≠ 7 → runs .dieReadmitDone s s) ∧
      (di.phase = 7 → completes .dieReadmitDone s (fun u => u.dies.phase = 0 ∧ u.dies.warm = none ∧ u.dies.busy = false ∧
        u.dies.electing = false ∧ u.fencedDie d = false ∧ (∀ j < 16, j ≠ d → u.fencedDie j = s.fencedDie j) ∧ u.mem = s.mem ∧
        (∀ e, SMap.find u.cores.table e = if e / 2048 = d then SMap.find s.flash.harv.map e else SMap.find s.cores.table e) ∧
        (m < 16 → u.fencedDie m = false → ¬isDue m → (∀ j < m, u.fencedDie j = true ∨ isDue j) → u.dies.master = m))))

/-! ### Power, boot and the host (R428 to R437) -/

/-- R428 to R434: caps and steps of the throttle, the thermal cap and trip, the power-fail trap, its image, and the copy of the image. That PFCOPY without an image sets DONE, and the size and bytes of the control state, are the model's choices (log 70); so are MET (log 111), the instants at which the thermal cap moves (log 71), the draw that a bound leaves (log 11), and the window at HBM byte 0 (log 4). -/
def Obligations.PowerEvents : Prop :=
  ∀ (s : State) (v : Word) (pins : BitVec 2) (draw predicted tj a n cause at_ : Nat) (held : Bool) (off : BitVec 20),
    let p := s.pw
    let eff := fun (q : Power) => min (min q.cap (vget 80 q.pre q.pstep)) q.thermal
    let is := fun (q : Power) => { s with pw := q }
    let most := fun (q : Power) =>
      min (min (if q.step = 23 then 299 else 65535) (match q.trap with | some (t, _) => if t + 100_000 ≤ s.now then 300 else 65535 | none => 65535))
        (match q.lastDecrease with | some t => if t + 1_000_000 ≤ s.now then 25 * eff q else 65535 | none => 65535)
    let settles := fun (i : Instr) (q : Power) =>
      (q.draw ≤ most q → runs i s (is q)) ∧
      (most q < q.draw → completes i s (fun u => ∃ d ≤ most q,
        u = { is { q with draw := d, met := q.met || decide (d ≤ 25 * eff q) } with free := s.free + 1 }))
    let capped := fun (i : Instr) (q : Power) =>
      (eff p ≤ eff q → runs i s (is { q with met := q.met || decide (q.draw ≤ 25 * eff q) })) ∧
      (eff q < eff p → settles i { q with
        lastDecrease := some s.now, lastAdd := s.now, met := decide (q.draw ≤ 25 * eff q)
        step := max q.step (min (Config.predictDepth (eff q) q.draw) 23) })
    let warm := { p with tj := tj % 256, hot := p.hot && decide (p.warn ≤ tj) }
    let seen := { p with draw := draw % 65536, met := p.met || decide (draw % 65536 ≤ 25 * eff p) }
    capped (.pwrcapWrite v) { p with cap := max 12 (min 80 (v.toNat % 128)) } ∧
    capped (.pstepChange pins) { p with pstep := pins.toNat } ∧
    (most p < draw % 65536 → runs (.throttleStepAdd draw) s s) ∧
    (draw % 65536 ≤ most p → p.lastAdd + 20_000 ≤ s.now → 25 * eff p < draw % 65536 → p.step < 23 →
      settles (.throttleStepAdd draw) { seen with step := p.step + 1, lastAdd := s.now }) ∧
    (draw % 65536 ≤ most p → s.now < p.lastAdd + 20_000 ∨ draw % 65536 ≤ 25 * eff p ∨ 23 ≤ p.step →
      runs (.throttleStepAdd draw) s (is seen)) ∧
    (p.lastRemove + 100_000 ≤ s.now → 0 < p.step → 100 * predicted ≤ 95 * (25 * eff p) →
      let fewer := is { p with step := p.step - 1, lastRemove := s.now }
      runs (.throttleStepRemove predicted) s (if p.step = 1 then fewer.pumpFrames else fewer)) ∧
    (s.now < p.lastRemove + 100_000 ∨ p.step = 0 ∨ 95 * (25 * eff p) < 100 * predicted → runs (.throttleStepRemove predicted) s s) ∧
    (110 ≤ tj → exec (.junctionAboveWarn tj) s = exec (.thermalTrip tj) s ∧ exec (.thermalCapAdjust tj) s = exec (.thermalTrip tj) s) ∧
    (tj < 110 → p.warn < tj → p.hot = false →
      let q := { p with tj := tj % 256, hot := true, thermal := max 12 (eff p - 1), thermalAt := s.now }
      capped (.junctionAboveWarn tj) q ∧ capped (.thermalCapAdjust tj) q) ∧
    (tj < 110 → tj ≤ p.warn ∨ p.hot = true →
      runs (.junctionAboveWarn tj) s (is warm) ∧
      (s.now < p.thermalAt + 1_000_000 → runs (.thermalCapAdjust tj) s (is warm)) ∧
      (p.thermalAt + 1_000_000 ≤ s.now →
        (p.hot = true → p.warn ≤ tj → capped (.thermalCapAdjust tj) { warm with thermalAt := s.now, thermal := max 12 (p.thermal - 1) }) ∧
        (tj < p.warn → capped (.thermalCapAdjust tj) { warm with thermalAt := s.now, thermal := min 80 (p.thermal + 1) }) ∧
        (p.hot = false → tj = p.warn → runs (.thermalCapAdjust tj) s (is warm)))) ∧
    (tj < 110 → runs (.thermalTrip tj) s s) ∧
    (p.trap = none → s.stopped = false →
      let trapped := fun (k : Nat) (u : State) => u.pw.trap = some (s.now, k) ∧ u.mem = s.mem ∧
        u.msix = (if (s.link 272).st = .active then s.msix ++ [3] else s.msix) ∧
        ∀ t, ((s.task t).live = true → (u.task t).halted = true ∧ ∀ i < 10, u.slot t i = s.slot t i) ∧
          ((s.task t).live = false → u.task t = s.task t)
      (110 ≤ tj → completes (.thermalTrip tj) s (fun u => trapped 1 u ∧ u.pw.tj = tj % 256)) ∧
      completes .pfailAssert s (fun u => trapped 0 u ∧ u.pw.pfail = true)) ∧
    (p.trap ≠ none → runs .pfailAssert s (is { p with pfail := true })) ∧
    runs .pfailDeassert s (is { p with pfail := false }) ∧
    (p.trap = none → runs (.pfImageSealed held) s s) ∧
    (p.trap = some (at_, cause) →
      (held = false ∨ ∀ e ∈ s.tasks, e.2.onCore = true → ∀ i < 10, (e.2.arch.slot i).st = .running → (e.2.arch.slot i).line.entered = false) →
      completes (.pfImageSealed held) s (fun u => u.stopped = true ∧ u.flash.imageOk = held ∧ u.flash.cause = cause ∧ u.mem = s.mem ∧
        u.flash.control = s.controlState ∧ u.flash.controlLen ≤ 2 ^ 28 ∧
        (s.persistList = [] → u.flash.image = [] ∧ u.flash.imageLen = u.flash.controlLen ∧ u.flash.trunc = false) ∧
        (s.persistList = [(a, n)] → u.flash.imageLen = u.flash.controlLen + min n (2 ^ 30) ∧ (u.flash.trunc = true ↔ 2 ^ 30 < n) ∧
          ∀ j b, (j, b) ∈ u.flash.image ↔ (j < min n (2 ^ 30) ∧ (a + j, b) ∈ s.mem)))) ∧
    (s.flash.img = false ∨ 2 ^ 36 < off.toNat * 65536 + s.flash.imageLen → runs (.pfcopy off) s (is { p with pfDone := true, pfBusy := none })) ∧
    (s.flash.img = true → off.toNat * 65536 + s.flash.imageLen ≤ 2 ^ 36 →
      runs (.pfcopy off) s (is { p with pfDone := false, pfBusy := some off.toNat })) ∧
    (p.pfBusy = none → runs .pfcopyDone s s) ∧
    (p.pfBusy = some n → Memory.wf s.flash.image = true → s.flash.controlLen ≤ s.flash.imageLen →
      (∀ c ∈ s.flash.image, s.flash.controlLen + c.1 < s.flash.imageLen) → completes .pfcopyDone s (fun u =>
      u.pw = { p with pfDone := true, pfBusy := none } ∧
      (∀ j < s.flash.controlLen, u.readByte (n * 65536 + j) = controlByte s.flash.control j) ∧
      (∀ j, s.flash.controlLen + j < s.flash.imageLen → u.readByte (n * 65536 + s.flash.controlLen + j) = SMap.get 0 s.flash.image j) ∧
      ∀ b, b < n * 65536 ∨ n * 65536 + s.flash.imageLen ≤ b → u.readByte b = s.readByte b))

/-- R199, R368, R416, R423, R435 to R437: starts of the module, what the host reads and writes, and errors that memory cannot correct. That time starts at 0 (log 2), what memory reads after a reset (log 3), the window at HBM byte 0 and the contents of flash (log 4), FAILS + 1 in a start that fails before the firmware (log 9), the answer's form (log 15) and when a rewrite is complete (log 112) are the model's choices. -/
def Obligations.BootAndHostEvents : Prop :=
  ∀ (s : State) (k a t : Nat) (v : Word) (code : BitVec 8),
    let fl := s.flash
    let clear := fun (u : State) => u.now = 0 ∧ u.tasks = [] ∧ u.net = [] ∧ u.groups = [] ∧ u.kernels = [] ∧ u.queues = [] ∧ u.stopped = false ∧
      u.pw.trap = none ∧ (∀ b, 2 ^ 53 ≤ b → b < 2 ^ 54 → u.readByte b = s.readByte b) ∧ ∀ b, b < 2 ^ 53 ∨ 2 ^ 54 ≤ b → u.readByte b = 0
    let image := fun (u : State) => u.flash.img = fl.imageOk ∧ u.flash.image = fl.image ∧ u.flash.imageLen = fl.imageLen ∧
      u.flash.controlLen = fl.controlLen ∧ u.flash.control = fl.control ∧ ∀ j, (u.link j).st = .down
    let fz := fl.found
    let fails := ({ fl.starts with next := none } : FlashRec Nat).value 0
    let least := ({ fl.minVer with next := none } : FlashRec Nat).value 0
    let intact := fl.minVer.ok = true ∧ fl.harvest.ok = true ∧ fl.starts.ok = true ∧ fl.helper.ok = true
    let bad := fz.startFails
    let measured := if bad = 2 ∨ bad = 3 then [] else fl.fwA.toList ++ fl.fwB.toList
    (∀ (n : Nat), (fl.setFails n).fails = n) ∧
    (∀ n old, fl.starts.next = none → fl.starts.newest = some old → (fl.setFails n).found.fails = old.2 ∧
      ({ fl with starts := (fl.setFails n).starts.landed } : Flash).found.fails = n) ∧
    (fails = 3 → completes .coldReset s (fun u => clear u ∧ image u ∧ u.bt.minimal = true ∧ u.bt.waiting = false ∧ u.bt.halted = false ∧
      u.bt.measured = measured ∧ u.dies.fenced = 0xFFFF ∧ u.flash.fails = 3 ∧
      (u.enableLinks.link 272).st = .training ∧ ∀ j < 272, (u.enableLinks.link j).st = .down)) ∧
    (fails ≠ 3 → bad ≠ 0 → completes .coldReset s (fun u => clear u ∧ image u ∧ u.bt.halted = true ∧
      u.bt.measured = measured ∧ u.bt.reason = bad ∧ u.flash.fails = fails + 1 ∧ u.enableLinks = u)) ∧
    (fails ≠ 3 → bad = 0 → completes .coldReset s (fun u => clear u ∧ image u ∧ u.bt.halted = false ∧ u.bt.waiting = true ∧
      u.bt.measured = measured ∧ u.bt.okBy = none ∧ u.bt.minimal = false ∧ u.flash.fails = fails + 1 ∧ u.dies.fenced = 0 ∧
      ∀ j ≤ 272, (u.enableLinks.link j).st = .training)) ∧
    (fl.pufOk = false → bad = 3) ∧
    (fl.pufOk = true → ¬intact → bad = 2) ∧
    (fl.pufOk = true → intact →
      ((∃ w, (fl.fwA = some w ∨ fl.fwB = some w) ∧ least ≤ w.version) → bad = 0) ∧
      ((∀ w, fl.fwA = some w ∨ fl.fwB = some w → w.version < least) → bad = 1)) ∧
    let inTime := s.bt.minimal = true ∨ (s.bt.waiting = true ∧ ∀ t, s.bt.okBy = some t → s.now ≤ t)
    (inTime → runs .bootok s { s with bt := { s.bt with waiting := false, okBy := none }, flash := fl.setFails 0 }) ∧
    (¬inTime → runs .bootok s s) ∧
    (s.bt.waiting = true → s.bt.okBy = some t → t < s.now →
      runs .bootokTimeout s { s with bt := { s.bt with waiting := false, okBy := none, reason := 5 } }) ∧
    (s.bt.waiting = false ∨ s.bt.okBy = none ∨ (s.bt.okBy = some t ∧ s.now ≤ t) → runs .bootokTimeout s s) ∧
    completes (.uncorrectableError k) s (fun u => (columnOf k = none → u = s.setPoison k .poisoned) ∧
      (u.poisonOf (locOf k) = .poisoned) ∧ sameBytes s u ∧
      ∀ q o, columnOf k = some (q, o) →
        ((∀ e ∈ SMap.get [] s.cores.errs q.index, e.2 ≠ o / 64 + 1) → u.cores.marked = s.cores.marked) ∧
        ((∃ e ∈ SMap.get [] s.cores.errs q.index, e.2 = o / 64 + 1) → q ∉ s.cores.retired → s.onPhys q ≠ none → q ∈ u.cores.marked)) ∧
    ((s.link 272).st ≠ .active → runs (.cxlMemRequest (.read a)) s s ∧ runs (.cxlMemRequest (.write a v)) s s) ∧
    ((s.link 272).st = .active → 2 ^ 36 ≤ a → runs (.cxlMemRequest (.read a)) s s ∧ runs (.cxlMemRequest (.write a v)) s s) ∧
    ((s.link 272).st = .active → a < 2 ^ 36 → SMap.find s.pg.eph (a / 8 * 8 / 65536) = none →
      runs (.cxlMemRequest (.read a)) s { s with hostReads := s.hostReads ++ [s.readWord (a / 8 * 8) false] } ∧
      completes (.cxlMemRequest (.write a v)) s (fun u => s.served (a / 8 * 8) = a / 8 * 8 → u.read (a / 8 * 8) 8 = v.toNat ∧
        ∀ b, b < a / 8 * 8 ∨ a / 8 * 8 + 8 ≤ b → u.readByte b = s.readByte b)) ∧
    runs (.spdmRequest code) s { s with spdm := s.spdm ++ [Config.spdmAnswer code.toNat (s.bt.measured.map (fun w => Config.shake256 w.image))
      (Config.pufSeed (fl.helper.value [])) fl.cert s.spdm.length] }

/-! ### Encodings (R117 to R142, R317) -/

/-- R126, R142, R175 and the worked encodings of the spec: words that the spec writes out decode to the instructions it gives them. -/
def Obligations.DecodedWords : Prop :=
  let reads := fun (head tail : Nat) (i : Instr) => (Decode.decodeHead head tail).toOption = some i
  reads 0x4093 0x0000 (.ld .d 2 0 .none .always) ∧ reads 0x2098 0x3288 (.alu .add 3 3 2 (.on 1)) ∧
  reads 0x3100 0x0008_0000 (.addi 0 0 (.i16 8) .always) ∧ reads 0x0B08 0 (.loop 1 0 .always) ∧
  reads 0x2AA2 0x4000 (.bitc .popc 4 4 .always) ∧ reads 0x37B8 0x0003_0000_0000 (.movi 7 (.i32 0x3_0000) .always) ∧
  reads 0x50C0 0x7400 (.aadd .plain false 8 7 4 .always) ∧ reads 0x0E00 0 (.stop .bare) ∧ reads 0x60A0 0x0100 (.spawn 4 0 1 .always) ∧
  reads 0x6920 0x0007_1000 (.lsend 4 1 7 .always) ∧ reads 0x7121 0x0041_1600 (.post true true 4 1 6 1 .always) ∧
  reads 0x7120 0x0001_9690 (.post false false 4 9 6 1 (.on 2)) ∧ reads 0x734A 0x0001_0400 (.recv false true 9 (.imm 1) 4 .always) ∧
  reads 0xA12C 0x0001_2006 (.vcvt .bf16 .f32 5 2 (some 1) .always) ∧ reads 0x870F 0x4000_2300 (.vfma .f64 1 2 3 4 .always) ∧
  reads 0xE530 0x0001_0000 (.semw 6 1 .always) ∧ reads 0xDA88 0x3000 (.copy2 1 3 .short .always) ∧
  reads 0xDF00 0x0012_0000 (.join 0x12 .always) ∧ Decode.decodeDt 0x00C5_850B = some (.dtBcast 10 11 12) ∧
  Decode.decodeDt 0x0010_102B = some (.dtNxset true) ∧
  (Decode.decodeRec (0x01 + 7 * 0x1_0000 + 0x1000 * 2 ^ 64)).toOption = some (.semwait .ge 7 0x1000) ∧
  (Decode.decodeRec 0x0E).toOption = none ∧ (Decode.decodeHead 0xFE00 0).toOption = none

/-- Decoding the words of an instruction gives the instruction, for every well-formed head, every custom control-thread instruction and every record. -/
def Obligations.DecodeEncodeAgree : Prop :=
  (∀ (i : Instr) (r : Decode.Raw), WellFormed.ok i = true → Decode.rawOf i = some r →
    ∃ h ts, Decode.encode i = some (h :: ts) ∧ ts.length = r.tc ∧ Decode.decodeHead h.toNat (Decode.ofHalves ts) = .ok i) ∧
  (∀ (i : Instr) (w : Nat), Decode.encodeDt i = some w →
    ∃ ws, Decode.encode i = some ws ∧ ws.length = 2 ∧ Decode.decodeDt (Decode.ofHalves ws) = some i) ∧
  (∀ (i : Instr) (r : Decode.Rec), Decode.recOf i = some r →
    ∃ ws, Decode.encode i = some ws ∧ ws.length = 8 ∧ Decode.decodeRec (Decode.ofHalves ws) = .ok i)

/-! ### The machine as a whole -/

/-- R124: a head whose predicate is 0 completes with no effect, whatever the head, and leaves the branch target and the run budget as they were; NOP, SAFEPT and REP are never read with a guard, and no head of tail class 0 has one. -/
def Obligations.GuardedOffHeadHasNoEffect : Prop :=
  (∀ (s : State) (i : Instr) (r : Decode.Raw) (p : Reg), s.fSlot < 10 → Decode.rawOf i = some r → Decode.guardOf r = .on p →
    s.cur.getP p = false → completes i s (fun t => writesNothing s t ∧ t.cur.line.target = s.cur.line.target ∧ t.cur.budget = s.cur.budget)) ∧
  (∀ (r : Decode.Raw) (p : Reg) (i : Instr), Decode.decodeRaw r = .ok i → Decode.guardOf r = .on p →
    i ≠ .nop ∧ (∀ m, i ≠ .safept m) ∧ ∀ h st ps, i ≠ .rep h st ps) ∧
  (∀ r : Decode.Raw, r.tc = 0 → Decode.guardOf r = .bare)

/-- R34, R126, R145, R434: a step takes the next turn; a pipe turn runs the head that the line's halfwords decode to, a control turn the instruction that the word fetched at the control thread's pc decodes to, an event turn the event; what decodes to nothing faults, and a stopped module answers only a cold reset. -/
def Obligations.StepRunsTheDecodedInstruction : Prop :=
  ∀ (s s1 : State) (u : Turn) (us : List Turn) (t i w n : Nat) (im : List Half) (h : Instr) (e : Nat × Nat),
    let s0 : State := { s with turns := us }
    let l := (s.slot t i).line
    (s.turns = [] → step s = s.draw.oneTurn (Config.freeTurn s.free)) ∧
    (s.turns = u :: us → s.stopped = true → u ≠ .event .coldReset → step s = .fault .stopped) ∧
    (s.turns = .event h :: us → isEvent h = true → s.listens h = true → (s.stopped = false ∨ h = .coldReset) → step s = exec h s0) ∧
    (s.turns = .event h :: us → isEvent h = false ∨ s.listens h = false → s.stopped = false → step s = .next s0) ∧
    (s.turns = .pipe t :: us → s.stopped = false → s.bt.halted = false → (s.task t).onCore = true → (s.arch t).runner = some i →
      (l.entered = true → l.img = some im → l.next ≤ lineHeads im →
        (Decode.decodeHead (slotOf im l.next) (tailAt im l.next) = .ok h → placeOk im l.next h = true →
          step s = exec h { s0 with fTask := t, fSlot := i }) ∧
        ((Decode.decodeHead (slotOf im l.next) (tailAt im l.next)).toOption = none → step s = .next (s0.slotFault t i 0x01 0))) ∧
      (l.entered = true → l.img = some im → lineHeads im < l.next → step s = exec (.lineEnd t) s0) ∧
      (l.entered = false → (s.slot t i).budget < 1024 → step s = exec (.lineEntry t) s0)) ∧
    (s.turns = .control t :: us → s.stopped = false → s.ctRuns t = true → (s.ctl t).dfltStart = false → (s.ctl t).dfltWait = false →
      (s0.ctFetch t = (s1, .ok w) → Decode.decodeCt w = some (h, n) → step s = exec h { s1 with fTask := t, fWord := w, fLen := n }) ∧
      (s0.ctFetch t = (s1, .ok w) → Decode.decodeCt w = none → step s = .next (State.rvIllegal { s1 with fTask := t, fWord := w } (isCustom w))) ∧
      (s0.ctFetch t = (s1, .error e) → step s = .next (s1.ctTrap t e.1 (BitVec.ofNat 64 e.2)))) ∧
    (s.turns = .tick n w :: us → s.stopped = false → step s = .next (s0.tick n w))

/-- R10, R56, R155, R381, R424, R428, R432: the values that the spec's field tables give for reset, as the host reads the registers of the module, and as a core holds its own. -/
def Obligations.ResetValues : Prop :=
  let r := fun (off : Nat) => (State.reset.mgmtRead off).toNat
  r 0x000 = 80 ∧ r 0x008 = 80 + 80 * 2 ^ 8 + 80 * 2 ^ 16 + 80 * 2 ^ 24 ∧ r 0x010 = 80 + 2 ^ 32 ∧ r 0x018 = 95 * 2 ^ 8 + 110 * 2 ^ 16 ∧
  r 0x020 = 0 ∧ r 0x1070 = 100 + 200 * 2 ^ 16 + 1000 * 2 ^ 32 + 10000 * 2 ^ 48 ∧
  (∀ off ∈ [0x1000, 0x1010, 0x1018, 0x1020, 0x1040, 0x1050, 0x1060, 0x1078, 0x1088, 0x1090, 0x1098, 0x10A0, 0x10A8, 0x10B0, 0x10B8, 0x10C0,
    0x10C8, 0x10D0, 0x10E0, 0x10E8, 0x10F0, 0x1100], r off = 0) ∧
  State.reset.pw.thermal = 80 ∧ State.reset.tasks = [] ∧ State.reset.stopped = false ∧
  (∀ i < 16, vget 1 Arch.reset.ctl.d.lpa i = 0) ∧ Arch.reset.ctl.d.mtfpend = 0 ∧ Arch.reset.ctl.d.elV = false ∧ Arch.reset.ctl.d.upPq = 0 ∧
  ∀ i < 10, (Arch.reset.slot i).st = .free

/-- Every step from every state keeps the lists of bytes and of damage in their canonical form. -/
def Obligations.EveryStepKeepsMemoryCanonical : Prop :=
  ∀ s t : State, s.canonical → step s = .next t → t.canonical

/-- The canonical form holds at reset. -/
def Obligations.ResetIsCanonical : Prop := State.reset.canonical
end

