-- ==== Sys2Proof/Laws/State.lean ====
section
/-! SUPPORT. One lemma per field of State and per update: what the update leaves as it was. -/
namespace Sys2Proof.Machine
variable (s : State)

/-! ### State.setTask -/
@[simp] theorem setTask_now (t : Nat) (k : Task) : (s.setTask t k).now = s.now := rfl
@[simp] theorem setTask_mem (t : Nat) (k : Task) : (s.setTask t k).mem = s.mem := rfl
@[simp] theorem setTask_poison (t : Nat) (k : Task) : (s.setTask t k).poison = s.poison := rfl
@[simp] theorem setTask_net (t : Nat) (k : Task) : (s.setTask t k).net = s.net := rfl
@[simp] theorem setTask_groups (t : Nat) (k : Task) : (s.setTask t k).groups = s.groups := rfl
@[simp] theorem setTask_kernels (t : Nat) (k : Task) : (s.setTask t k).kernels = s.kernels := rfl
@[simp] theorem setTask_insts (t : Nat) (k : Task) : (s.setTask t k).insts = s.insts := rfl
@[simp] theorem setTask_ctxs (t : Nat) (k : Task) : (s.setTask t k).ctxs = s.ctxs := rfl
@[simp] theorem setTask_queues (t : Nat) (k : Task) : (s.setTask t k).queues = s.queues := rfl
@[simp] theorem setTask_cores (t : Nat) (k : Task) : (s.setTask t k).cores = s.cores := rfl
@[simp] theorem setTask_mg (t : Nat) (k : Task) : (s.setTask t k).mg = s.mg := rfl
@[simp] theorem setTask_pg (t : Nat) (k : Task) : (s.setTask t k).pg = s.pg := rfl
@[simp] theorem setTask_lk (t : Nat) (k : Task) : (s.setTask t k).lk = s.lk := rfl
@[simp] theorem setTask_dies (t : Nat) (k : Task) : (s.setTask t k).dies = s.dies := rfl
@[simp] theorem setTask_pw (t : Nat) (k : Task) : (s.setTask t k).pw = s.pw := rfl
@[simp] theorem setTask_bt (t : Nat) (k : Task) : (s.setTask t k).bt = s.bt := rfl
@[simp] theorem setTask_flash (t : Nat) (k : Task) : (s.setTask t k).flash = s.flash := rfl
@[simp] theorem setTask_ids (t : Nat) (k : Task) : (s.setTask t k).ids = s.ids := rfl
@[simp] theorem setTask_msix (t : Nat) (k : Task) : (s.setTask t k).msix = s.msix := rfl
@[simp] theorem setTask_podOut (t : Nat) (k : Task) : (s.setTask t k).podOut = s.podOut := rfl
@[simp] theorem setTask_msixHeld (t : Nat) (k : Task) : (s.setTask t k).msixHeld = s.msixHeld := rfl
@[simp] theorem setTask_podTx (t : Nat) (k : Task) : (s.setTask t k).podTx = s.podTx := rfl
@[simp] theorem setTask_pageTx (t : Nat) (k : Task) : (s.setTask t k).pageTx = s.pageTx := rfl
@[simp] theorem setTask_pageWait (t : Nat) (k : Task) : (s.setTask t k).pageWait = s.pageWait := rfl
@[simp] theorem setTask_pkts (t : Nat) (k : Task) : (s.setTask t k).pkts = s.pkts := rfl
@[simp] theorem setTask_podHeld (t : Nat) (k : Task) : (s.setTask t k).podHeld = s.podHeld := rfl
@[simp] theorem setTask_spdm (t : Nat) (k : Task) : (s.setTask t k).spdm = s.spdm := rfl
@[simp] theorem setTask_hostReads (t : Nat) (k : Task) : (s.setTask t k).hostReads = s.hostReads := rfl
@[simp] theorem setTask_turns (t : Nat) (k : Task) : (s.setTask t k).turns = s.turns := rfl
@[simp] theorem setTask_free (t : Nat) (k : Task) : (s.setTask t k).free = s.free := rfl
@[simp] theorem setTask_fTask (t : Nat) (k : Task) : (s.setTask t k).fTask = s.fTask := rfl
@[simp] theorem setTask_fSlot (t : Nat) (k : Task) : (s.setTask t k).fSlot = s.fSlot := rfl
@[simp] theorem setTask_fQueue (t : Nat) (k : Task) : (s.setTask t k).fQueue = s.fQueue := rfl
@[simp] theorem setTask_fLen (t : Nat) (k : Task) : (s.setTask t k).fLen = s.fLen := rfl
@[simp] theorem setTask_fWord (t : Nat) (k : Task) : (s.setTask t k).fWord = s.fWord := rfl
@[simp] theorem setTask_stopped (t : Nat) (k : Task) : (s.setTask t k).stopped = s.stopped := rfl

/-! ### State.updTask -/
@[simp] theorem updTask_now (t : Nat) (f : Task → Task) : (s.updTask t f).now = s.now := rfl
@[simp] theorem updTask_mem (t : Nat) (f : Task → Task) : (s.updTask t f).mem = s.mem := rfl
@[simp] theorem updTask_poison (t : Nat) (f : Task → Task) : (s.updTask t f).poison = s.poison := rfl
@[simp] theorem updTask_net (t : Nat) (f : Task → Task) : (s.updTask t f).net = s.net := rfl
@[simp] theorem updTask_groups (t : Nat) (f : Task → Task) : (s.updTask t f).groups = s.groups := rfl
@[simp] theorem updTask_kernels (t : Nat) (f : Task → Task) : (s.updTask t f).kernels = s.kernels := rfl
@[simp] theorem updTask_insts (t : Nat) (f : Task → Task) : (s.updTask t f).insts = s.insts := rfl
@[simp] theorem updTask_ctxs (t : Nat) (f : Task → Task) : (s.updTask t f).ctxs = s.ctxs := rfl
@[simp] theorem updTask_queues (t : Nat) (f : Task → Task) : (s.updTask t f).queues = s.queues := rfl
@[simp] theorem updTask_cores (t : Nat) (f : Task → Task) : (s.updTask t f).cores = s.cores := rfl
@[simp] theorem updTask_mg (t : Nat) (f : Task → Task) : (s.updTask t f).mg = s.mg := rfl
@[simp] theorem updTask_pg (t : Nat) (f : Task → Task) : (s.updTask t f).pg = s.pg := rfl
@[simp] theorem updTask_lk (t : Nat) (f : Task → Task) : (s.updTask t f).lk = s.lk := rfl
@[simp] theorem updTask_dies (t : Nat) (f : Task → Task) : (s.updTask t f).dies = s.dies := rfl
@[simp] theorem updTask_pw (t : Nat) (f : Task → Task) : (s.updTask t f).pw = s.pw := rfl
@[simp] theorem updTask_bt (t : Nat) (f : Task → Task) : (s.updTask t f).bt = s.bt := rfl
@[simp] theorem updTask_flash (t : Nat) (f : Task → Task) : (s.updTask t f).flash = s.flash := rfl
@[simp] theorem updTask_ids (t : Nat) (f : Task → Task) : (s.updTask t f).ids = s.ids := rfl
@[simp] theorem updTask_msix (t : Nat) (f : Task → Task) : (s.updTask t f).msix = s.msix := rfl
@[simp] theorem updTask_podOut (t : Nat) (f : Task → Task) : (s.updTask t f).podOut = s.podOut := rfl
@[simp] theorem updTask_msixHeld (t : Nat) (f : Task → Task) : (s.updTask t f).msixHeld = s.msixHeld := rfl
@[simp] theorem updTask_podTx (t : Nat) (f : Task → Task) : (s.updTask t f).podTx = s.podTx := rfl
@[simp] theorem updTask_pageTx (t : Nat) (f : Task → Task) : (s.updTask t f).pageTx = s.pageTx := rfl
@[simp] theorem updTask_pageWait (t : Nat) (f : Task → Task) : (s.updTask t f).pageWait = s.pageWait := rfl
@[simp] theorem updTask_pkts (t : Nat) (f : Task → Task) : (s.updTask t f).pkts = s.pkts := rfl
@[simp] theorem updTask_podHeld (t : Nat) (f : Task → Task) : (s.updTask t f).podHeld = s.podHeld := rfl
@[simp] theorem updTask_spdm (t : Nat) (f : Task → Task) : (s.updTask t f).spdm = s.spdm := rfl
@[simp] theorem updTask_hostReads (t : Nat) (f : Task → Task) : (s.updTask t f).hostReads = s.hostReads := rfl
@[simp] theorem updTask_turns (t : Nat) (f : Task → Task) : (s.updTask t f).turns = s.turns := rfl
@[simp] theorem updTask_free (t : Nat) (f : Task → Task) : (s.updTask t f).free = s.free := rfl
@[simp] theorem updTask_fTask (t : Nat) (f : Task → Task) : (s.updTask t f).fTask = s.fTask := rfl
@[simp] theorem updTask_fSlot (t : Nat) (f : Task → Task) : (s.updTask t f).fSlot = s.fSlot := rfl
@[simp] theorem updTask_fQueue (t : Nat) (f : Task → Task) : (s.updTask t f).fQueue = s.fQueue := rfl
@[simp] theorem updTask_fLen (t : Nat) (f : Task → Task) : (s.updTask t f).fLen = s.fLen := rfl
@[simp] theorem updTask_fWord (t : Nat) (f : Task → Task) : (s.updTask t f).fWord = s.fWord := rfl
@[simp] theorem updTask_stopped (t : Nat) (f : Task → Task) : (s.updTask t f).stopped = s.stopped := rfl

/-! ### State.updArch -/
@[simp] theorem updArch_now (t : Nat) (f : Arch → Arch) : (s.updArch t f).now = s.now := rfl
@[simp] theorem updArch_mem (t : Nat) (f : Arch → Arch) : (s.updArch t f).mem = s.mem := rfl
@[simp] theorem updArch_poison (t : Nat) (f : Arch → Arch) : (s.updArch t f).poison = s.poison := rfl
@[simp] theorem updArch_net (t : Nat) (f : Arch → Arch) : (s.updArch t f).net = s.net := rfl
@[simp] theorem updArch_groups (t : Nat) (f : Arch → Arch) : (s.updArch t f).groups = s.groups := rfl
@[simp] theorem updArch_kernels (t : Nat) (f : Arch → Arch) : (s.updArch t f).kernels = s.kernels := rfl
@[simp] theorem updArch_insts (t : Nat) (f : Arch → Arch) : (s.updArch t f).insts = s.insts := rfl
@[simp] theorem updArch_ctxs (t : Nat) (f : Arch → Arch) : (s.updArch t f).ctxs = s.ctxs := rfl
@[simp] theorem updArch_queues (t : Nat) (f : Arch → Arch) : (s.updArch t f).queues = s.queues := rfl
@[simp] theorem updArch_cores (t : Nat) (f : Arch → Arch) : (s.updArch t f).cores = s.cores := rfl
@[simp] theorem updArch_mg (t : Nat) (f : Arch → Arch) : (s.updArch t f).mg = s.mg := rfl
@[simp] theorem updArch_pg (t : Nat) (f : Arch → Arch) : (s.updArch t f).pg = s.pg := rfl
@[simp] theorem updArch_lk (t : Nat) (f : Arch → Arch) : (s.updArch t f).lk = s.lk := rfl
@[simp] theorem updArch_dies (t : Nat) (f : Arch → Arch) : (s.updArch t f).dies = s.dies := rfl
@[simp] theorem updArch_pw (t : Nat) (f : Arch → Arch) : (s.updArch t f).pw = s.pw := rfl
@[simp] theorem updArch_bt (t : Nat) (f : Arch → Arch) : (s.updArch t f).bt = s.bt := rfl
@[simp] theorem updArch_flash (t : Nat) (f : Arch → Arch) : (s.updArch t f).flash = s.flash := rfl
@[simp] theorem updArch_ids (t : Nat) (f : Arch → Arch) : (s.updArch t f).ids = s.ids := rfl
@[simp] theorem updArch_msix (t : Nat) (f : Arch → Arch) : (s.updArch t f).msix = s.msix := rfl
@[simp] theorem updArch_podOut (t : Nat) (f : Arch → Arch) : (s.updArch t f).podOut = s.podOut := rfl
@[simp] theorem updArch_msixHeld (t : Nat) (f : Arch → Arch) : (s.updArch t f).msixHeld = s.msixHeld := rfl
@[simp] theorem updArch_podTx (t : Nat) (f : Arch → Arch) : (s.updArch t f).podTx = s.podTx := rfl
@[simp] theorem updArch_pageTx (t : Nat) (f : Arch → Arch) : (s.updArch t f).pageTx = s.pageTx := rfl
@[simp] theorem updArch_pageWait (t : Nat) (f : Arch → Arch) : (s.updArch t f).pageWait = s.pageWait := rfl
@[simp] theorem updArch_pkts (t : Nat) (f : Arch → Arch) : (s.updArch t f).pkts = s.pkts := rfl
@[simp] theorem updArch_podHeld (t : Nat) (f : Arch → Arch) : (s.updArch t f).podHeld = s.podHeld := rfl
@[simp] theorem updArch_spdm (t : Nat) (f : Arch → Arch) : (s.updArch t f).spdm = s.spdm := rfl
@[simp] theorem updArch_hostReads (t : Nat) (f : Arch → Arch) : (s.updArch t f).hostReads = s.hostReads := rfl
@[simp] theorem updArch_turns (t : Nat) (f : Arch → Arch) : (s.updArch t f).turns = s.turns := rfl
@[simp] theorem updArch_free (t : Nat) (f : Arch → Arch) : (s.updArch t f).free = s.free := rfl
@[simp] theorem updArch_fTask (t : Nat) (f : Arch → Arch) : (s.updArch t f).fTask = s.fTask := rfl
@[simp] theorem updArch_fSlot (t : Nat) (f : Arch → Arch) : (s.updArch t f).fSlot = s.fSlot := rfl
@[simp] theorem updArch_fQueue (t : Nat) (f : Arch → Arch) : (s.updArch t f).fQueue = s.fQueue := rfl
@[simp] theorem updArch_fLen (t : Nat) (f : Arch → Arch) : (s.updArch t f).fLen = s.fLen := rfl
@[simp] theorem updArch_fWord (t : Nat) (f : Arch → Arch) : (s.updArch t f).fWord = s.fWord := rfl
@[simp] theorem updArch_stopped (t : Nat) (f : Arch → Arch) : (s.updArch t f).stopped = s.stopped := rfl

/-! ### State.updSlot -/
@[simp] theorem updSlot_now (t i : Nat) (f : Slot → Slot) : (s.updSlot t i f).now = s.now := rfl
@[simp] theorem updSlot_mem (t i : Nat) (f : Slot → Slot) : (s.updSlot t i f).mem = s.mem := rfl
@[simp] theorem updSlot_poison (t i : Nat) (f : Slot → Slot) : (s.updSlot t i f).poison = s.poison := rfl
@[simp] theorem updSlot_net (t i : Nat) (f : Slot → Slot) : (s.updSlot t i f).net = s.net := rfl
@[simp] theorem updSlot_groups (t i : Nat) (f : Slot → Slot) : (s.updSlot t i f).groups = s.groups := rfl
@[simp] theorem updSlot_kernels (t i : Nat) (f : Slot → Slot) : (s.updSlot t i f).kernels = s.kernels := rfl
@[simp] theorem updSlot_insts (t i : Nat) (f : Slot → Slot) : (s.updSlot t i f).insts = s.insts := rfl
@[simp] theorem updSlot_ctxs (t i : Nat) (f : Slot → Slot) : (s.updSlot t i f).ctxs = s.ctxs := rfl
@[simp] theorem updSlot_queues (t i : Nat) (f : Slot → Slot) : (s.updSlot t i f).queues = s.queues := rfl
@[simp] theorem updSlot_cores (t i : Nat) (f : Slot → Slot) : (s.updSlot t i f).cores = s.cores := rfl
@[simp] theorem updSlot_mg (t i : Nat) (f : Slot → Slot) : (s.updSlot t i f).mg = s.mg := rfl
@[simp] theorem updSlot_pg (t i : Nat) (f : Slot → Slot) : (s.updSlot t i f).pg = s.pg := rfl
@[simp] theorem updSlot_lk (t i : Nat) (f : Slot → Slot) : (s.updSlot t i f).lk = s.lk := rfl
@[simp] theorem updSlot_dies (t i : Nat) (f : Slot → Slot) : (s.updSlot t i f).dies = s.dies := rfl
@[simp] theorem updSlot_pw (t i : Nat) (f : Slot → Slot) : (s.updSlot t i f).pw = s.pw := rfl
@[simp] theorem updSlot_bt (t i : Nat) (f : Slot → Slot) : (s.updSlot t i f).bt = s.bt := rfl
@[simp] theorem updSlot_flash (t i : Nat) (f : Slot → Slot) : (s.updSlot t i f).flash = s.flash := rfl
@[simp] theorem updSlot_ids (t i : Nat) (f : Slot → Slot) : (s.updSlot t i f).ids = s.ids := rfl
@[simp] theorem updSlot_msix (t i : Nat) (f : Slot → Slot) : (s.updSlot t i f).msix = s.msix := rfl
@[simp] theorem updSlot_podOut (t i : Nat) (f : Slot → Slot) : (s.updSlot t i f).podOut = s.podOut := rfl
@[simp] theorem updSlot_msixHeld (t i : Nat) (f : Slot → Slot) : (s.updSlot t i f).msixHeld = s.msixHeld := rfl
@[simp] theorem updSlot_podTx (t i : Nat) (f : Slot → Slot) : (s.updSlot t i f).podTx = s.podTx := rfl
@[simp] theorem updSlot_pageTx (t i : Nat) (f : Slot → Slot) : (s.updSlot t i f).pageTx = s.pageTx := rfl
@[simp] theorem updSlot_pageWait (t i : Nat) (f : Slot → Slot) : (s.updSlot t i f).pageWait = s.pageWait := rfl
@[simp] theorem updSlot_pkts (t i : Nat) (f : Slot → Slot) : (s.updSlot t i f).pkts = s.pkts := rfl
@[simp] theorem updSlot_podHeld (t i : Nat) (f : Slot → Slot) : (s.updSlot t i f).podHeld = s.podHeld := rfl
@[simp] theorem updSlot_spdm (t i : Nat) (f : Slot → Slot) : (s.updSlot t i f).spdm = s.spdm := rfl
@[simp] theorem updSlot_hostReads (t i : Nat) (f : Slot → Slot) : (s.updSlot t i f).hostReads = s.hostReads := rfl
@[simp] theorem updSlot_turns (t i : Nat) (f : Slot → Slot) : (s.updSlot t i f).turns = s.turns := rfl
@[simp] theorem updSlot_free (t i : Nat) (f : Slot → Slot) : (s.updSlot t i f).free = s.free := rfl
@[simp] theorem updSlot_fTask (t i : Nat) (f : Slot → Slot) : (s.updSlot t i f).fTask = s.fTask := rfl
@[simp] theorem updSlot_fSlot (t i : Nat) (f : Slot → Slot) : (s.updSlot t i f).fSlot = s.fSlot := rfl
@[simp] theorem updSlot_fQueue (t i : Nat) (f : Slot → Slot) : (s.updSlot t i f).fQueue = s.fQueue := rfl
@[simp] theorem updSlot_fLen (t i : Nat) (f : Slot → Slot) : (s.updSlot t i f).fLen = s.fLen := rfl
@[simp] theorem updSlot_fWord (t i : Nat) (f : Slot → Slot) : (s.updSlot t i f).fWord = s.fWord := rfl
@[simp] theorem updSlot_stopped (t i : Nat) (f : Slot → Slot) : (s.updSlot t i f).stopped = s.stopped := rfl

/-! ### State.updCur -/
@[simp] theorem updCur_now (f : Slot → Slot) : (s.updCur f).now = s.now := rfl
@[simp] theorem updCur_mem (f : Slot → Slot) : (s.updCur f).mem = s.mem := rfl
@[simp] theorem updCur_poison (f : Slot → Slot) : (s.updCur f).poison = s.poison := rfl
@[simp] theorem updCur_net (f : Slot → Slot) : (s.updCur f).net = s.net := rfl
@[simp] theorem updCur_groups (f : Slot → Slot) : (s.updCur f).groups = s.groups := rfl
@[simp] theorem updCur_kernels (f : Slot → Slot) : (s.updCur f).kernels = s.kernels := rfl
@[simp] theorem updCur_insts (f : Slot → Slot) : (s.updCur f).insts = s.insts := rfl
@[simp] theorem updCur_ctxs (f : Slot → Slot) : (s.updCur f).ctxs = s.ctxs := rfl
@[simp] theorem updCur_queues (f : Slot → Slot) : (s.updCur f).queues = s.queues := rfl
@[simp] theorem updCur_cores (f : Slot → Slot) : (s.updCur f).cores = s.cores := rfl
@[simp] theorem updCur_mg (f : Slot → Slot) : (s.updCur f).mg = s.mg := rfl
@[simp] theorem updCur_pg (f : Slot → Slot) : (s.updCur f).pg = s.pg := rfl
@[simp] theorem updCur_lk (f : Slot → Slot) : (s.updCur f).lk = s.lk := rfl
@[simp] theorem updCur_dies (f : Slot → Slot) : (s.updCur f).dies = s.dies := rfl
@[simp] theorem updCur_pw (f : Slot → Slot) : (s.updCur f).pw = s.pw := rfl
@[simp] theorem updCur_bt (f : Slot → Slot) : (s.updCur f).bt = s.bt := rfl
@[simp] theorem updCur_flash (f : Slot → Slot) : (s.updCur f).flash = s.flash := rfl
@[simp] theorem updCur_ids (f : Slot → Slot) : (s.updCur f).ids = s.ids := rfl
@[simp] theorem updCur_msix (f : Slot → Slot) : (s.updCur f).msix = s.msix := rfl
@[simp] theorem updCur_podOut (f : Slot → Slot) : (s.updCur f).podOut = s.podOut := rfl
@[simp] theorem updCur_msixHeld (f : Slot → Slot) : (s.updCur f).msixHeld = s.msixHeld := rfl
@[simp] theorem updCur_podTx (f : Slot → Slot) : (s.updCur f).podTx = s.podTx := rfl
@[simp] theorem updCur_pageTx (f : Slot → Slot) : (s.updCur f).pageTx = s.pageTx := rfl
@[simp] theorem updCur_pageWait (f : Slot → Slot) : (s.updCur f).pageWait = s.pageWait := rfl
@[simp] theorem updCur_pkts (f : Slot → Slot) : (s.updCur f).pkts = s.pkts := rfl
@[simp] theorem updCur_podHeld (f : Slot → Slot) : (s.updCur f).podHeld = s.podHeld := rfl
@[simp] theorem updCur_spdm (f : Slot → Slot) : (s.updCur f).spdm = s.spdm := rfl
@[simp] theorem updCur_hostReads (f : Slot → Slot) : (s.updCur f).hostReads = s.hostReads := rfl
@[simp] theorem updCur_turns (f : Slot → Slot) : (s.updCur f).turns = s.turns := rfl
@[simp] theorem updCur_free (f : Slot → Slot) : (s.updCur f).free = s.free := rfl
@[simp] theorem updCur_fTask (f : Slot → Slot) : (s.updCur f).fTask = s.fTask := rfl
@[simp] theorem updCur_fSlot (f : Slot → Slot) : (s.updCur f).fSlot = s.fSlot := rfl
@[simp] theorem updCur_fQueue (f : Slot → Slot) : (s.updCur f).fQueue = s.fQueue := rfl
@[simp] theorem updCur_fLen (f : Slot → Slot) : (s.updCur f).fLen = s.fLen := rfl
@[simp] theorem updCur_fWord (f : Slot → Slot) : (s.updCur f).fWord = s.fWord := rfl
@[simp] theorem updCur_stopped (f : Slot → Slot) : (s.updCur f).stopped = s.stopped := rfl

/-! ### State.retire -/
@[simp] theorem retire_now (f : Slot → Slot) : (s.retire f).now = s.now := rfl
@[simp] theorem retire_mem (f : Slot → Slot) : (s.retire f).mem = s.mem := rfl
@[simp] theorem retire_poison (f : Slot → Slot) : (s.retire f).poison = s.poison := rfl
@[simp] theorem retire_net (f : Slot → Slot) : (s.retire f).net = s.net := rfl
@[simp] theorem retire_groups (f : Slot → Slot) : (s.retire f).groups = s.groups := rfl
@[simp] theorem retire_kernels (f : Slot → Slot) : (s.retire f).kernels = s.kernels := rfl
@[simp] theorem retire_insts (f : Slot → Slot) : (s.retire f).insts = s.insts := rfl
@[simp] theorem retire_ctxs (f : Slot → Slot) : (s.retire f).ctxs = s.ctxs := rfl
@[simp] theorem retire_queues (f : Slot → Slot) : (s.retire f).queues = s.queues := rfl
@[simp] theorem retire_cores (f : Slot → Slot) : (s.retire f).cores = s.cores := rfl
@[simp] theorem retire_mg (f : Slot → Slot) : (s.retire f).mg = s.mg := rfl
@[simp] theorem retire_pg (f : Slot → Slot) : (s.retire f).pg = s.pg := rfl
@[simp] theorem retire_lk (f : Slot → Slot) : (s.retire f).lk = s.lk := rfl
@[simp] theorem retire_dies (f : Slot → Slot) : (s.retire f).dies = s.dies := rfl
@[simp] theorem retire_pw (f : Slot → Slot) : (s.retire f).pw = s.pw := rfl
@[simp] theorem retire_bt (f : Slot → Slot) : (s.retire f).bt = s.bt := rfl
@[simp] theorem retire_flash (f : Slot → Slot) : (s.retire f).flash = s.flash := rfl
@[simp] theorem retire_ids (f : Slot → Slot) : (s.retire f).ids = s.ids := rfl
@[simp] theorem retire_msix (f : Slot → Slot) : (s.retire f).msix = s.msix := rfl
@[simp] theorem retire_podOut (f : Slot → Slot) : (s.retire f).podOut = s.podOut := rfl
@[simp] theorem retire_msixHeld (f : Slot → Slot) : (s.retire f).msixHeld = s.msixHeld := rfl
@[simp] theorem retire_podTx (f : Slot → Slot) : (s.retire f).podTx = s.podTx := rfl
@[simp] theorem retire_pageTx (f : Slot → Slot) : (s.retire f).pageTx = s.pageTx := rfl
@[simp] theorem retire_pageWait (f : Slot → Slot) : (s.retire f).pageWait = s.pageWait := rfl
@[simp] theorem retire_pkts (f : Slot → Slot) : (s.retire f).pkts = s.pkts := rfl
@[simp] theorem retire_podHeld (f : Slot → Slot) : (s.retire f).podHeld = s.podHeld := rfl
@[simp] theorem retire_spdm (f : Slot → Slot) : (s.retire f).spdm = s.spdm := rfl
@[simp] theorem retire_hostReads (f : Slot → Slot) : (s.retire f).hostReads = s.hostReads := rfl
@[simp] theorem retire_turns (f : Slot → Slot) : (s.retire f).turns = s.turns := rfl
@[simp] theorem retire_free (f : Slot → Slot) : (s.retire f).free = s.free := rfl
@[simp] theorem retire_fTask (f : Slot → Slot) : (s.retire f).fTask = s.fTask := rfl
@[simp] theorem retire_fSlot (f : Slot → Slot) : (s.retire f).fSlot = s.fSlot := rfl
@[simp] theorem retire_fQueue (f : Slot → Slot) : (s.retire f).fQueue = s.fQueue := rfl
@[simp] theorem retire_fLen (f : Slot → Slot) : (s.retire f).fLen = s.fLen := rfl
@[simp] theorem retire_fWord (f : Slot → Slot) : (s.retire f).fWord = s.fWord := rfl
@[simp] theorem retire_stopped (f : Slot → Slot) : (s.retire f).stopped = s.stopped := rfl

/-! ### State.updCtl -/
@[simp] theorem updCtl_now (t : Nat) (f : Ctl → Ctl) : (s.updCtl t f).now = s.now := rfl
@[simp] theorem updCtl_mem (t : Nat) (f : Ctl → Ctl) : (s.updCtl t f).mem = s.mem := rfl
@[simp] theorem updCtl_poison (t : Nat) (f : Ctl → Ctl) : (s.updCtl t f).poison = s.poison := rfl
@[simp] theorem updCtl_net (t : Nat) (f : Ctl → Ctl) : (s.updCtl t f).net = s.net := rfl
@[simp] theorem updCtl_groups (t : Nat) (f : Ctl → Ctl) : (s.updCtl t f).groups = s.groups := rfl
@[simp] theorem updCtl_kernels (t : Nat) (f : Ctl → Ctl) : (s.updCtl t f).kernels = s.kernels := rfl
@[simp] theorem updCtl_insts (t : Nat) (f : Ctl → Ctl) : (s.updCtl t f).insts = s.insts := rfl
@[simp] theorem updCtl_ctxs (t : Nat) (f : Ctl → Ctl) : (s.updCtl t f).ctxs = s.ctxs := rfl
@[simp] theorem updCtl_queues (t : Nat) (f : Ctl → Ctl) : (s.updCtl t f).queues = s.queues := rfl
@[simp] theorem updCtl_cores (t : Nat) (f : Ctl → Ctl) : (s.updCtl t f).cores = s.cores := rfl
@[simp] theorem updCtl_mg (t : Nat) (f : Ctl → Ctl) : (s.updCtl t f).mg = s.mg := rfl
@[simp] theorem updCtl_pg (t : Nat) (f : Ctl → Ctl) : (s.updCtl t f).pg = s.pg := rfl
@[simp] theorem updCtl_lk (t : Nat) (f : Ctl → Ctl) : (s.updCtl t f).lk = s.lk := rfl
@[simp] theorem updCtl_dies (t : Nat) (f : Ctl → Ctl) : (s.updCtl t f).dies = s.dies := rfl
@[simp] theorem updCtl_pw (t : Nat) (f : Ctl → Ctl) : (s.updCtl t f).pw = s.pw := rfl
@[simp] theorem updCtl_bt (t : Nat) (f : Ctl → Ctl) : (s.updCtl t f).bt = s.bt := rfl
@[simp] theorem updCtl_flash (t : Nat) (f : Ctl → Ctl) : (s.updCtl t f).flash = s.flash := rfl
@[simp] theorem updCtl_ids (t : Nat) (f : Ctl → Ctl) : (s.updCtl t f).ids = s.ids := rfl
@[simp] theorem updCtl_msix (t : Nat) (f : Ctl → Ctl) : (s.updCtl t f).msix = s.msix := rfl
@[simp] theorem updCtl_podOut (t : Nat) (f : Ctl → Ctl) : (s.updCtl t f).podOut = s.podOut := rfl
@[simp] theorem updCtl_msixHeld (t : Nat) (f : Ctl → Ctl) : (s.updCtl t f).msixHeld = s.msixHeld := rfl
@[simp] theorem updCtl_podTx (t : Nat) (f : Ctl → Ctl) : (s.updCtl t f).podTx = s.podTx := rfl
@[simp] theorem updCtl_pageTx (t : Nat) (f : Ctl → Ctl) : (s.updCtl t f).pageTx = s.pageTx := rfl
@[simp] theorem updCtl_pageWait (t : Nat) (f : Ctl → Ctl) : (s.updCtl t f).pageWait = s.pageWait := rfl
@[simp] theorem updCtl_pkts (t : Nat) (f : Ctl → Ctl) : (s.updCtl t f).pkts = s.pkts := rfl
@[simp] theorem updCtl_podHeld (t : Nat) (f : Ctl → Ctl) : (s.updCtl t f).podHeld = s.podHeld := rfl
@[simp] theorem updCtl_spdm (t : Nat) (f : Ctl → Ctl) : (s.updCtl t f).spdm = s.spdm := rfl
@[simp] theorem updCtl_hostReads (t : Nat) (f : Ctl → Ctl) : (s.updCtl t f).hostReads = s.hostReads := rfl
@[simp] theorem updCtl_turns (t : Nat) (f : Ctl → Ctl) : (s.updCtl t f).turns = s.turns := rfl
@[simp] theorem updCtl_free (t : Nat) (f : Ctl → Ctl) : (s.updCtl t f).free = s.free := rfl
@[simp] theorem updCtl_fTask (t : Nat) (f : Ctl → Ctl) : (s.updCtl t f).fTask = s.fTask := rfl
@[simp] theorem updCtl_fSlot (t : Nat) (f : Ctl → Ctl) : (s.updCtl t f).fSlot = s.fSlot := rfl
@[simp] theorem updCtl_fQueue (t : Nat) (f : Ctl → Ctl) : (s.updCtl t f).fQueue = s.fQueue := rfl
@[simp] theorem updCtl_fLen (t : Nat) (f : Ctl → Ctl) : (s.updCtl t f).fLen = s.fLen := rfl
@[simp] theorem updCtl_fWord (t : Nat) (f : Ctl → Ctl) : (s.updCtl t f).fWord = s.fWord := rfl
@[simp] theorem updCtl_stopped (t : Nat) (f : Ctl → Ctl) : (s.updCtl t f).stopped = s.stopped := rfl

/-! ### State.updD -/
@[simp] theorem updD_now (t : Nat) (f : DCsr → DCsr) : (s.updD t f).now = s.now := rfl
@[simp] theorem updD_mem (t : Nat) (f : DCsr → DCsr) : (s.updD t f).mem = s.mem := rfl
@[simp] theorem updD_poison (t : Nat) (f : DCsr → DCsr) : (s.updD t f).poison = s.poison := rfl
@[simp] theorem updD_net (t : Nat) (f : DCsr → DCsr) : (s.updD t f).net = s.net := rfl
@[simp] theorem updD_groups (t : Nat) (f : DCsr → DCsr) : (s.updD t f).groups = s.groups := rfl
@[simp] theorem updD_kernels (t : Nat) (f : DCsr → DCsr) : (s.updD t f).kernels = s.kernels := rfl
@[simp] theorem updD_insts (t : Nat) (f : DCsr → DCsr) : (s.updD t f).insts = s.insts := rfl
@[simp] theorem updD_ctxs (t : Nat) (f : DCsr → DCsr) : (s.updD t f).ctxs = s.ctxs := rfl
@[simp] theorem updD_queues (t : Nat) (f : DCsr → DCsr) : (s.updD t f).queues = s.queues := rfl
@[simp] theorem updD_cores (t : Nat) (f : DCsr → DCsr) : (s.updD t f).cores = s.cores := rfl
@[simp] theorem updD_mg (t : Nat) (f : DCsr → DCsr) : (s.updD t f).mg = s.mg := rfl
@[simp] theorem updD_pg (t : Nat) (f : DCsr → DCsr) : (s.updD t f).pg = s.pg := rfl
@[simp] theorem updD_lk (t : Nat) (f : DCsr → DCsr) : (s.updD t f).lk = s.lk := rfl
@[simp] theorem updD_dies (t : Nat) (f : DCsr → DCsr) : (s.updD t f).dies = s.dies := rfl
@[simp] theorem updD_pw (t : Nat) (f : DCsr → DCsr) : (s.updD t f).pw = s.pw := rfl
@[simp] theorem updD_bt (t : Nat) (f : DCsr → DCsr) : (s.updD t f).bt = s.bt := rfl
@[simp] theorem updD_flash (t : Nat) (f : DCsr → DCsr) : (s.updD t f).flash = s.flash := rfl
@[simp] theorem updD_ids (t : Nat) (f : DCsr → DCsr) : (s.updD t f).ids = s.ids := rfl
@[simp] theorem updD_msix (t : Nat) (f : DCsr → DCsr) : (s.updD t f).msix = s.msix := rfl
@[simp] theorem updD_podOut (t : Nat) (f : DCsr → DCsr) : (s.updD t f).podOut = s.podOut := rfl
@[simp] theorem updD_msixHeld (t : Nat) (f : DCsr → DCsr) : (s.updD t f).msixHeld = s.msixHeld := rfl
@[simp] theorem updD_podTx (t : Nat) (f : DCsr → DCsr) : (s.updD t f).podTx = s.podTx := rfl
@[simp] theorem updD_pageTx (t : Nat) (f : DCsr → DCsr) : (s.updD t f).pageTx = s.pageTx := rfl
@[simp] theorem updD_pageWait (t : Nat) (f : DCsr → DCsr) : (s.updD t f).pageWait = s.pageWait := rfl
@[simp] theorem updD_pkts (t : Nat) (f : DCsr → DCsr) : (s.updD t f).pkts = s.pkts := rfl
@[simp] theorem updD_podHeld (t : Nat) (f : DCsr → DCsr) : (s.updD t f).podHeld = s.podHeld := rfl
@[simp] theorem updD_spdm (t : Nat) (f : DCsr → DCsr) : (s.updD t f).spdm = s.spdm := rfl
@[simp] theorem updD_hostReads (t : Nat) (f : DCsr → DCsr) : (s.updD t f).hostReads = s.hostReads := rfl
@[simp] theorem updD_turns (t : Nat) (f : DCsr → DCsr) : (s.updD t f).turns = s.turns := rfl
@[simp] theorem updD_free (t : Nat) (f : DCsr → DCsr) : (s.updD t f).free = s.free := rfl
@[simp] theorem updD_fTask (t : Nat) (f : DCsr → DCsr) : (s.updD t f).fTask = s.fTask := rfl
@[simp] theorem updD_fSlot (t : Nat) (f : DCsr → DCsr) : (s.updD t f).fSlot = s.fSlot := rfl
@[simp] theorem updD_fQueue (t : Nat) (f : DCsr → DCsr) : (s.updD t f).fQueue = s.fQueue := rfl
@[simp] theorem updD_fLen (t : Nat) (f : DCsr → DCsr) : (s.updD t f).fLen = s.fLen := rfl
@[simp] theorem updD_fWord (t : Nat) (f : DCsr → DCsr) : (s.updD t f).fWord = s.fWord := rfl
@[simp] theorem updD_stopped (t : Nat) (f : DCsr → DCsr) : (s.updD t f).stopped = s.stopped := rfl

/-! ### State.updEng -/
@[simp] theorem updEng_now (t : Nat) (f : Eng → Eng) : (s.updEng t f).now = s.now := rfl
@[simp] theorem updEng_mem (t : Nat) (f : Eng → Eng) : (s.updEng t f).mem = s.mem := rfl
@[simp] theorem updEng_poison (t : Nat) (f : Eng → Eng) : (s.updEng t f).poison = s.poison := rfl
@[simp] theorem updEng_net (t : Nat) (f : Eng → Eng) : (s.updEng t f).net = s.net := rfl
@[simp] theorem updEng_groups (t : Nat) (f : Eng → Eng) : (s.updEng t f).groups = s.groups := rfl
@[simp] theorem updEng_kernels (t : Nat) (f : Eng → Eng) : (s.updEng t f).kernels = s.kernels := rfl
@[simp] theorem updEng_insts (t : Nat) (f : Eng → Eng) : (s.updEng t f).insts = s.insts := rfl
@[simp] theorem updEng_ctxs (t : Nat) (f : Eng → Eng) : (s.updEng t f).ctxs = s.ctxs := rfl
@[simp] theorem updEng_queues (t : Nat) (f : Eng → Eng) : (s.updEng t f).queues = s.queues := rfl
@[simp] theorem updEng_cores (t : Nat) (f : Eng → Eng) : (s.updEng t f).cores = s.cores := rfl
@[simp] theorem updEng_mg (t : Nat) (f : Eng → Eng) : (s.updEng t f).mg = s.mg := rfl
@[simp] theorem updEng_pg (t : Nat) (f : Eng → Eng) : (s.updEng t f).pg = s.pg := rfl
@[simp] theorem updEng_lk (t : Nat) (f : Eng → Eng) : (s.updEng t f).lk = s.lk := rfl
@[simp] theorem updEng_dies (t : Nat) (f : Eng → Eng) : (s.updEng t f).dies = s.dies := rfl
@[simp] theorem updEng_pw (t : Nat) (f : Eng → Eng) : (s.updEng t f).pw = s.pw := rfl
@[simp] theorem updEng_bt (t : Nat) (f : Eng → Eng) : (s.updEng t f).bt = s.bt := rfl
@[simp] theorem updEng_flash (t : Nat) (f : Eng → Eng) : (s.updEng t f).flash = s.flash := rfl
@[simp] theorem updEng_ids (t : Nat) (f : Eng → Eng) : (s.updEng t f).ids = s.ids := rfl
@[simp] theorem updEng_msix (t : Nat) (f : Eng → Eng) : (s.updEng t f).msix = s.msix := rfl
@[simp] theorem updEng_podOut (t : Nat) (f : Eng → Eng) : (s.updEng t f).podOut = s.podOut := rfl
@[simp] theorem updEng_msixHeld (t : Nat) (f : Eng → Eng) : (s.updEng t f).msixHeld = s.msixHeld := rfl
@[simp] theorem updEng_podTx (t : Nat) (f : Eng → Eng) : (s.updEng t f).podTx = s.podTx := rfl
@[simp] theorem updEng_pageTx (t : Nat) (f : Eng → Eng) : (s.updEng t f).pageTx = s.pageTx := rfl
@[simp] theorem updEng_pageWait (t : Nat) (f : Eng → Eng) : (s.updEng t f).pageWait = s.pageWait := rfl
@[simp] theorem updEng_pkts (t : Nat) (f : Eng → Eng) : (s.updEng t f).pkts = s.pkts := rfl
@[simp] theorem updEng_podHeld (t : Nat) (f : Eng → Eng) : (s.updEng t f).podHeld = s.podHeld := rfl
@[simp] theorem updEng_spdm (t : Nat) (f : Eng → Eng) : (s.updEng t f).spdm = s.spdm := rfl
@[simp] theorem updEng_hostReads (t : Nat) (f : Eng → Eng) : (s.updEng t f).hostReads = s.hostReads := rfl
@[simp] theorem updEng_turns (t : Nat) (f : Eng → Eng) : (s.updEng t f).turns = s.turns := rfl
@[simp] theorem updEng_free (t : Nat) (f : Eng → Eng) : (s.updEng t f).free = s.free := rfl
@[simp] theorem updEng_fTask (t : Nat) (f : Eng → Eng) : (s.updEng t f).fTask = s.fTask := rfl
@[simp] theorem updEng_fSlot (t : Nat) (f : Eng → Eng) : (s.updEng t f).fSlot = s.fSlot := rfl
@[simp] theorem updEng_fQueue (t : Nat) (f : Eng → Eng) : (s.updEng t f).fQueue = s.fQueue := rfl
@[simp] theorem updEng_fLen (t : Nat) (f : Eng → Eng) : (s.updEng t f).fLen = s.fLen := rfl
@[simp] theorem updEng_fWord (t : Nat) (f : Eng → Eng) : (s.updEng t f).fWord = s.fWord := rfl
@[simp] theorem updEng_stopped (t : Nat) (f : Eng → Eng) : (s.updEng t f).stopped = s.stopped := rfl

/-! ### State.updMsgs -/
@[simp] theorem updMsgs_now (t : Nat) (f : Msgs → Msgs) : (s.updMsgs t f).now = s.now := rfl
@[simp] theorem updMsgs_mem (t : Nat) (f : Msgs → Msgs) : (s.updMsgs t f).mem = s.mem := rfl
@[simp] theorem updMsgs_poison (t : Nat) (f : Msgs → Msgs) : (s.updMsgs t f).poison = s.poison := rfl
@[simp] theorem updMsgs_net (t : Nat) (f : Msgs → Msgs) : (s.updMsgs t f).net = s.net := rfl
@[simp] theorem updMsgs_groups (t : Nat) (f : Msgs → Msgs) : (s.updMsgs t f).groups = s.groups := rfl
@[simp] theorem updMsgs_kernels (t : Nat) (f : Msgs → Msgs) : (s.updMsgs t f).kernels = s.kernels := rfl
@[simp] theorem updMsgs_insts (t : Nat) (f : Msgs → Msgs) : (s.updMsgs t f).insts = s.insts := rfl
@[simp] theorem updMsgs_ctxs (t : Nat) (f : Msgs → Msgs) : (s.updMsgs t f).ctxs = s.ctxs := rfl
@[simp] theorem updMsgs_queues (t : Nat) (f : Msgs → Msgs) : (s.updMsgs t f).queues = s.queues := rfl
@[simp] theorem updMsgs_cores (t : Nat) (f : Msgs → Msgs) : (s.updMsgs t f).cores = s.cores := rfl
@[simp] theorem updMsgs_mg (t : Nat) (f : Msgs → Msgs) : (s.updMsgs t f).mg = s.mg := rfl
@[simp] theorem updMsgs_pg (t : Nat) (f : Msgs → Msgs) : (s.updMsgs t f).pg = s.pg := rfl
@[simp] theorem updMsgs_lk (t : Nat) (f : Msgs → Msgs) : (s.updMsgs t f).lk = s.lk := rfl
@[simp] theorem updMsgs_dies (t : Nat) (f : Msgs → Msgs) : (s.updMsgs t f).dies = s.dies := rfl
@[simp] theorem updMsgs_pw (t : Nat) (f : Msgs → Msgs) : (s.updMsgs t f).pw = s.pw := rfl
@[simp] theorem updMsgs_bt (t : Nat) (f : Msgs → Msgs) : (s.updMsgs t f).bt = s.bt := rfl
@[simp] theorem updMsgs_flash (t : Nat) (f : Msgs → Msgs) : (s.updMsgs t f).flash = s.flash := rfl
@[simp] theorem updMsgs_ids (t : Nat) (f : Msgs → Msgs) : (s.updMsgs t f).ids = s.ids := rfl
@[simp] theorem updMsgs_msix (t : Nat) (f : Msgs → Msgs) : (s.updMsgs t f).msix = s.msix := rfl
@[simp] theorem updMsgs_podOut (t : Nat) (f : Msgs → Msgs) : (s.updMsgs t f).podOut = s.podOut := rfl
@[simp] theorem updMsgs_msixHeld (t : Nat) (f : Msgs → Msgs) : (s.updMsgs t f).msixHeld = s.msixHeld := rfl
@[simp] theorem updMsgs_podTx (t : Nat) (f : Msgs → Msgs) : (s.updMsgs t f).podTx = s.podTx := rfl
@[simp] theorem updMsgs_pageTx (t : Nat) (f : Msgs → Msgs) : (s.updMsgs t f).pageTx = s.pageTx := rfl
@[simp] theorem updMsgs_pageWait (t : Nat) (f : Msgs → Msgs) : (s.updMsgs t f).pageWait = s.pageWait := rfl
@[simp] theorem updMsgs_pkts (t : Nat) (f : Msgs → Msgs) : (s.updMsgs t f).pkts = s.pkts := rfl
@[simp] theorem updMsgs_podHeld (t : Nat) (f : Msgs → Msgs) : (s.updMsgs t f).podHeld = s.podHeld := rfl
@[simp] theorem updMsgs_spdm (t : Nat) (f : Msgs → Msgs) : (s.updMsgs t f).spdm = s.spdm := rfl
@[simp] theorem updMsgs_hostReads (t : Nat) (f : Msgs → Msgs) : (s.updMsgs t f).hostReads = s.hostReads := rfl
@[simp] theorem updMsgs_turns (t : Nat) (f : Msgs → Msgs) : (s.updMsgs t f).turns = s.turns := rfl
@[simp] theorem updMsgs_free (t : Nat) (f : Msgs → Msgs) : (s.updMsgs t f).free = s.free := rfl
@[simp] theorem updMsgs_fTask (t : Nat) (f : Msgs → Msgs) : (s.updMsgs t f).fTask = s.fTask := rfl
@[simp] theorem updMsgs_fSlot (t : Nat) (f : Msgs → Msgs) : (s.updMsgs t f).fSlot = s.fSlot := rfl
@[simp] theorem updMsgs_fQueue (t : Nat) (f : Msgs → Msgs) : (s.updMsgs t f).fQueue = s.fQueue := rfl
@[simp] theorem updMsgs_fLen (t : Nat) (f : Msgs → Msgs) : (s.updMsgs t f).fLen = s.fLen := rfl
@[simp] theorem updMsgs_fWord (t : Nat) (f : Msgs → Msgs) : (s.updMsgs t f).fWord = s.fWord := rfl
@[simp] theorem updMsgs_stopped (t : Nat) (f : Msgs → Msgs) : (s.updMsgs t f).stopped = s.stopped := rfl

/-! ### State.updBar -/
@[simp] theorem updBar_now (t : Nat) (f : BarCore → BarCore) : (s.updBar t f).now = s.now := rfl
@[simp] theorem updBar_mem (t : Nat) (f : BarCore → BarCore) : (s.updBar t f).mem = s.mem := rfl
@[simp] theorem updBar_poison (t : Nat) (f : BarCore → BarCore) : (s.updBar t f).poison = s.poison := rfl
@[simp] theorem updBar_net (t : Nat) (f : BarCore → BarCore) : (s.updBar t f).net = s.net := rfl
@[simp] theorem updBar_groups (t : Nat) (f : BarCore → BarCore) : (s.updBar t f).groups = s.groups := rfl
@[simp] theorem updBar_kernels (t : Nat) (f : BarCore → BarCore) : (s.updBar t f).kernels = s.kernels := rfl
@[simp] theorem updBar_insts (t : Nat) (f : BarCore → BarCore) : (s.updBar t f).insts = s.insts := rfl
@[simp] theorem updBar_ctxs (t : Nat) (f : BarCore → BarCore) : (s.updBar t f).ctxs = s.ctxs := rfl
@[simp] theorem updBar_queues (t : Nat) (f : BarCore → BarCore) : (s.updBar t f).queues = s.queues := rfl
@[simp] theorem updBar_cores (t : Nat) (f : BarCore → BarCore) : (s.updBar t f).cores = s.cores := rfl
@[simp] theorem updBar_mg (t : Nat) (f : BarCore → BarCore) : (s.updBar t f).mg = s.mg := rfl
@[simp] theorem updBar_pg (t : Nat) (f : BarCore → BarCore) : (s.updBar t f).pg = s.pg := rfl
@[simp] theorem updBar_lk (t : Nat) (f : BarCore → BarCore) : (s.updBar t f).lk = s.lk := rfl
@[simp] theorem updBar_dies (t : Nat) (f : BarCore → BarCore) : (s.updBar t f).dies = s.dies := rfl
@[simp] theorem updBar_pw (t : Nat) (f : BarCore → BarCore) : (s.updBar t f).pw = s.pw := rfl
@[simp] theorem updBar_bt (t : Nat) (f : BarCore → BarCore) : (s.updBar t f).bt = s.bt := rfl
@[simp] theorem updBar_flash (t : Nat) (f : BarCore → BarCore) : (s.updBar t f).flash = s.flash := rfl
@[simp] theorem updBar_ids (t : Nat) (f : BarCore → BarCore) : (s.updBar t f).ids = s.ids := rfl
@[simp] theorem updBar_msix (t : Nat) (f : BarCore → BarCore) : (s.updBar t f).msix = s.msix := rfl
@[simp] theorem updBar_podOut (t : Nat) (f : BarCore → BarCore) : (s.updBar t f).podOut = s.podOut := rfl
@[simp] theorem updBar_msixHeld (t : Nat) (f : BarCore → BarCore) : (s.updBar t f).msixHeld = s.msixHeld := rfl
@[simp] theorem updBar_podTx (t : Nat) (f : BarCore → BarCore) : (s.updBar t f).podTx = s.podTx := rfl
@[simp] theorem updBar_pageTx (t : Nat) (f : BarCore → BarCore) : (s.updBar t f).pageTx = s.pageTx := rfl
@[simp] theorem updBar_pageWait (t : Nat) (f : BarCore → BarCore) : (s.updBar t f).pageWait = s.pageWait := rfl
@[simp] theorem updBar_pkts (t : Nat) (f : BarCore → BarCore) : (s.updBar t f).pkts = s.pkts := rfl
@[simp] theorem updBar_podHeld (t : Nat) (f : BarCore → BarCore) : (s.updBar t f).podHeld = s.podHeld := rfl
@[simp] theorem updBar_spdm (t : Nat) (f : BarCore → BarCore) : (s.updBar t f).spdm = s.spdm := rfl
@[simp] theorem updBar_hostReads (t : Nat) (f : BarCore → BarCore) : (s.updBar t f).hostReads = s.hostReads := rfl
@[simp] theorem updBar_turns (t : Nat) (f : BarCore → BarCore) : (s.updBar t f).turns = s.turns := rfl
@[simp] theorem updBar_free (t : Nat) (f : BarCore → BarCore) : (s.updBar t f).free = s.free := rfl
@[simp] theorem updBar_fTask (t : Nat) (f : BarCore → BarCore) : (s.updBar t f).fTask = s.fTask := rfl
@[simp] theorem updBar_fSlot (t : Nat) (f : BarCore → BarCore) : (s.updBar t f).fSlot = s.fSlot := rfl
@[simp] theorem updBar_fQueue (t : Nat) (f : BarCore → BarCore) : (s.updBar t f).fQueue = s.fQueue := rfl
@[simp] theorem updBar_fLen (t : Nat) (f : BarCore → BarCore) : (s.updBar t f).fLen = s.fLen := rfl
@[simp] theorem updBar_fWord (t : Nat) (f : BarCore → BarCore) : (s.updBar t f).fWord = s.fWord := rfl
@[simp] theorem updBar_stopped (t : Nat) (f : BarCore → BarCore) : (s.updBar t f).stopped = s.stopped := rfl

/-! ### State.ctNext -/
@[simp] theorem ctNext_now (t n : Nat) (f : Ctl → Ctl) : (s.ctNext t n f).now = s.now := rfl
@[simp] theorem ctNext_mem (t n : Nat) (f : Ctl → Ctl) : (s.ctNext t n f).mem = s.mem := rfl
@[simp] theorem ctNext_poison (t n : Nat) (f : Ctl → Ctl) : (s.ctNext t n f).poison = s.poison := rfl
@[simp] theorem ctNext_net (t n : Nat) (f : Ctl → Ctl) : (s.ctNext t n f).net = s.net := rfl
@[simp] theorem ctNext_groups (t n : Nat) (f : Ctl → Ctl) : (s.ctNext t n f).groups = s.groups := rfl
@[simp] theorem ctNext_kernels (t n : Nat) (f : Ctl → Ctl) : (s.ctNext t n f).kernels = s.kernels := rfl
@[simp] theorem ctNext_insts (t n : Nat) (f : Ctl → Ctl) : (s.ctNext t n f).insts = s.insts := rfl
@[simp] theorem ctNext_ctxs (t n : Nat) (f : Ctl → Ctl) : (s.ctNext t n f).ctxs = s.ctxs := rfl
@[simp] theorem ctNext_queues (t n : Nat) (f : Ctl → Ctl) : (s.ctNext t n f).queues = s.queues := rfl
@[simp] theorem ctNext_cores (t n : Nat) (f : Ctl → Ctl) : (s.ctNext t n f).cores = s.cores := rfl
@[simp] theorem ctNext_mg (t n : Nat) (f : Ctl → Ctl) : (s.ctNext t n f).mg = s.mg := rfl
@[simp] theorem ctNext_pg (t n : Nat) (f : Ctl → Ctl) : (s.ctNext t n f).pg = s.pg := rfl
@[simp] theorem ctNext_lk (t n : Nat) (f : Ctl → Ctl) : (s.ctNext t n f).lk = s.lk := rfl
@[simp] theorem ctNext_dies (t n : Nat) (f : Ctl → Ctl) : (s.ctNext t n f).dies = s.dies := rfl
@[simp] theorem ctNext_pw (t n : Nat) (f : Ctl → Ctl) : (s.ctNext t n f).pw = s.pw := rfl
@[simp] theorem ctNext_bt (t n : Nat) (f : Ctl → Ctl) : (s.ctNext t n f).bt = s.bt := rfl
@[simp] theorem ctNext_flash (t n : Nat) (f : Ctl → Ctl) : (s.ctNext t n f).flash = s.flash := rfl
@[simp] theorem ctNext_ids (t n : Nat) (f : Ctl → Ctl) : (s.ctNext t n f).ids = s.ids := rfl
@[simp] theorem ctNext_msix (t n : Nat) (f : Ctl → Ctl) : (s.ctNext t n f).msix = s.msix := rfl
@[simp] theorem ctNext_podOut (t n : Nat) (f : Ctl → Ctl) : (s.ctNext t n f).podOut = s.podOut := rfl
@[simp] theorem ctNext_msixHeld (t n : Nat) (f : Ctl → Ctl) : (s.ctNext t n f).msixHeld = s.msixHeld := rfl
@[simp] theorem ctNext_podTx (t n : Nat) (f : Ctl → Ctl) : (s.ctNext t n f).podTx = s.podTx := rfl
@[simp] theorem ctNext_pageTx (t n : Nat) (f : Ctl → Ctl) : (s.ctNext t n f).pageTx = s.pageTx := rfl
@[simp] theorem ctNext_pageWait (t n : Nat) (f : Ctl → Ctl) : (s.ctNext t n f).pageWait = s.pageWait := rfl
@[simp] theorem ctNext_pkts (t n : Nat) (f : Ctl → Ctl) : (s.ctNext t n f).pkts = s.pkts := rfl
@[simp] theorem ctNext_podHeld (t n : Nat) (f : Ctl → Ctl) : (s.ctNext t n f).podHeld = s.podHeld := rfl
@[simp] theorem ctNext_spdm (t n : Nat) (f : Ctl → Ctl) : (s.ctNext t n f).spdm = s.spdm := rfl
@[simp] theorem ctNext_hostReads (t n : Nat) (f : Ctl → Ctl) : (s.ctNext t n f).hostReads = s.hostReads := rfl
@[simp] theorem ctNext_turns (t n : Nat) (f : Ctl → Ctl) : (s.ctNext t n f).turns = s.turns := rfl
@[simp] theorem ctNext_free (t n : Nat) (f : Ctl → Ctl) : (s.ctNext t n f).free = s.free := rfl
@[simp] theorem ctNext_fTask (t n : Nat) (f : Ctl → Ctl) : (s.ctNext t n f).fTask = s.fTask := rfl
@[simp] theorem ctNext_fSlot (t n : Nat) (f : Ctl → Ctl) : (s.ctNext t n f).fSlot = s.fSlot := rfl
@[simp] theorem ctNext_fQueue (t n : Nat) (f : Ctl → Ctl) : (s.ctNext t n f).fQueue = s.fQueue := rfl
@[simp] theorem ctNext_fLen (t n : Nat) (f : Ctl → Ctl) : (s.ctNext t n f).fLen = s.fLen := rfl
@[simp] theorem ctNext_fWord (t n : Nat) (f : Ctl → Ctl) : (s.ctNext t n f).fWord = s.fWord := rfl
@[simp] theorem ctNext_stopped (t n : Nat) (f : Ctl → Ctl) : (s.ctNext t n f).stopped = s.stopped := rfl

/-! ### State.send -/
@[simp] theorem send_now (p : Packet) : (s.send p).now = s.now := rfl
@[simp] theorem send_mem (p : Packet) : (s.send p).mem = s.mem := rfl
@[simp] theorem send_poison (p : Packet) : (s.send p).poison = s.poison := rfl
@[simp] theorem send_tasks (p : Packet) : (s.send p).tasks = s.tasks := rfl
@[simp] theorem send_groups (p : Packet) : (s.send p).groups = s.groups := rfl
@[simp] theorem send_kernels (p : Packet) : (s.send p).kernels = s.kernels := rfl
@[simp] theorem send_insts (p : Packet) : (s.send p).insts = s.insts := rfl
@[simp] theorem send_ctxs (p : Packet) : (s.send p).ctxs = s.ctxs := rfl
@[simp] theorem send_queues (p : Packet) : (s.send p).queues = s.queues := rfl
@[simp] theorem send_cores (p : Packet) : (s.send p).cores = s.cores := rfl
@[simp] theorem send_mg (p : Packet) : (s.send p).mg = s.mg := rfl
@[simp] theorem send_pg (p : Packet) : (s.send p).pg = s.pg := rfl
@[simp] theorem send_lk (p : Packet) : (s.send p).lk = s.lk := rfl
@[simp] theorem send_dies (p : Packet) : (s.send p).dies = s.dies := rfl
@[simp] theorem send_pw (p : Packet) : (s.send p).pw = s.pw := rfl
@[simp] theorem send_bt (p : Packet) : (s.send p).bt = s.bt := rfl
@[simp] theorem send_flash (p : Packet) : (s.send p).flash = s.flash := rfl
@[simp] theorem send_ids (p : Packet) : (s.send p).ids = s.ids := rfl
@[simp] theorem send_msix (p : Packet) : (s.send p).msix = s.msix := rfl
@[simp] theorem send_podOut (p : Packet) : (s.send p).podOut = s.podOut := rfl
@[simp] theorem send_msixHeld (p : Packet) : (s.send p).msixHeld = s.msixHeld := rfl
@[simp] theorem send_podTx (p : Packet) : (s.send p).podTx = s.podTx := rfl
@[simp] theorem send_pageTx (p : Packet) : (s.send p).pageTx = s.pageTx := rfl
@[simp] theorem send_pageWait (p : Packet) : (s.send p).pageWait = s.pageWait := rfl
@[simp] theorem send_pkts (p : Packet) : (s.send p).pkts = s.pkts + 1 := rfl
@[simp] theorem send_podHeld (p : Packet) : (s.send p).podHeld = s.podHeld := rfl
@[simp] theorem send_spdm (p : Packet) : (s.send p).spdm = s.spdm := rfl
@[simp] theorem send_hostReads (p : Packet) : (s.send p).hostReads = s.hostReads := rfl
@[simp] theorem send_turns (p : Packet) : (s.send p).turns = s.turns := rfl
@[simp] theorem send_free (p : Packet) : (s.send p).free = s.free := rfl
@[simp] theorem send_fTask (p : Packet) : (s.send p).fTask = s.fTask := rfl
@[simp] theorem send_fSlot (p : Packet) : (s.send p).fSlot = s.fSlot := rfl
@[simp] theorem send_fQueue (p : Packet) : (s.send p).fQueue = s.fQueue := rfl
@[simp] theorem send_fLen (p : Packet) : (s.send p).fLen = s.fLen := rfl
@[simp] theorem send_fWord (p : Packet) : (s.send p).fWord = s.fWord := rfl
@[simp] theorem send_stopped (p : Packet) : (s.send p).stopped = s.stopped := rfl

/-! ### State.draw -/
@[simp] theorem draw_now : (s.draw).now = s.now := rfl
@[simp] theorem draw_mem : (s.draw).mem = s.mem := rfl
@[simp] theorem draw_poison : (s.draw).poison = s.poison := rfl
@[simp] theorem draw_tasks : (s.draw).tasks = s.tasks := rfl
@[simp] theorem draw_net : (s.draw).net = s.net := rfl
@[simp] theorem draw_groups : (s.draw).groups = s.groups := rfl
@[simp] theorem draw_kernels : (s.draw).kernels = s.kernels := rfl
@[simp] theorem draw_insts : (s.draw).insts = s.insts := rfl
@[simp] theorem draw_ctxs : (s.draw).ctxs = s.ctxs := rfl
@[simp] theorem draw_queues : (s.draw).queues = s.queues := rfl
@[simp] theorem draw_cores : (s.draw).cores = s.cores := rfl
@[simp] theorem draw_mg : (s.draw).mg = s.mg := rfl
@[simp] theorem draw_pg : (s.draw).pg = s.pg := rfl
@[simp] theorem draw_lk : (s.draw).lk = s.lk := rfl
@[simp] theorem draw_dies : (s.draw).dies = s.dies := rfl
@[simp] theorem draw_pw : (s.draw).pw = s.pw := rfl
@[simp] theorem draw_bt : (s.draw).bt = s.bt := rfl
@[simp] theorem draw_flash : (s.draw).flash = s.flash := rfl
@[simp] theorem draw_ids : (s.draw).ids = s.ids := rfl
@[simp] theorem draw_msix : (s.draw).msix = s.msix := rfl
@[simp] theorem draw_podOut : (s.draw).podOut = s.podOut := rfl
@[simp] theorem draw_msixHeld : (s.draw).msixHeld = s.msixHeld := rfl
@[simp] theorem draw_podTx : (s.draw).podTx = s.podTx := rfl
@[simp] theorem draw_pageTx : (s.draw).pageTx = s.pageTx := rfl
@[simp] theorem draw_pageWait : (s.draw).pageWait = s.pageWait := rfl
@[simp] theorem draw_pkts : (s.draw).pkts = s.pkts := rfl
@[simp] theorem draw_podHeld : (s.draw).podHeld = s.podHeld := rfl
@[simp] theorem draw_spdm : (s.draw).spdm = s.spdm := rfl
@[simp] theorem draw_hostReads : (s.draw).hostReads = s.hostReads := rfl
@[simp] theorem draw_turns : (s.draw).turns = s.turns := rfl
@[simp] theorem draw_fTask : (s.draw).fTask = s.fTask := rfl
@[simp] theorem draw_fSlot : (s.draw).fSlot = s.fSlot := rfl
@[simp] theorem draw_fQueue : (s.draw).fQueue = s.fQueue := rfl
@[simp] theorem draw_fLen : (s.draw).fLen = s.fLen := rfl
@[simp] theorem draw_fWord : (s.draw).fWord = s.fWord := rfl
@[simp] theorem draw_stopped : (s.draw).stopped = s.stopped := rfl

/-! ### State.setCtx -/
@[simp] theorem setCtx_now (c : Nat) (x : Ctx) : (s.setCtx c x).now = s.now := rfl
@[simp] theorem setCtx_mem (c : Nat) (x : Ctx) : (s.setCtx c x).mem = s.mem := rfl
@[simp] theorem setCtx_poison (c : Nat) (x : Ctx) : (s.setCtx c x).poison = s.poison := rfl
@[simp] theorem setCtx_tasks (c : Nat) (x : Ctx) : (s.setCtx c x).tasks = s.tasks := rfl
@[simp] theorem setCtx_net (c : Nat) (x : Ctx) : (s.setCtx c x).net = s.net := rfl
@[simp] theorem setCtx_groups (c : Nat) (x : Ctx) : (s.setCtx c x).groups = s.groups := rfl
@[simp] theorem setCtx_kernels (c : Nat) (x : Ctx) : (s.setCtx c x).kernels = s.kernels := rfl
@[simp] theorem setCtx_insts (c : Nat) (x : Ctx) : (s.setCtx c x).insts = s.insts := rfl
@[simp] theorem setCtx_queues (c : Nat) (x : Ctx) : (s.setCtx c x).queues = s.queues := rfl
@[simp] theorem setCtx_cores (c : Nat) (x : Ctx) : (s.setCtx c x).cores = s.cores := rfl
@[simp] theorem setCtx_mg (c : Nat) (x : Ctx) : (s.setCtx c x).mg = s.mg := rfl
@[simp] theorem setCtx_pg (c : Nat) (x : Ctx) : (s.setCtx c x).pg = s.pg := rfl
@[simp] theorem setCtx_lk (c : Nat) (x : Ctx) : (s.setCtx c x).lk = s.lk := rfl
@[simp] theorem setCtx_dies (c : Nat) (x : Ctx) : (s.setCtx c x).dies = s.dies := rfl
@[simp] theorem setCtx_pw (c : Nat) (x : Ctx) : (s.setCtx c x).pw = s.pw := rfl
@[simp] theorem setCtx_bt (c : Nat) (x : Ctx) : (s.setCtx c x).bt = s.bt := rfl
@[simp] theorem setCtx_flash (c : Nat) (x : Ctx) : (s.setCtx c x).flash = s.flash := rfl
@[simp] theorem setCtx_ids (c : Nat) (x : Ctx) : (s.setCtx c x).ids = s.ids := rfl
@[simp] theorem setCtx_msix (c : Nat) (x : Ctx) : (s.setCtx c x).msix = s.msix := rfl
@[simp] theorem setCtx_podOut (c : Nat) (x : Ctx) : (s.setCtx c x).podOut = s.podOut := rfl
@[simp] theorem setCtx_msixHeld (c : Nat) (x : Ctx) : (s.setCtx c x).msixHeld = s.msixHeld := rfl
@[simp] theorem setCtx_podTx (c : Nat) (x : Ctx) : (s.setCtx c x).podTx = s.podTx := rfl
@[simp] theorem setCtx_pageTx (c : Nat) (x : Ctx) : (s.setCtx c x).pageTx = s.pageTx := rfl
@[simp] theorem setCtx_pageWait (c : Nat) (x : Ctx) : (s.setCtx c x).pageWait = s.pageWait := rfl
@[simp] theorem setCtx_pkts (c : Nat) (x : Ctx) : (s.setCtx c x).pkts = s.pkts := rfl
@[simp] theorem setCtx_podHeld (c : Nat) (x : Ctx) : (s.setCtx c x).podHeld = s.podHeld := rfl
@[simp] theorem setCtx_spdm (c : Nat) (x : Ctx) : (s.setCtx c x).spdm = s.spdm := rfl
@[simp] theorem setCtx_hostReads (c : Nat) (x : Ctx) : (s.setCtx c x).hostReads = s.hostReads := rfl
@[simp] theorem setCtx_turns (c : Nat) (x : Ctx) : (s.setCtx c x).turns = s.turns := rfl
@[simp] theorem setCtx_free (c : Nat) (x : Ctx) : (s.setCtx c x).free = s.free := rfl
@[simp] theorem setCtx_fTask (c : Nat) (x : Ctx) : (s.setCtx c x).fTask = s.fTask := rfl
@[simp] theorem setCtx_fSlot (c : Nat) (x : Ctx) : (s.setCtx c x).fSlot = s.fSlot := rfl
@[simp] theorem setCtx_fQueue (c : Nat) (x : Ctx) : (s.setCtx c x).fQueue = s.fQueue := rfl
@[simp] theorem setCtx_fLen (c : Nat) (x : Ctx) : (s.setCtx c x).fLen = s.fLen := rfl
@[simp] theorem setCtx_fWord (c : Nat) (x : Ctx) : (s.setCtx c x).fWord = s.fWord := rfl
@[simp] theorem setCtx_stopped (c : Nat) (x : Ctx) : (s.setCtx c x).stopped = s.stopped := rfl

/-! ### State.updCtx -/
@[simp] theorem updCtx_now (c : Nat) (f : Ctx → Ctx) : (s.updCtx c f).now = s.now := rfl
@[simp] theorem updCtx_mem (c : Nat) (f : Ctx → Ctx) : (s.updCtx c f).mem = s.mem := rfl
@[simp] theorem updCtx_poison (c : Nat) (f : Ctx → Ctx) : (s.updCtx c f).poison = s.poison := rfl
@[simp] theorem updCtx_tasks (c : Nat) (f : Ctx → Ctx) : (s.updCtx c f).tasks = s.tasks := rfl
@[simp] theorem updCtx_net (c : Nat) (f : Ctx → Ctx) : (s.updCtx c f).net = s.net := rfl
@[simp] theorem updCtx_groups (c : Nat) (f : Ctx → Ctx) : (s.updCtx c f).groups = s.groups := rfl
@[simp] theorem updCtx_kernels (c : Nat) (f : Ctx → Ctx) : (s.updCtx c f).kernels = s.kernels := rfl
@[simp] theorem updCtx_insts (c : Nat) (f : Ctx → Ctx) : (s.updCtx c f).insts = s.insts := rfl
@[simp] theorem updCtx_queues (c : Nat) (f : Ctx → Ctx) : (s.updCtx c f).queues = s.queues := rfl
@[simp] theorem updCtx_cores (c : Nat) (f : Ctx → Ctx) : (s.updCtx c f).cores = s.cores := rfl
@[simp] theorem updCtx_mg (c : Nat) (f : Ctx → Ctx) : (s.updCtx c f).mg = s.mg := rfl
@[simp] theorem updCtx_pg (c : Nat) (f : Ctx → Ctx) : (s.updCtx c f).pg = s.pg := rfl
@[simp] theorem updCtx_lk (c : Nat) (f : Ctx → Ctx) : (s.updCtx c f).lk = s.lk := rfl
@[simp] theorem updCtx_dies (c : Nat) (f : Ctx → Ctx) : (s.updCtx c f).dies = s.dies := rfl
@[simp] theorem updCtx_pw (c : Nat) (f : Ctx → Ctx) : (s.updCtx c f).pw = s.pw := rfl
@[simp] theorem updCtx_bt (c : Nat) (f : Ctx → Ctx) : (s.updCtx c f).bt = s.bt := rfl
@[simp] theorem updCtx_flash (c : Nat) (f : Ctx → Ctx) : (s.updCtx c f).flash = s.flash := rfl
@[simp] theorem updCtx_ids (c : Nat) (f : Ctx → Ctx) : (s.updCtx c f).ids = s.ids := rfl
@[simp] theorem updCtx_msix (c : Nat) (f : Ctx → Ctx) : (s.updCtx c f).msix = s.msix := rfl
@[simp] theorem updCtx_podOut (c : Nat) (f : Ctx → Ctx) : (s.updCtx c f).podOut = s.podOut := rfl
@[simp] theorem updCtx_msixHeld (c : Nat) (f : Ctx → Ctx) : (s.updCtx c f).msixHeld = s.msixHeld := rfl
@[simp] theorem updCtx_podTx (c : Nat) (f : Ctx → Ctx) : (s.updCtx c f).podTx = s.podTx := rfl
@[simp] theorem updCtx_pageTx (c : Nat) (f : Ctx → Ctx) : (s.updCtx c f).pageTx = s.pageTx := rfl
@[simp] theorem updCtx_pageWait (c : Nat) (f : Ctx → Ctx) : (s.updCtx c f).pageWait = s.pageWait := rfl
@[simp] theorem updCtx_pkts (c : Nat) (f : Ctx → Ctx) : (s.updCtx c f).pkts = s.pkts := rfl
@[simp] theorem updCtx_podHeld (c : Nat) (f : Ctx → Ctx) : (s.updCtx c f).podHeld = s.podHeld := rfl
@[simp] theorem updCtx_spdm (c : Nat) (f : Ctx → Ctx) : (s.updCtx c f).spdm = s.spdm := rfl
@[simp] theorem updCtx_hostReads (c : Nat) (f : Ctx → Ctx) : (s.updCtx c f).hostReads = s.hostReads := rfl
@[simp] theorem updCtx_turns (c : Nat) (f : Ctx → Ctx) : (s.updCtx c f).turns = s.turns := rfl
@[simp] theorem updCtx_free (c : Nat) (f : Ctx → Ctx) : (s.updCtx c f).free = s.free := rfl
@[simp] theorem updCtx_fTask (c : Nat) (f : Ctx → Ctx) : (s.updCtx c f).fTask = s.fTask := rfl
@[simp] theorem updCtx_fSlot (c : Nat) (f : Ctx → Ctx) : (s.updCtx c f).fSlot = s.fSlot := rfl
@[simp] theorem updCtx_fQueue (c : Nat) (f : Ctx → Ctx) : (s.updCtx c f).fQueue = s.fQueue := rfl
@[simp] theorem updCtx_fLen (c : Nat) (f : Ctx → Ctx) : (s.updCtx c f).fLen = s.fLen := rfl
@[simp] theorem updCtx_fWord (c : Nat) (f : Ctx → Ctx) : (s.updCtx c f).fWord = s.fWord := rfl
@[simp] theorem updCtx_stopped (c : Nat) (f : Ctx → Ctx) : (s.updCtx c f).stopped = s.stopped := rfl

/-! ### State.setLink -/
@[simp] theorem setLink_now (n : Nat) (l : Link) : (s.setLink n l).now = s.now := rfl
@[simp] theorem setLink_mem (n : Nat) (l : Link) : (s.setLink n l).mem = s.mem := rfl
@[simp] theorem setLink_poison (n : Nat) (l : Link) : (s.setLink n l).poison = s.poison := rfl
@[simp] theorem setLink_tasks (n : Nat) (l : Link) : (s.setLink n l).tasks = s.tasks := rfl
@[simp] theorem setLink_net (n : Nat) (l : Link) : (s.setLink n l).net = s.net := rfl
@[simp] theorem setLink_groups (n : Nat) (l : Link) : (s.setLink n l).groups = s.groups := rfl
@[simp] theorem setLink_kernels (n : Nat) (l : Link) : (s.setLink n l).kernels = s.kernels := rfl
@[simp] theorem setLink_insts (n : Nat) (l : Link) : (s.setLink n l).insts = s.insts := rfl
@[simp] theorem setLink_ctxs (n : Nat) (l : Link) : (s.setLink n l).ctxs = s.ctxs := rfl
@[simp] theorem setLink_queues (n : Nat) (l : Link) : (s.setLink n l).queues = s.queues := rfl
@[simp] theorem setLink_cores (n : Nat) (l : Link) : (s.setLink n l).cores = s.cores := rfl
@[simp] theorem setLink_mg (n : Nat) (l : Link) : (s.setLink n l).mg = s.mg := rfl
@[simp] theorem setLink_pg (n : Nat) (l : Link) : (s.setLink n l).pg = s.pg := rfl
@[simp] theorem setLink_dies (n : Nat) (l : Link) : (s.setLink n l).dies = s.dies := rfl
@[simp] theorem setLink_pw (n : Nat) (l : Link) : (s.setLink n l).pw = s.pw := rfl
@[simp] theorem setLink_bt (n : Nat) (l : Link) : (s.setLink n l).bt = s.bt := rfl
@[simp] theorem setLink_flash (n : Nat) (l : Link) : (s.setLink n l).flash = s.flash := rfl
@[simp] theorem setLink_ids (n : Nat) (l : Link) : (s.setLink n l).ids = s.ids := rfl
@[simp] theorem setLink_msix (n : Nat) (l : Link) : (s.setLink n l).msix = s.msix := rfl
@[simp] theorem setLink_podOut (n : Nat) (l : Link) : (s.setLink n l).podOut = s.podOut := rfl
@[simp] theorem setLink_msixHeld (n : Nat) (l : Link) : (s.setLink n l).msixHeld = s.msixHeld := rfl
@[simp] theorem setLink_podTx (n : Nat) (l : Link) : (s.setLink n l).podTx = s.podTx := rfl
@[simp] theorem setLink_pageTx (n : Nat) (l : Link) : (s.setLink n l).pageTx = s.pageTx := rfl
@[simp] theorem setLink_pageWait (n : Nat) (l : Link) : (s.setLink n l).pageWait = s.pageWait := rfl
@[simp] theorem setLink_pkts (n : Nat) (l : Link) : (s.setLink n l).pkts = s.pkts := rfl
@[simp] theorem setLink_podHeld (n : Nat) (l : Link) : (s.setLink n l).podHeld = s.podHeld := rfl
@[simp] theorem setLink_spdm (n : Nat) (l : Link) : (s.setLink n l).spdm = s.spdm := rfl
@[simp] theorem setLink_hostReads (n : Nat) (l : Link) : (s.setLink n l).hostReads = s.hostReads := rfl
@[simp] theorem setLink_turns (n : Nat) (l : Link) : (s.setLink n l).turns = s.turns := rfl
@[simp] theorem setLink_free (n : Nat) (l : Link) : (s.setLink n l).free = s.free := rfl
@[simp] theorem setLink_fTask (n : Nat) (l : Link) : (s.setLink n l).fTask = s.fTask := rfl
@[simp] theorem setLink_fSlot (n : Nat) (l : Link) : (s.setLink n l).fSlot = s.fSlot := rfl
@[simp] theorem setLink_fQueue (n : Nat) (l : Link) : (s.setLink n l).fQueue = s.fQueue := rfl
@[simp] theorem setLink_fLen (n : Nat) (l : Link) : (s.setLink n l).fLen = s.fLen := rfl
@[simp] theorem setLink_fWord (n : Nat) (l : Link) : (s.setLink n l).fWord = s.fWord := rfl
@[simp] theorem setLink_stopped (n : Nat) (l : Link) : (s.setLink n l).stopped = s.stopped := rfl

/-! ### State.updLink -/
@[simp] theorem updLink_now (n : Nat) (f : Link → Link) : (s.updLink n f).now = s.now := rfl
@[simp] theorem updLink_mem (n : Nat) (f : Link → Link) : (s.updLink n f).mem = s.mem := rfl
@[simp] theorem updLink_poison (n : Nat) (f : Link → Link) : (s.updLink n f).poison = s.poison := rfl
@[simp] theorem updLink_tasks (n : Nat) (f : Link → Link) : (s.updLink n f).tasks = s.tasks := rfl
@[simp] theorem updLink_net (n : Nat) (f : Link → Link) : (s.updLink n f).net = s.net := rfl
@[simp] theorem updLink_groups (n : Nat) (f : Link → Link) : (s.updLink n f).groups = s.groups := rfl
@[simp] theorem updLink_kernels (n : Nat) (f : Link → Link) : (s.updLink n f).kernels = s.kernels := rfl
@[simp] theorem updLink_insts (n : Nat) (f : Link → Link) : (s.updLink n f).insts = s.insts := rfl
@[simp] theorem updLink_ctxs (n : Nat) (f : Link → Link) : (s.updLink n f).ctxs = s.ctxs := rfl
@[simp] theorem updLink_queues (n : Nat) (f : Link → Link) : (s.updLink n f).queues = s.queues := rfl
@[simp] theorem updLink_cores (n : Nat) (f : Link → Link) : (s.updLink n f).cores = s.cores := rfl
@[simp] theorem updLink_mg (n : Nat) (f : Link → Link) : (s.updLink n f).mg = s.mg := rfl
@[simp] theorem updLink_pg (n : Nat) (f : Link → Link) : (s.updLink n f).pg = s.pg := rfl
@[simp] theorem updLink_dies (n : Nat) (f : Link → Link) : (s.updLink n f).dies = s.dies := rfl
@[simp] theorem updLink_pw (n : Nat) (f : Link → Link) : (s.updLink n f).pw = s.pw := rfl
@[simp] theorem updLink_bt (n : Nat) (f : Link → Link) : (s.updLink n f).bt = s.bt := rfl
@[simp] theorem updLink_flash (n : Nat) (f : Link → Link) : (s.updLink n f).flash = s.flash := rfl
@[simp] theorem updLink_ids (n : Nat) (f : Link → Link) : (s.updLink n f).ids = s.ids := rfl
@[simp] theorem updLink_msix (n : Nat) (f : Link → Link) : (s.updLink n f).msix = s.msix := rfl
@[simp] theorem updLink_podOut (n : Nat) (f : Link → Link) : (s.updLink n f).podOut = s.podOut := rfl
@[simp] theorem updLink_msixHeld (n : Nat) (f : Link → Link) : (s.updLink n f).msixHeld = s.msixHeld := rfl
@[simp] theorem updLink_podTx (n : Nat) (f : Link → Link) : (s.updLink n f).podTx = s.podTx := rfl
@[simp] theorem updLink_pageTx (n : Nat) (f : Link → Link) : (s.updLink n f).pageTx = s.pageTx := rfl
@[simp] theorem updLink_pageWait (n : Nat) (f : Link → Link) : (s.updLink n f).pageWait = s.pageWait := rfl
@[simp] theorem updLink_pkts (n : Nat) (f : Link → Link) : (s.updLink n f).pkts = s.pkts := rfl
@[simp] theorem updLink_podHeld (n : Nat) (f : Link → Link) : (s.updLink n f).podHeld = s.podHeld := rfl
@[simp] theorem updLink_spdm (n : Nat) (f : Link → Link) : (s.updLink n f).spdm = s.spdm := rfl
@[simp] theorem updLink_hostReads (n : Nat) (f : Link → Link) : (s.updLink n f).hostReads = s.hostReads := rfl
@[simp] theorem updLink_turns (n : Nat) (f : Link → Link) : (s.updLink n f).turns = s.turns := rfl
@[simp] theorem updLink_free (n : Nat) (f : Link → Link) : (s.updLink n f).free = s.free := rfl
@[simp] theorem updLink_fTask (n : Nat) (f : Link → Link) : (s.updLink n f).fTask = s.fTask := rfl
@[simp] theorem updLink_fSlot (n : Nat) (f : Link → Link) : (s.updLink n f).fSlot = s.fSlot := rfl
@[simp] theorem updLink_fQueue (n : Nat) (f : Link → Link) : (s.updLink n f).fQueue = s.fQueue := rfl
@[simp] theorem updLink_fLen (n : Nat) (f : Link → Link) : (s.updLink n f).fLen = s.fLen := rfl
@[simp] theorem updLink_fWord (n : Nat) (f : Link → Link) : (s.updLink n f).fWord = s.fWord := rfl
@[simp] theorem updLink_stopped (n : Nat) (f : Link → Link) : (s.updLink n f).stopped = s.stopped := rfl

/-! ### State.updGroup -/
@[simp] theorem updGroup_now (g : Nat) (f : Group → Group) : (s.updGroup g f).now = s.now := rfl
@[simp] theorem updGroup_mem (g : Nat) (f : Group → Group) : (s.updGroup g f).mem = s.mem := rfl
@[simp] theorem updGroup_poison (g : Nat) (f : Group → Group) : (s.updGroup g f).poison = s.poison := rfl
@[simp] theorem updGroup_tasks (g : Nat) (f : Group → Group) : (s.updGroup g f).tasks = s.tasks := rfl
@[simp] theorem updGroup_net (g : Nat) (f : Group → Group) : (s.updGroup g f).net = s.net := rfl
@[simp] theorem updGroup_kernels (g : Nat) (f : Group → Group) : (s.updGroup g f).kernels = s.kernels := rfl
@[simp] theorem updGroup_insts (g : Nat) (f : Group → Group) : (s.updGroup g f).insts = s.insts := rfl
@[simp] theorem updGroup_ctxs (g : Nat) (f : Group → Group) : (s.updGroup g f).ctxs = s.ctxs := rfl
@[simp] theorem updGroup_queues (g : Nat) (f : Group → Group) : (s.updGroup g f).queues = s.queues := rfl
@[simp] theorem updGroup_cores (g : Nat) (f : Group → Group) : (s.updGroup g f).cores = s.cores := rfl
@[simp] theorem updGroup_mg (g : Nat) (f : Group → Group) : (s.updGroup g f).mg = s.mg := rfl
@[simp] theorem updGroup_pg (g : Nat) (f : Group → Group) : (s.updGroup g f).pg = s.pg := rfl
@[simp] theorem updGroup_lk (g : Nat) (f : Group → Group) : (s.updGroup g f).lk = s.lk := rfl
@[simp] theorem updGroup_dies (g : Nat) (f : Group → Group) : (s.updGroup g f).dies = s.dies := rfl
@[simp] theorem updGroup_pw (g : Nat) (f : Group → Group) : (s.updGroup g f).pw = s.pw := rfl
@[simp] theorem updGroup_bt (g : Nat) (f : Group → Group) : (s.updGroup g f).bt = s.bt := rfl
@[simp] theorem updGroup_flash (g : Nat) (f : Group → Group) : (s.updGroup g f).flash = s.flash := rfl
@[simp] theorem updGroup_ids (g : Nat) (f : Group → Group) : (s.updGroup g f).ids = s.ids := rfl
@[simp] theorem updGroup_msix (g : Nat) (f : Group → Group) : (s.updGroup g f).msix = s.msix := rfl
@[simp] theorem updGroup_podOut (g : Nat) (f : Group → Group) : (s.updGroup g f).podOut = s.podOut := rfl
@[simp] theorem updGroup_msixHeld (g : Nat) (f : Group → Group) : (s.updGroup g f).msixHeld = s.msixHeld := rfl
@[simp] theorem updGroup_podTx (g : Nat) (f : Group → Group) : (s.updGroup g f).podTx = s.podTx := rfl
@[simp] theorem updGroup_pageTx (g : Nat) (f : Group → Group) : (s.updGroup g f).pageTx = s.pageTx := rfl
@[simp] theorem updGroup_pageWait (g : Nat) (f : Group → Group) : (s.updGroup g f).pageWait = s.pageWait := rfl
@[simp] theorem updGroup_pkts (g : Nat) (f : Group → Group) : (s.updGroup g f).pkts = s.pkts := rfl
@[simp] theorem updGroup_podHeld (g : Nat) (f : Group → Group) : (s.updGroup g f).podHeld = s.podHeld := rfl
@[simp] theorem updGroup_spdm (g : Nat) (f : Group → Group) : (s.updGroup g f).spdm = s.spdm := rfl
@[simp] theorem updGroup_hostReads (g : Nat) (f : Group → Group) : (s.updGroup g f).hostReads = s.hostReads := rfl
@[simp] theorem updGroup_turns (g : Nat) (f : Group → Group) : (s.updGroup g f).turns = s.turns := rfl
@[simp] theorem updGroup_free (g : Nat) (f : Group → Group) : (s.updGroup g f).free = s.free := rfl
@[simp] theorem updGroup_fTask (g : Nat) (f : Group → Group) : (s.updGroup g f).fTask = s.fTask := rfl
@[simp] theorem updGroup_fSlot (g : Nat) (f : Group → Group) : (s.updGroup g f).fSlot = s.fSlot := rfl
@[simp] theorem updGroup_fQueue (g : Nat) (f : Group → Group) : (s.updGroup g f).fQueue = s.fQueue := rfl
@[simp] theorem updGroup_fLen (g : Nat) (f : Group → Group) : (s.updGroup g f).fLen = s.fLen := rfl
@[simp] theorem updGroup_fWord (g : Nat) (f : Group → Group) : (s.updGroup g f).fWord = s.fWord := rfl
@[simp] theorem updGroup_stopped (g : Nat) (f : Group → Group) : (s.updGroup g f).stopped = s.stopped := rfl

/-! ### State.updKernel -/
@[simp] theorem updKernel_now (k : Nat) (f : Kernel → Kernel) : (s.updKernel k f).now = s.now := rfl
@[simp] theorem updKernel_mem (k : Nat) (f : Kernel → Kernel) : (s.updKernel k f).mem = s.mem := rfl
@[simp] theorem updKernel_poison (k : Nat) (f : Kernel → Kernel) : (s.updKernel k f).poison = s.poison := rfl
@[simp] theorem updKernel_tasks (k : Nat) (f : Kernel → Kernel) : (s.updKernel k f).tasks = s.tasks := rfl
@[simp] theorem updKernel_net (k : Nat) (f : Kernel → Kernel) : (s.updKernel k f).net = s.net := rfl
@[simp] theorem updKernel_groups (k : Nat) (f : Kernel → Kernel) : (s.updKernel k f).groups = s.groups := rfl
@[simp] theorem updKernel_insts (k : Nat) (f : Kernel → Kernel) : (s.updKernel k f).insts = s.insts := rfl
@[simp] theorem updKernel_ctxs (k : Nat) (f : Kernel → Kernel) : (s.updKernel k f).ctxs = s.ctxs := rfl
@[simp] theorem updKernel_queues (k : Nat) (f : Kernel → Kernel) : (s.updKernel k f).queues = s.queues := rfl
@[simp] theorem updKernel_cores (k : Nat) (f : Kernel → Kernel) : (s.updKernel k f).cores = s.cores := rfl
@[simp] theorem updKernel_mg (k : Nat) (f : Kernel → Kernel) : (s.updKernel k f).mg = s.mg := rfl
@[simp] theorem updKernel_pg (k : Nat) (f : Kernel → Kernel) : (s.updKernel k f).pg = s.pg := rfl
@[simp] theorem updKernel_lk (k : Nat) (f : Kernel → Kernel) : (s.updKernel k f).lk = s.lk := rfl
@[simp] theorem updKernel_dies (k : Nat) (f : Kernel → Kernel) : (s.updKernel k f).dies = s.dies := rfl
@[simp] theorem updKernel_pw (k : Nat) (f : Kernel → Kernel) : (s.updKernel k f).pw = s.pw := rfl
@[simp] theorem updKernel_bt (k : Nat) (f : Kernel → Kernel) : (s.updKernel k f).bt = s.bt := rfl
@[simp] theorem updKernel_flash (k : Nat) (f : Kernel → Kernel) : (s.updKernel k f).flash = s.flash := rfl
@[simp] theorem updKernel_ids (k : Nat) (f : Kernel → Kernel) : (s.updKernel k f).ids = s.ids := rfl
@[simp] theorem updKernel_msix (k : Nat) (f : Kernel → Kernel) : (s.updKernel k f).msix = s.msix := rfl
@[simp] theorem updKernel_podOut (k : Nat) (f : Kernel → Kernel) : (s.updKernel k f).podOut = s.podOut := rfl
@[simp] theorem updKernel_msixHeld (k : Nat) (f : Kernel → Kernel) : (s.updKernel k f).msixHeld = s.msixHeld := rfl
@[simp] theorem updKernel_podTx (k : Nat) (f : Kernel → Kernel) : (s.updKernel k f).podTx = s.podTx := rfl
@[simp] theorem updKernel_pageTx (k : Nat) (f : Kernel → Kernel) : (s.updKernel k f).pageTx = s.pageTx := rfl
@[simp] theorem updKernel_pageWait (k : Nat) (f : Kernel → Kernel) : (s.updKernel k f).pageWait = s.pageWait := rfl
@[simp] theorem updKernel_pkts (k : Nat) (f : Kernel → Kernel) : (s.updKernel k f).pkts = s.pkts := rfl
@[simp] theorem updKernel_podHeld (k : Nat) (f : Kernel → Kernel) : (s.updKernel k f).podHeld = s.podHeld := rfl
@[simp] theorem updKernel_spdm (k : Nat) (f : Kernel → Kernel) : (s.updKernel k f).spdm = s.spdm := rfl
@[simp] theorem updKernel_hostReads (k : Nat) (f : Kernel → Kernel) : (s.updKernel k f).hostReads = s.hostReads := rfl
@[simp] theorem updKernel_turns (k : Nat) (f : Kernel → Kernel) : (s.updKernel k f).turns = s.turns := rfl
@[simp] theorem updKernel_free (k : Nat) (f : Kernel → Kernel) : (s.updKernel k f).free = s.free := rfl
@[simp] theorem updKernel_fTask (k : Nat) (f : Kernel → Kernel) : (s.updKernel k f).fTask = s.fTask := rfl
@[simp] theorem updKernel_fSlot (k : Nat) (f : Kernel → Kernel) : (s.updKernel k f).fSlot = s.fSlot := rfl
@[simp] theorem updKernel_fQueue (k : Nat) (f : Kernel → Kernel) : (s.updKernel k f).fQueue = s.fQueue := rfl
@[simp] theorem updKernel_fLen (k : Nat) (f : Kernel → Kernel) : (s.updKernel k f).fLen = s.fLen := rfl
@[simp] theorem updKernel_fWord (k : Nat) (f : Kernel → Kernel) : (s.updKernel k f).fWord = s.fWord := rfl
@[simp] theorem updKernel_stopped (k : Nat) (f : Kernel → Kernel) : (s.updKernel k f).stopped = s.stopped := rfl

/-! ### State.updInst -/
@[simp] theorem updInst_now (k : Nat) (f : Inst → Inst) : (s.updInst k f).now = s.now := rfl
@[simp] theorem updInst_mem (k : Nat) (f : Inst → Inst) : (s.updInst k f).mem = s.mem := rfl
@[simp] theorem updInst_poison (k : Nat) (f : Inst → Inst) : (s.updInst k f).poison = s.poison := rfl
@[simp] theorem updInst_tasks (k : Nat) (f : Inst → Inst) : (s.updInst k f).tasks = s.tasks := rfl
@[simp] theorem updInst_net (k : Nat) (f : Inst → Inst) : (s.updInst k f).net = s.net := rfl
@[simp] theorem updInst_groups (k : Nat) (f : Inst → Inst) : (s.updInst k f).groups = s.groups := rfl
@[simp] theorem updInst_kernels (k : Nat) (f : Inst → Inst) : (s.updInst k f).kernels = s.kernels := rfl
@[simp] theorem updInst_ctxs (k : Nat) (f : Inst → Inst) : (s.updInst k f).ctxs = s.ctxs := rfl
@[simp] theorem updInst_queues (k : Nat) (f : Inst → Inst) : (s.updInst k f).queues = s.queues := rfl
@[simp] theorem updInst_cores (k : Nat) (f : Inst → Inst) : (s.updInst k f).cores = s.cores := rfl
@[simp] theorem updInst_mg (k : Nat) (f : Inst → Inst) : (s.updInst k f).mg = s.mg := rfl
@[simp] theorem updInst_pg (k : Nat) (f : Inst → Inst) : (s.updInst k f).pg = s.pg := rfl
@[simp] theorem updInst_lk (k : Nat) (f : Inst → Inst) : (s.updInst k f).lk = s.lk := rfl
@[simp] theorem updInst_dies (k : Nat) (f : Inst → Inst) : (s.updInst k f).dies = s.dies := rfl
@[simp] theorem updInst_pw (k : Nat) (f : Inst → Inst) : (s.updInst k f).pw = s.pw := rfl
@[simp] theorem updInst_bt (k : Nat) (f : Inst → Inst) : (s.updInst k f).bt = s.bt := rfl
@[simp] theorem updInst_flash (k : Nat) (f : Inst → Inst) : (s.updInst k f).flash = s.flash := rfl
@[simp] theorem updInst_ids (k : Nat) (f : Inst → Inst) : (s.updInst k f).ids = s.ids := rfl
@[simp] theorem updInst_msix (k : Nat) (f : Inst → Inst) : (s.updInst k f).msix = s.msix := rfl
@[simp] theorem updInst_podOut (k : Nat) (f : Inst → Inst) : (s.updInst k f).podOut = s.podOut := rfl
@[simp] theorem updInst_msixHeld (k : Nat) (f : Inst → Inst) : (s.updInst k f).msixHeld = s.msixHeld := rfl
@[simp] theorem updInst_podTx (k : Nat) (f : Inst → Inst) : (s.updInst k f).podTx = s.podTx := rfl
@[simp] theorem updInst_pageTx (k : Nat) (f : Inst → Inst) : (s.updInst k f).pageTx = s.pageTx := rfl
@[simp] theorem updInst_pageWait (k : Nat) (f : Inst → Inst) : (s.updInst k f).pageWait = s.pageWait := rfl
@[simp] theorem updInst_pkts (k : Nat) (f : Inst → Inst) : (s.updInst k f).pkts = s.pkts := rfl
@[simp] theorem updInst_podHeld (k : Nat) (f : Inst → Inst) : (s.updInst k f).podHeld = s.podHeld := rfl
@[simp] theorem updInst_spdm (k : Nat) (f : Inst → Inst) : (s.updInst k f).spdm = s.spdm := rfl
@[simp] theorem updInst_hostReads (k : Nat) (f : Inst → Inst) : (s.updInst k f).hostReads = s.hostReads := rfl
@[simp] theorem updInst_turns (k : Nat) (f : Inst → Inst) : (s.updInst k f).turns = s.turns := rfl
@[simp] theorem updInst_free (k : Nat) (f : Inst → Inst) : (s.updInst k f).free = s.free := rfl
@[simp] theorem updInst_fTask (k : Nat) (f : Inst → Inst) : (s.updInst k f).fTask = s.fTask := rfl
@[simp] theorem updInst_fSlot (k : Nat) (f : Inst → Inst) : (s.updInst k f).fSlot = s.fSlot := rfl
@[simp] theorem updInst_fQueue (k : Nat) (f : Inst → Inst) : (s.updInst k f).fQueue = s.fQueue := rfl
@[simp] theorem updInst_fLen (k : Nat) (f : Inst → Inst) : (s.updInst k f).fLen = s.fLen := rfl
@[simp] theorem updInst_fWord (k : Nat) (f : Inst → Inst) : (s.updInst k f).fWord = s.fWord := rfl
@[simp] theorem updInst_stopped (k : Nat) (f : Inst → Inst) : (s.updInst k f).stopped = s.stopped := rfl

/-! ### State.setEntry -/
@[simp] theorem setEntry_now (c : Coord) (e : CtEntry) : (s.setEntry c e).now = s.now := rfl
@[simp] theorem setEntry_mem (c : Coord) (e : CtEntry) : (s.setEntry c e).mem = s.mem := rfl
@[simp] theorem setEntry_poison (c : Coord) (e : CtEntry) : (s.setEntry c e).poison = s.poison := rfl
@[simp] theorem setEntry_tasks (c : Coord) (e : CtEntry) : (s.setEntry c e).tasks = s.tasks := rfl
@[simp] theorem setEntry_net (c : Coord) (e : CtEntry) : (s.setEntry c e).net = s.net := rfl
@[simp] theorem setEntry_groups (c : Coord) (e : CtEntry) : (s.setEntry c e).groups = s.groups := rfl
@[simp] theorem setEntry_kernels (c : Coord) (e : CtEntry) : (s.setEntry c e).kernels = s.kernels := rfl
@[simp] theorem setEntry_insts (c : Coord) (e : CtEntry) : (s.setEntry c e).insts = s.insts := rfl
@[simp] theorem setEntry_ctxs (c : Coord) (e : CtEntry) : (s.setEntry c e).ctxs = s.ctxs := rfl
@[simp] theorem setEntry_queues (c : Coord) (e : CtEntry) : (s.setEntry c e).queues = s.queues := rfl
@[simp] theorem setEntry_mg (c : Coord) (e : CtEntry) : (s.setEntry c e).mg = s.mg := rfl
@[simp] theorem setEntry_pg (c : Coord) (e : CtEntry) : (s.setEntry c e).pg = s.pg := rfl
@[simp] theorem setEntry_lk (c : Coord) (e : CtEntry) : (s.setEntry c e).lk = s.lk := rfl
@[simp] theorem setEntry_dies (c : Coord) (e : CtEntry) : (s.setEntry c e).dies = s.dies := rfl
@[simp] theorem setEntry_pw (c : Coord) (e : CtEntry) : (s.setEntry c e).pw = s.pw := rfl
@[simp] theorem setEntry_bt (c : Coord) (e : CtEntry) : (s.setEntry c e).bt = s.bt := rfl
@[simp] theorem setEntry_flash (c : Coord) (e : CtEntry) : (s.setEntry c e).flash = s.flash := rfl
@[simp] theorem setEntry_ids (c : Coord) (e : CtEntry) : (s.setEntry c e).ids = s.ids := rfl
@[simp] theorem setEntry_msix (c : Coord) (e : CtEntry) : (s.setEntry c e).msix = s.msix := rfl
@[simp] theorem setEntry_podOut (c : Coord) (e : CtEntry) : (s.setEntry c e).podOut = s.podOut := rfl
@[simp] theorem setEntry_msixHeld (c : Coord) (e : CtEntry) : (s.setEntry c e).msixHeld = s.msixHeld := rfl
@[simp] theorem setEntry_podTx (c : Coord) (e : CtEntry) : (s.setEntry c e).podTx = s.podTx := rfl
@[simp] theorem setEntry_pageTx (c : Coord) (e : CtEntry) : (s.setEntry c e).pageTx = s.pageTx := rfl
@[simp] theorem setEntry_pageWait (c : Coord) (e : CtEntry) : (s.setEntry c e).pageWait = s.pageWait := rfl
@[simp] theorem setEntry_pkts (c : Coord) (e : CtEntry) : (s.setEntry c e).pkts = s.pkts := rfl
@[simp] theorem setEntry_podHeld (c : Coord) (e : CtEntry) : (s.setEntry c e).podHeld = s.podHeld := rfl
@[simp] theorem setEntry_spdm (c : Coord) (e : CtEntry) : (s.setEntry c e).spdm = s.spdm := rfl
@[simp] theorem setEntry_hostReads (c : Coord) (e : CtEntry) : (s.setEntry c e).hostReads = s.hostReads := rfl
@[simp] theorem setEntry_turns (c : Coord) (e : CtEntry) : (s.setEntry c e).turns = s.turns := rfl
@[simp] theorem setEntry_free (c : Coord) (e : CtEntry) : (s.setEntry c e).free = s.free := rfl
@[simp] theorem setEntry_fTask (c : Coord) (e : CtEntry) : (s.setEntry c e).fTask = s.fTask := rfl
@[simp] theorem setEntry_fSlot (c : Coord) (e : CtEntry) : (s.setEntry c e).fSlot = s.fSlot := rfl
@[simp] theorem setEntry_fQueue (c : Coord) (e : CtEntry) : (s.setEntry c e).fQueue = s.fQueue := rfl
@[simp] theorem setEntry_fLen (c : Coord) (e : CtEntry) : (s.setEntry c e).fLen = s.fLen := rfl
@[simp] theorem setEntry_fWord (c : Coord) (e : CtEntry) : (s.setEntry c e).fWord = s.fWord := rfl
@[simp] theorem setEntry_stopped (c : Coord) (e : CtEntry) : (s.setEntry c e).stopped = s.stopped := rfl

/-! ### State.setPoison -/
@[simp] theorem setPoison_now (k : Nat) (p : Poison) : (s.setPoison k p).now = s.now := rfl
@[simp] theorem setPoison_mem (k : Nat) (p : Poison) : (s.setPoison k p).mem = s.mem := rfl
@[simp] theorem setPoison_tasks (k : Nat) (p : Poison) : (s.setPoison k p).tasks = s.tasks := rfl
@[simp] theorem setPoison_net (k : Nat) (p : Poison) : (s.setPoison k p).net = s.net := rfl
@[simp] theorem setPoison_groups (k : Nat) (p : Poison) : (s.setPoison k p).groups = s.groups := rfl
@[simp] theorem setPoison_kernels (k : Nat) (p : Poison) : (s.setPoison k p).kernels = s.kernels := rfl
@[simp] theorem setPoison_insts (k : Nat) (p : Poison) : (s.setPoison k p).insts = s.insts := rfl
@[simp] theorem setPoison_ctxs (k : Nat) (p : Poison) : (s.setPoison k p).ctxs = s.ctxs := rfl
@[simp] theorem setPoison_queues (k : Nat) (p : Poison) : (s.setPoison k p).queues = s.queues := rfl
@[simp] theorem setPoison_cores (k : Nat) (p : Poison) : (s.setPoison k p).cores = s.cores := rfl
@[simp] theorem setPoison_mg (k : Nat) (p : Poison) : (s.setPoison k p).mg = s.mg := rfl
@[simp] theorem setPoison_pg (k : Nat) (p : Poison) : (s.setPoison k p).pg = s.pg := rfl
@[simp] theorem setPoison_lk (k : Nat) (p : Poison) : (s.setPoison k p).lk = s.lk := rfl
@[simp] theorem setPoison_dies (k : Nat) (p : Poison) : (s.setPoison k p).dies = s.dies := rfl
@[simp] theorem setPoison_pw (k : Nat) (p : Poison) : (s.setPoison k p).pw = s.pw := rfl
@[simp] theorem setPoison_bt (k : Nat) (p : Poison) : (s.setPoison k p).bt = s.bt := rfl
@[simp] theorem setPoison_flash (k : Nat) (p : Poison) : (s.setPoison k p).flash = s.flash := rfl
@[simp] theorem setPoison_ids (k : Nat) (p : Poison) : (s.setPoison k p).ids = s.ids := rfl
@[simp] theorem setPoison_msix (k : Nat) (p : Poison) : (s.setPoison k p).msix = s.msix := rfl
@[simp] theorem setPoison_podOut (k : Nat) (p : Poison) : (s.setPoison k p).podOut = s.podOut := rfl
@[simp] theorem setPoison_msixHeld (k : Nat) (p : Poison) : (s.setPoison k p).msixHeld = s.msixHeld := rfl
@[simp] theorem setPoison_podTx (k : Nat) (p : Poison) : (s.setPoison k p).podTx = s.podTx := rfl
@[simp] theorem setPoison_pageTx (k : Nat) (p : Poison) : (s.setPoison k p).pageTx = s.pageTx := rfl
@[simp] theorem setPoison_pageWait (k : Nat) (p : Poison) : (s.setPoison k p).pageWait = s.pageWait := rfl
@[simp] theorem setPoison_pkts (k : Nat) (p : Poison) : (s.setPoison k p).pkts = s.pkts := rfl
@[simp] theorem setPoison_podHeld (k : Nat) (p : Poison) : (s.setPoison k p).podHeld = s.podHeld := rfl
@[simp] theorem setPoison_spdm (k : Nat) (p : Poison) : (s.setPoison k p).spdm = s.spdm := rfl
@[simp] theorem setPoison_hostReads (k : Nat) (p : Poison) : (s.setPoison k p).hostReads = s.hostReads := rfl
@[simp] theorem setPoison_turns (k : Nat) (p : Poison) : (s.setPoison k p).turns = s.turns := rfl
@[simp] theorem setPoison_free (k : Nat) (p : Poison) : (s.setPoison k p).free = s.free := rfl
@[simp] theorem setPoison_fTask (k : Nat) (p : Poison) : (s.setPoison k p).fTask = s.fTask := rfl
@[simp] theorem setPoison_fSlot (k : Nat) (p : Poison) : (s.setPoison k p).fSlot = s.fSlot := rfl
@[simp] theorem setPoison_fQueue (k : Nat) (p : Poison) : (s.setPoison k p).fQueue = s.fQueue := rfl
@[simp] theorem setPoison_fLen (k : Nat) (p : Poison) : (s.setPoison k p).fLen = s.fLen := rfl
@[simp] theorem setPoison_fWord (k : Nat) (p : Poison) : (s.setPoison k p).fWord = s.fWord := rfl
@[simp] theorem setPoison_stopped (k : Nat) (p : Poison) : (s.setPoison k p).stopped = s.stopped := rfl

/-! ### State.writeByte -/
@[simp] theorem writeByte_now (k : Nat) (b : Byte) : (s.writeByte k b).now = s.now := rfl
@[simp] theorem writeByte_poison (k : Nat) (b : Byte) : (s.writeByte k b).poison = s.poison := rfl
@[simp] theorem writeByte_tasks (k : Nat) (b : Byte) : (s.writeByte k b).tasks = s.tasks := rfl
@[simp] theorem writeByte_net (k : Nat) (b : Byte) : (s.writeByte k b).net = s.net := rfl
@[simp] theorem writeByte_groups (k : Nat) (b : Byte) : (s.writeByte k b).groups = s.groups := rfl
@[simp] theorem writeByte_kernels (k : Nat) (b : Byte) : (s.writeByte k b).kernels = s.kernels := rfl
@[simp] theorem writeByte_insts (k : Nat) (b : Byte) : (s.writeByte k b).insts = s.insts := rfl
@[simp] theorem writeByte_ctxs (k : Nat) (b : Byte) : (s.writeByte k b).ctxs = s.ctxs := rfl
@[simp] theorem writeByte_queues (k : Nat) (b : Byte) : (s.writeByte k b).queues = s.queues := rfl
@[simp] theorem writeByte_cores (k : Nat) (b : Byte) : (s.writeByte k b).cores = s.cores := rfl
@[simp] theorem writeByte_mg (k : Nat) (b : Byte) : (s.writeByte k b).mg = s.mg := rfl
@[simp] theorem writeByte_pg (k : Nat) (b : Byte) : (s.writeByte k b).pg = s.pg := rfl
@[simp] theorem writeByte_lk (k : Nat) (b : Byte) : (s.writeByte k b).lk = s.lk := rfl
@[simp] theorem writeByte_dies (k : Nat) (b : Byte) : (s.writeByte k b).dies = s.dies := rfl
@[simp] theorem writeByte_pw (k : Nat) (b : Byte) : (s.writeByte k b).pw = s.pw := rfl
@[simp] theorem writeByte_bt (k : Nat) (b : Byte) : (s.writeByte k b).bt = s.bt := rfl
@[simp] theorem writeByte_flash (k : Nat) (b : Byte) : (s.writeByte k b).flash = s.flash := rfl
@[simp] theorem writeByte_ids (k : Nat) (b : Byte) : (s.writeByte k b).ids = s.ids := rfl
@[simp] theorem writeByte_msix (k : Nat) (b : Byte) : (s.writeByte k b).msix = s.msix := rfl
@[simp] theorem writeByte_podOut (k : Nat) (b : Byte) : (s.writeByte k b).podOut = s.podOut := rfl
@[simp] theorem writeByte_msixHeld (k : Nat) (b : Byte) : (s.writeByte k b).msixHeld = s.msixHeld := rfl
@[simp] theorem writeByte_podTx (k : Nat) (b : Byte) : (s.writeByte k b).podTx = s.podTx := rfl
@[simp] theorem writeByte_pageTx (k : Nat) (b : Byte) : (s.writeByte k b).pageTx = s.pageTx := rfl
@[simp] theorem writeByte_pageWait (k : Nat) (b : Byte) : (s.writeByte k b).pageWait = s.pageWait := rfl
@[simp] theorem writeByte_pkts (k : Nat) (b : Byte) : (s.writeByte k b).pkts = s.pkts := rfl
@[simp] theorem writeByte_podHeld (k : Nat) (b : Byte) : (s.writeByte k b).podHeld = s.podHeld := rfl
@[simp] theorem writeByte_spdm (k : Nat) (b : Byte) : (s.writeByte k b).spdm = s.spdm := rfl
@[simp] theorem writeByte_hostReads (k : Nat) (b : Byte) : (s.writeByte k b).hostReads = s.hostReads := rfl
@[simp] theorem writeByte_turns (k : Nat) (b : Byte) : (s.writeByte k b).turns = s.turns := rfl
@[simp] theorem writeByte_free (k : Nat) (b : Byte) : (s.writeByte k b).free = s.free := rfl
@[simp] theorem writeByte_fTask (k : Nat) (b : Byte) : (s.writeByte k b).fTask = s.fTask := rfl
@[simp] theorem writeByte_fSlot (k : Nat) (b : Byte) : (s.writeByte k b).fSlot = s.fSlot := rfl
@[simp] theorem writeByte_fQueue (k : Nat) (b : Byte) : (s.writeByte k b).fQueue = s.fQueue := rfl
@[simp] theorem writeByte_fLen (k : Nat) (b : Byte) : (s.writeByte k b).fLen = s.fLen := rfl
@[simp] theorem writeByte_fWord (k : Nat) (b : Byte) : (s.writeByte k b).fWord = s.fWord := rfl
@[simp] theorem writeByte_stopped (k : Nat) (b : Byte) : (s.writeByte k b).stopped = s.stopped := rfl

/-! ### State.setResid -/
@[simp] theorem setResid_now (n : Nat) (r : Resid) : (s.setResid n r).now = s.now := rfl
@[simp] theorem setResid_mem (n : Nat) (r : Resid) : (s.setResid n r).mem = s.mem := rfl
@[simp] theorem setResid_poison (n : Nat) (r : Resid) : (s.setResid n r).poison = s.poison := rfl
@[simp] theorem setResid_tasks (n : Nat) (r : Resid) : (s.setResid n r).tasks = s.tasks := rfl
@[simp] theorem setResid_net (n : Nat) (r : Resid) : (s.setResid n r).net = s.net := rfl
@[simp] theorem setResid_groups (n : Nat) (r : Resid) : (s.setResid n r).groups = s.groups := rfl
@[simp] theorem setResid_kernels (n : Nat) (r : Resid) : (s.setResid n r).kernels = s.kernels := rfl
@[simp] theorem setResid_insts (n : Nat) (r : Resid) : (s.setResid n r).insts = s.insts := rfl
@[simp] theorem setResid_ctxs (n : Nat) (r : Resid) : (s.setResid n r).ctxs = s.ctxs := rfl
@[simp] theorem setResid_queues (n : Nat) (r : Resid) : (s.setResid n r).queues = s.queues := rfl
@[simp] theorem setResid_cores (n : Nat) (r : Resid) : (s.setResid n r).cores = s.cores := rfl
@[simp] theorem setResid_mg (n : Nat) (r : Resid) : (s.setResid n r).mg = s.mg := rfl
@[simp] theorem setResid_lk (n : Nat) (r : Resid) : (s.setResid n r).lk = s.lk := rfl
@[simp] theorem setResid_dies (n : Nat) (r : Resid) : (s.setResid n r).dies = s.dies := rfl
@[simp] theorem setResid_pw (n : Nat) (r : Resid) : (s.setResid n r).pw = s.pw := rfl
@[simp] theorem setResid_bt (n : Nat) (r : Resid) : (s.setResid n r).bt = s.bt := rfl
@[simp] theorem setResid_flash (n : Nat) (r : Resid) : (s.setResid n r).flash = s.flash := rfl
@[simp] theorem setResid_ids (n : Nat) (r : Resid) : (s.setResid n r).ids = s.ids := rfl
@[simp] theorem setResid_msix (n : Nat) (r : Resid) : (s.setResid n r).msix = s.msix := rfl
@[simp] theorem setResid_podOut (n : Nat) (r : Resid) : (s.setResid n r).podOut = s.podOut := rfl
@[simp] theorem setResid_msixHeld (n : Nat) (r : Resid) : (s.setResid n r).msixHeld = s.msixHeld := rfl
@[simp] theorem setResid_podTx (n : Nat) (r : Resid) : (s.setResid n r).podTx = s.podTx := rfl
@[simp] theorem setResid_pageTx (n : Nat) (r : Resid) : (s.setResid n r).pageTx = s.pageTx := rfl
@[simp] theorem setResid_pageWait (n : Nat) (r : Resid) : (s.setResid n r).pageWait = s.pageWait := rfl
@[simp] theorem setResid_pkts (n : Nat) (r : Resid) : (s.setResid n r).pkts = s.pkts := rfl
@[simp] theorem setResid_podHeld (n : Nat) (r : Resid) : (s.setResid n r).podHeld = s.podHeld := rfl
@[simp] theorem setResid_spdm (n : Nat) (r : Resid) : (s.setResid n r).spdm = s.spdm := rfl
@[simp] theorem setResid_hostReads (n : Nat) (r : Resid) : (s.setResid n r).hostReads = s.hostReads := rfl
@[simp] theorem setResid_turns (n : Nat) (r : Resid) : (s.setResid n r).turns = s.turns := rfl
@[simp] theorem setResid_free (n : Nat) (r : Resid) : (s.setResid n r).free = s.free := rfl
@[simp] theorem setResid_fTask (n : Nat) (r : Resid) : (s.setResid n r).fTask = s.fTask := rfl
@[simp] theorem setResid_fSlot (n : Nat) (r : Resid) : (s.setResid n r).fSlot = s.fSlot := rfl
@[simp] theorem setResid_fQueue (n : Nat) (r : Resid) : (s.setResid n r).fQueue = s.fQueue := rfl
@[simp] theorem setResid_fLen (n : Nat) (r : Resid) : (s.setResid n r).fLen = s.fLen := rfl
@[simp] theorem setResid_fWord (n : Nat) (r : Resid) : (s.setResid n r).fWord = s.fWord := rfl
@[simp] theorem setResid_stopped (n : Nat) (r : Resid) : (s.setResid n r).stopped = s.stopped := rfl

/-! ### State.setEph -/
@[simp] theorem setEph_now (n : Nat) (e : Eph) : (s.setEph n e).now = s.now := rfl
@[simp] theorem setEph_mem (n : Nat) (e : Eph) : (s.setEph n e).mem = s.mem := rfl
@[simp] theorem setEph_poison (n : Nat) (e : Eph) : (s.setEph n e).poison = s.poison := rfl
@[simp] theorem setEph_tasks (n : Nat) (e : Eph) : (s.setEph n e).tasks = s.tasks := rfl
@[simp] theorem setEph_net (n : Nat) (e : Eph) : (s.setEph n e).net = s.net := rfl
@[simp] theorem setEph_groups (n : Nat) (e : Eph) : (s.setEph n e).groups = s.groups := rfl
@[simp] theorem setEph_kernels (n : Nat) (e : Eph) : (s.setEph n e).kernels = s.kernels := rfl
@[simp] theorem setEph_insts (n : Nat) (e : Eph) : (s.setEph n e).insts = s.insts := rfl
@[simp] theorem setEph_ctxs (n : Nat) (e : Eph) : (s.setEph n e).ctxs = s.ctxs := rfl
@[simp] theorem setEph_queues (n : Nat) (e : Eph) : (s.setEph n e).queues = s.queues := rfl
@[simp] theorem setEph_cores (n : Nat) (e : Eph) : (s.setEph n e).cores = s.cores := rfl
@[simp] theorem setEph_mg (n : Nat) (e : Eph) : (s.setEph n e).mg = s.mg := rfl
@[simp] theorem setEph_lk (n : Nat) (e : Eph) : (s.setEph n e).lk = s.lk := rfl
@[simp] theorem setEph_dies (n : Nat) (e : Eph) : (s.setEph n e).dies = s.dies := rfl
@[simp] theorem setEph_pw (n : Nat) (e : Eph) : (s.setEph n e).pw = s.pw := rfl
@[simp] theorem setEph_bt (n : Nat) (e : Eph) : (s.setEph n e).bt = s.bt := rfl
@[simp] theorem setEph_flash (n : Nat) (e : Eph) : (s.setEph n e).flash = s.flash := rfl
@[simp] theorem setEph_ids (n : Nat) (e : Eph) : (s.setEph n e).ids = s.ids := rfl
@[simp] theorem setEph_msix (n : Nat) (e : Eph) : (s.setEph n e).msix = s.msix := rfl
@[simp] theorem setEph_podOut (n : Nat) (e : Eph) : (s.setEph n e).podOut = s.podOut := rfl
@[simp] theorem setEph_msixHeld (n : Nat) (e : Eph) : (s.setEph n e).msixHeld = s.msixHeld := rfl
@[simp] theorem setEph_podTx (n : Nat) (e : Eph) : (s.setEph n e).podTx = s.podTx := rfl
@[simp] theorem setEph_pageTx (n : Nat) (e : Eph) : (s.setEph n e).pageTx = s.pageTx := rfl
@[simp] theorem setEph_pageWait (n : Nat) (e : Eph) : (s.setEph n e).pageWait = s.pageWait := rfl
@[simp] theorem setEph_pkts (n : Nat) (e : Eph) : (s.setEph n e).pkts = s.pkts := rfl
@[simp] theorem setEph_podHeld (n : Nat) (e : Eph) : (s.setEph n e).podHeld = s.podHeld := rfl
@[simp] theorem setEph_spdm (n : Nat) (e : Eph) : (s.setEph n e).spdm = s.spdm := rfl
@[simp] theorem setEph_hostReads (n : Nat) (e : Eph) : (s.setEph n e).hostReads = s.hostReads := rfl
@[simp] theorem setEph_turns (n : Nat) (e : Eph) : (s.setEph n e).turns = s.turns := rfl
@[simp] theorem setEph_free (n : Nat) (e : Eph) : (s.setEph n e).free = s.free := rfl
@[simp] theorem setEph_fTask (n : Nat) (e : Eph) : (s.setEph n e).fTask = s.fTask := rfl
@[simp] theorem setEph_fSlot (n : Nat) (e : Eph) : (s.setEph n e).fSlot = s.fSlot := rfl
@[simp] theorem setEph_fQueue (n : Nat) (e : Eph) : (s.setEph n e).fQueue = s.fQueue := rfl
@[simp] theorem setEph_fLen (n : Nat) (e : Eph) : (s.setEph n e).fLen = s.fLen := rfl
@[simp] theorem setEph_fWord (n : Nat) (e : Eph) : (s.setEph n e).fWord = s.fWord := rfl
@[simp] theorem setEph_stopped (n : Nat) (e : Eph) : (s.setEph n e).stopped = s.stopped := rfl

end Sys2Proof.Machine
end

