-- ==== Sys2Proof/Laws/Tables.lean ====
section
/-! SUPPORT. Sparse tables: read after write, and the canonical form. -/
namespace Sys2Proof.Machine.SMap
variable {α : Type}

theorem get_put (d : α) (m : SMap α) (k j : Nat) (v : α) : get d (put m k v) j = if k = j then v else get d m j := by
  induction m with
  | nil => simp [put, get]
  | cons e m ih =>
    obtain ⟨k', v'⟩ := e
    unfold put
    split
    · next h => subst h; simp only [get]; split <;> rfl
    · split <;> simp only [get, ih] <;> split <;> split <;> first | rfl | omega

@[simp] theorem get_put_same (d : α) (m : SMap α) (k : Nat) (v : α) : get d (put m k v) k = v := by simp [get_put]

theorem find_put (m : SMap α) (k j : Nat) (v : α) : find (put m k v) j = if k = j then some v else find m j := by
  induction m with
  | nil => simp [put, find]
  | cons e m ih =>
    obtain ⟨k', v'⟩ := e
    unfold put
    split
    · next h => subst h; simp only [find]; split <;> rfl
    · split <;> simp only [find, ih] <;> split <;> split <;> first | rfl | omega

theorem get_erase (d : α) (m : SMap α) (k j : Nat) : get d (m.erase k) j = if k = j then d else get d m j := by
  induction m with
  | nil => simp [erase, get]
  | cons e m ih =>
    obtain ⟨k', v'⟩ := e
    simp only [erase, List.filter] at ih ⊢
    by_cases h : k' = k
    · subst h; simp only [ne_eq, not_true_eq_false, decide_false, ih, get]; split <;> rfl
    · simp only [ne_eq, h, not_false_eq_true, decide_true, get, ih]; split <;> split <;> first | rfl | omega

theorem get_set [DecidableEq α] (d : α) (m : SMap α) (k j : Nat) (v : α) :
    get d (SMap.set d m k v) j = if k = j then v else get d m j := by
  unfold SMap.set; split
  · next h => rw [get_erase, h]
  · rw [get_put]

/-- Writing a key twice is writing it once. -/
@[simp] theorem put_put (m : SMap α) (k : Nat) (v w : α) : put (put m k v) k w = put m k w := by
  induction m with
  | nil => simp [put]
  | cons e m ih =>
    obtain ⟨k', v'⟩ := e
    by_cases h : k' = k
    · simp [put, h]
    · by_cases h' : k < k'
      · simp [put, h, h']
      · simp [put, h, h', ih]

/-- The first key of a table lies above `b`. -/
def above (b : Nat) : SMap α → Prop
  | [] => True
  | (k, _) :: _ => b < k

theorem sorted_cons (k : Nat) (v : α) (m : SMap α) : sorted ((k, v) :: m) = true ↔ above k m ∧ sorted m = true := by
  cases m <;> simp [sorted, above]

theorem above_put (b k : Nat) (v : α) (m : SMap α) (h : above b m) (hk : b < k) : above b (put m k v) := by
  cases m with
  | nil => simpa [put, above] using hk
  | cons e m =>
    obtain ⟨k', v'⟩ := e
    unfold put; split
    · exact hk
    · split
      · exact hk
      · exact h

theorem sorted_put (m : SMap α) (k : Nat) (v : α) (h : sorted m = true) : sorted (put m k v) = true := by
  induction m with
  | nil => simp [put, sorted]
  | cons e m ih =>
    obtain ⟨k', v'⟩ := e
    have h' := (sorted_cons k' v' m).1 h
    unfold put; split
    · next e => subst e; exact (sorted_cons _ _ _).2 h'
    · split
      · next hk => exact (sorted_cons _ _ _).2 ⟨hk, h⟩
      · exact (sorted_cons _ _ _).2 ⟨above_put _ _ _ _ h'.1 (by omega), ih h'.2⟩

theorem above_filter (b : Nat) (p : Nat × α → Bool) (m : SMap α) (h : above b m) (hs : sorted m = true) :
    above b (m.filter p : SMap α) := by
  induction m generalizing b with
  | nil => trivial
  | cons e m ih =>
    obtain ⟨k', v'⟩ := e
    have h' := (sorted_cons k' v' m).1 hs
    by_cases hp : p (k', v') = true
    · simpa [List.filter, hp, above] using h
    · simp only [List.filter, hp]
      refine ih b ?_ h'.2
      cases m with
      | nil => trivial
      | cons e m => exact Nat.lt_trans h h'.1

/-- Any filter of a canonical table is canonical. -/
theorem sorted_filter (p : Nat × α → Bool) (m : SMap α) (h : sorted m = true) : sorted (m.filter p : SMap α) = true := by
  induction m with
  | nil => rfl
  | cons e m ih =>
    obtain ⟨k', v'⟩ := e
    have h' := (sorted_cons k' v' m).1 h
    by_cases hp : p (k', v') = true
    · simp only [List.filter, hp]; exact (sorted_cons _ _ _).2 ⟨above_filter _ _ _ h'.1 h'.2, ih h'.2⟩
    · simp only [List.filter, hp]; exact ih h'.2

theorem mem_put (m : SMap α) (k : Nat) (v : α) (e : Nat × α) (h : e ∈ put m k v) : e = (k, v) ∨ e ∈ m := by
  induction m with
  | nil => simpa [put] using h
  | cons a m ih =>
    obtain ⟨k', v'⟩ := a
    unfold put at h; split at h
    · rcases List.mem_cons.1 h with h | h
      · exact .inl h
      · exact .inr (List.mem_cons_of_mem _ h)
    · split at h
      · rcases List.mem_cons.1 h with h | h
        · exact .inl h
        · exact .inr h
      · rcases List.mem_cons.1 h with h | h
        · exact .inr (h ▸ List.mem_cons_self ..)
        · exact (ih h).imp id (List.mem_cons_of_mem _)

theorem wf_filter [DecidableEq α] (d : α) (p : Nat × α → Bool) (m : SMap α) (h : wf d m = true) :
    wf d (m.filter p : SMap α) = true := by
  simp only [wf, Bool.and_eq_true, List.all_eq_true] at h ⊢
  exact ⟨sorted_filter p m h.1, fun e he => h.2 e (List.mem_filter.1 he).1⟩

/-- A write keeps the canonical form. -/
theorem wf_set [DecidableEq α] (d : α) (m : SMap α) (k : Nat) (v : α) (h : wf d m = true) :
    wf d (SMap.set d m k v) = true := by
  unfold SMap.set; split
  · exact wf_filter d _ m h
  · next hv =>
    simp only [wf, Bool.and_eq_true, List.all_eq_true] at h ⊢
    refine ⟨sorted_put m k v h.1, fun e he => ?_⟩
    rcases mem_put m k v e he with rfl | he
    · simpa using hv
    · exact h.2 e he

end Sys2Proof.Machine.SMap
end

