-- ==== Sys2Proof/Laws/Memory.lean ====
section
/-! SUPPORT. Memory: read after write, and every operation that changes memory keeps its canonical form. -/
namespace Sys2Proof.Machine

theorem readByte_writeByte (s : State) (k j : Nat) (b : Byte) :
    (s.writeByte k b).readByte j = if k = j then b else s.readByte j := SMap.get_set _ _ _ _ _

@[simp] theorem write_poison (s : State) (k v n : Nat) : (s.write k v n).poison = s.poison := by
  induction n generalizing s k v with
  | zero => rfl
  | succ n ih => simp [State.write, ih]

/-- Bytes outside the written ones read as before. -/
theorem readByte_write_other (s : State) (k v n j : Nat) (h : j < k ∨ k + n ≤ j) :
    (s.write k v n).readByte j = s.readByte j := by
  induction n generalizing s k v with
  | zero => rfl
  | succ n ih =>
    simp only [State.write]
    rw [ih _ _ _ (by omega), readByte_writeByte, if_neg (by omega)]

/-- Byte `i` of a written value. -/
theorem readByte_write (s : State) (k v n i : Nat) (h : i < n) :
    (s.write k v n).readByte (k + i) = BitVec.ofNat 8 (v / 256 ^ i) := by
  induction n generalizing s k v i with
  | zero => omega
  | succ n ih =>
    simp only [State.write]
    cases i with
    | zero =>
      rw [readByte_write_other _ _ _ _ _ (by omega), readByte_writeByte, if_pos (by omega)]; simp
    | succ i =>
      have h1 : k + (i + 1) = k + 1 + i := by omega
      rw [h1, ih _ _ _ _ (by omega), Nat.div_div_eq_div_mul, Nat.pow_succ, Nat.mul_comm]

theorem read_congr (s t : State) (k n : Nat) (h : ∀ j, k ≤ j → j < k + n → t.readByte j = s.readByte j) :
    t.read k n = s.read k n := by
  induction n generalizing k with
  | zero => rfl
  | succ n ih =>
    simp only [State.read]
    rw [h k (by omega) (by omega), ih (k + 1) (fun j h1 h2 => h j (by omega) (by omega))]

/-- A value read back from where it was written. -/
theorem read_write (s : State) (k v n : Nat) : (s.write k v n).read k n = v % 256 ^ n := by
  induction n generalizing s k v with
  | zero => simp [State.read, Nat.mod_one]
  | succ n ih =>
    have h0 : (s.write k v (n + 1)).readByte k = BitVec.ofNat 8 v := by
      simpa using readByte_write s k v (n + 1) 0 (by omega)
    simp only [State.read, State.write] at h0 ⊢
    rw [h0, ih, BitVec.toNat_ofNat]
    show v % 256 + v / 256 % 256 ^ n * 256 = v % 256 ^ (n + 1)
    rw [show 256 ^ (n + 1) = 256 * 256 ^ n from Nat.pow_succ', Nat.mod_mul, Nat.mul_comm (v / 256 % 256 ^ n)]

/-! ### The canonical form -/

theorem canonical_of_eq {s t : State} (hm : t.mem = s.mem) (hp : t.poison = s.poison) (h : s.canonical) : t.canonical := by
  unfold State.canonical at *; rwa [hm, hp]

theorem canonical_writeByte {s : State} (k : Nat) (b : Byte) (h : s.canonical) : (s.writeByte k b).canonical :=
  ⟨SMap.wf_set _ _ _ _ h.1, h.2⟩

theorem canonical_write {s : State} (k v n : Nat) (h : s.canonical) : (s.write k v n).canonical := by
  induction n generalizing s k v with
  | zero => exact h
  | succ n ih => exact ih _ _ (canonical_writeByte _ _ h)

theorem canonical_setPoison {s : State} (k : Nat) (p : Poison) (h : s.canonical) : (s.setPoison k p).canonical :=
  ⟨h.1, SMap.wf_set _ _ _ _ h.2⟩

theorem canonical_clearMem {s : State} (k n : Nat) (h : s.canonical) : (s.clearMem k n).canonical :=
  ⟨SMap.wf_filter _ _ _ h.1, SMap.wf_filter _ _ _ h.2⟩

namespace SMap
variable {α : Type}

theorem sorted_iff_pairwise (m : SMap α) : sorted m = true ↔ m.Pairwise (fun a b => a.1 < b.1) := by
  induction m with
  | nil => simp [sorted]
  | cons e m ih =>
    obtain ⟨k, v⟩ := e
    rw [sorted_cons, ih, List.pairwise_cons]
    constructor
    · rintro ⟨ha, hp⟩
      refine ⟨?_, hp⟩
      cases m with
      | nil => simp
      | cons e' m =>
        intro b hb
        rcases List.mem_cons.1 hb with rfl | hb
        · exact ha
        · exact Nat.lt_trans ha ((List.pairwise_cons.1 hp).1 b hb)
    · rintro ⟨ha, hp⟩
      refine ⟨?_, hp⟩
      cases m with
      | nil => trivial
      | cons e' m => exact ha e' (List.mem_cons_self ..)

theorem wf_copyRange [DecidableEq α] (d : α) (m : SMap α) (src dst n : Nat) (h : wf d m = true) :
    wf d (copyRange m src dst n) = true := by
  simp only [wf, Bool.and_eq_true, List.all_eq_true, sorted_iff_pairwise] at h ⊢
  obtain ⟨hp, hd⟩ := h
  refine ⟨?_, ?_⟩
  · unfold copyRange
    refine List.pairwise_append.2 ⟨List.pairwise_append.2 ⟨hp.filter _, ?_, ?_⟩, hp.filter _, ?_⟩
    · refine List.pairwise_map.2 ((List.Pairwise.and_mem.1 (hp.filter _)).imp ?_)
      rintro a b ⟨ha, hb, hab⟩
      have h1 := (List.mem_filter.1 ha).2; have h2 := (List.mem_filter.1 hb).2
      simp only [decide_eq_true_eq] at h1 h2
      simp only
      omega
    · intro a ha b hb
      obtain ⟨c, hc, rfl⟩ := List.mem_map.1 hb
      have h1 := (List.mem_filter.1 ha).2; have h2 := (List.mem_filter.1 hc).2
      simp only [decide_eq_true_eq] at h1 h2
      simp only
      omega
    · intro a ha b hb
      have h2 := (List.mem_filter.1 hb).2
      simp only [decide_eq_true_eq] at h2
      rcases List.mem_append.1 ha with ha | ha
      · have := (List.mem_filter.1 ha).2
        simp only [decide_eq_true_eq] at this
        omega
      · obtain ⟨c, hc, rfl⟩ := List.mem_map.1 ha
        have h1 := (List.mem_filter.1 hc).2
        simp only [decide_eq_true_eq] at h1
        simp only
        omega
  · intro e he
    unfold copyRange at he
    rcases List.mem_append.1 he with he | he
    · rcases List.mem_append.1 he with he | he
      · exact hd e (List.mem_filter.1 he).1
      · obtain ⟨a, ha, rfl⟩ := List.mem_map.1 he
        exact hd a (List.mem_filter.1 ha).1
    · exact hd e (List.mem_filter.1 he).1

end SMap

theorem canonical_copyMem {s : State} (src dst n : Nat) (h : s.canonical) : (s.copyMem src dst n).canonical :=
  ⟨SMap.wf_copyRange _ _ _ _ _ h.1, SMap.wf_copyRange _ _ _ _ _ h.2⟩

end Sys2Proof.Machine
end

