-- ==== Sys2Proof/Laws/Access.lean ====
section
/-! SUPPORT. Tasks, slots and registers: read after write, and what a head that completes changes. -/
namespace Sys2Proof.Machine

theorem vget_vset {α : Type} {n : Nat} (d : α) (v : Vector α n) (i j : Nat) (x : α) (h : i < n) :
    vget d (vset v i x) j = if i = j then x else vget d v j := by
  simp only [vget, vset, Vector.getElem?_setIfInBounds]
  split
  · simp
  · rfl

@[simp] theorem vset_vset {α : Type} {n : Nat} (v : Vector α n) (i : Nat) (x y : α) : vset (vset v i x) i y = vset v i y := by
  ext j hj
  simp only [vset, Vector.getElem_setIfInBounds]
  split <;> rfl

theorem vset_out {α : Type} {n : Nat} (v : Vector α n) (i : Nat) (x : α) (h : n ≤ i) : vset v i x = v := by
  ext j hj
  simp only [vset, Vector.getElem_setIfInBounds]
  rw [if_neg (by omega)]

/-! ### Tasks -/

theorem task_setTask (s : State) (t u : Nat) (k : Task) : (s.setTask t k).task u = if t = u then k else s.task u :=
  SMap.get_put _ _ _ _ _
@[simp] theorem task_setTask_same (s : State) (t : Nat) (k : Task) : (s.setTask t k).task t = k := by simp [task_setTask]
@[simp] theorem setTask_setTask (s : State) (t : Nat) (k k' : Task) : (s.setTask t k).setTask t k' = s.setTask t k' := by
  simp [State.setTask]
theorem task_updTask (s : State) (t u : Nat) (f : Task → Task) :
    (s.updTask t f).task u = if t = u then f (s.task t) else s.task u := task_setTask ..
@[simp] theorem task_updTask_same (s : State) (t : Nat) (f : Task → Task) : (s.updTask t f).task t = f (s.task t) := by
  simp [task_updTask]
@[simp] theorem updTask_updTask (s : State) (t : Nat) (f g : Task → Task) :
    (s.updTask t f).updTask t g = s.updTask t (fun k => g (f k)) := by simp [State.updTask]

theorem arch_updArch (s : State) (t u : Nat) (f : Arch → Arch) :
    (s.updArch t f).arch u = if t = u then f (s.arch t) else s.arch u := by
  simp only [State.updArch, State.arch, task_updTask]; split <;> rfl
@[simp] theorem arch_updArch_same (s : State) (t : Nat) (f : Arch → Arch) : (s.updArch t f).arch t = f (s.arch t) := by
  simp [arch_updArch]
@[simp] theorem updArch_updArch (s : State) (t : Nat) (f g : Arch → Arch) :
    (s.updArch t f).updArch t g = s.updArch t (fun a => g (f a)) := by simp [State.updArch, Task.updArch]

/-! ### Slots -/

theorem slot_setSlot (a : Arch) (i j : Nat) (x : Slot) (h : i < 10) :
    (a.setSlot i x).slot j = if i = j then x else a.slot j := vget_vset _ _ _ _ _ h
@[simp] theorem setSlot_setSlot (a : Arch) (i : Nat) (x y : Slot) : (a.setSlot i x).setSlot i y = a.setSlot i y := by
  simp [Arch.setSlot]
theorem slot_updSlot (s : State) (t i u j : Nat) (f : Slot → Slot) (h : i < 10) :
    (s.updSlot t i f).slot u j = if t = u ∧ i = j then f (s.slot t i) else s.slot u j := by
  simp only [State.updSlot, State.slot, arch_updArch, Arch.updSlot]
  by_cases ht : t = u
  · subst ht; simp [slot_setSlot _ _ _ _ h]
  · simp [ht]
@[simp] theorem ctl_updSlot (s : State) (t i u : Nat) (f : Slot → Slot) : (s.updSlot t i f).ctl u = s.ctl u := by
  simp only [State.updSlot, State.ctl, arch_updArch]
  split
  · next h => subst h; rfl
  · rfl
@[simp] theorem eng_updSlot (s : State) (t i u : Nat) (f : Slot → Slot) : (s.updSlot t i f).eng u = s.eng u := by
  simp only [State.updSlot, State.eng, arch_updArch]
  split
  · next h => subst h; rfl
  · rfl

theorem cur_updCur (s : State) (f : Slot → Slot) (h : s.fSlot < 10) : (s.updCur f).cur = f s.cur := by
  show (s.updSlot s.fTask s.fSlot f).slot s.fTask s.fSlot = _
  rw [slot_updSlot _ _ _ _ _ _ h]; simp [State.cur]

theorem setSlot_out (a : Arch) (i : Nat) (x : Slot) (h : 10 ≤ i) : a.setSlot i x = a := by
  simp [Arch.setSlot, vset_out _ _ _ h]

theorem updCur_updCur (s : State) (f g : Slot → Slot) : (s.updCur f).updCur g = s.updCur (fun x => g (f x)) := by
  show ((s.updSlot s.fTask s.fSlot f).updSlot s.fTask s.fSlot g) = s.updSlot s.fTask s.fSlot _
  simp only [State.updSlot, updArch_updArch, Arch.updSlot]
  by_cases h : s.fSlot < 10
  · congr 1; funext a; simp [slot_setSlot _ _ _ _ h]
  · congr 1; funext a; simp [setSlot_out _ _ _ (by omega : 10 ≤ s.fSlot)]

/-- The state after a change of the executing slot differs only there. -/
theorem onlySlot_updCur (s : State) (f : Slot → Slot) : onlySlot s (s.updCur f) := by
  refine ⟨?_, fun _ => rfl⟩
  by_cases h : s.fSlot < 10
  · rw [cur_updCur _ _ h]; rfl
  · show s.updSlot s.fTask s.fSlot f = s.updSlot s.fTask s.fSlot _
    simp [State.updSlot, Arch.updSlot, setSlot_out _ _ _ (by omega : 10 ≤ s.fSlot)]

theorem onlySlot_retire (s : State) (f : Slot → Slot) : onlySlot s (s.retire f) := onlySlot_updCur s _

theorem cur_retire (s : State) (f : Slot → Slot) (h : s.fSlot < 10) : (s.retire f).cur = (f s.cur).advance :=
  cur_updCur s _ h

/-! ### Registers -/

theorem getM_setM (x : Slot) (d r : Reg) (v : Word) (h : d.toNat < 10) :
    (x.setM d v).getM r = if d = r then v else x.getM r := by
  simp only [Slot.setM, Slot.getM, vget_vset _ _ _ _ _ h, ← BitVec.toNat_inj]
theorem getQ_setQ (x : Slot) (d r : Reg) (v : Quad) : (x.setQ d v).getQ r = if d = r then v else x.getQ r := by
  simp only [Slot.setQ, Slot.getQ, vget_vset _ _ _ _ _ d.isLt, ← BitVec.toNat_inj]

theorem getP_setP (x : Slot) (d r : Reg) (v : Bool) : (x.setP d v).getP r = if d = r then v else x.getP r := by
  have hd : d.toNat < 16 := d.isLt
  have hr : r.toNat < 16 := r.isLt
  have key : ∀ i, ((2 ^ d.toNat : Nat)).testBit i = decide (d.toNat = i) := fun i => Nat.testBit_two_pow
  have key2 : (b01 v * 2 ^ d.toNat).testBit r.toNat = (v && decide (d.toNat = r.toNat)) := by
    cases v <;> simp [b01, key]
  simp only [Slot.setP, Slot.getP, BitVec.getLsbD_or, BitVec.getLsbD_and, BitVec.getLsbD_not, BitVec.getLsbD_ofNat, key, key2, hr,
    decide_true, Bool.true_and, ← BitVec.toNat_inj]
  by_cases h : d.toNat = r.toNat <;> simp [h]

/-! ### What a completing head leaves -/

@[simp] theorem advance_getM (x : Slot) (r : Reg) : x.advance.getM r = x.getM r := rfl
@[simp] theorem advance_getQ (x : Slot) (r : Reg) : x.advance.getQ r = x.getQ r := rfl
@[simp] theorem advance_getP (x : Slot) (r : Reg) : x.advance.getP r = x.getP r := rfl
theorem advances_advance (x : Slot) : advances x x.advance := ⟨rfl, rfl, rfl⟩

/-- A head that writes one m register does only that. -/
theorem writesM_retire (s : State) (d : Reg) (v : Word) (h : s.fSlot < 10) (hd : d.toNat < 10) :
    writesM s (s.retire (fun x => x.setM d v)) d v := by
  refine ⟨?_, ⟨fun r hr => ?_, ?_, ?_⟩, ?_, ?_, ?_, ?_, onlySlot_retire _ _⟩ <;> rw [cur_retire _ _ h]
  · simp [getM_setM _ _ _ _ hd]
  · simp [getM_setM _ _ _ _ hd, Ne.symm hr]
  · rfl
  · rfl
  · exact ⟨⟨rfl, rfl, rfl, rfl, rfl, rfl, rfl, rfl⟩, rfl⟩
  · rfl
  · exact ⟨rfl, rfl, rfl⟩
  · rfl

/-- A head that writes one predicate does only that. -/
theorem writesP_retire (s : State) (d : Reg) (v : Bool) (h : s.fSlot < 10) :
    writesP s (s.retire (fun x => x.setP d v)) d v := by
  refine ⟨?_, fun r hr => ?_, ?_, ?_, ?_, ?_, onlySlot_retire _ _⟩ <;> rw [cur_retire _ _ h]
  · simp [getP_setP]
  · simp [getP_setP, Ne.symm hr]
  · rfl
  · rfl
  · exact ⟨⟨rfl, rfl, rfl, rfl, rfl, rfl, rfl, rfl⟩, rfl⟩
  · exact ⟨rfl, rfl, rfl⟩

/-- A head that writes one q register does only that. -/
theorem writesQ_retire (s : State) (d : Reg) (v : Quad) (h : s.fSlot < 10) :
    writesQ s (s.retire (fun x => x.setQ d v)) d v := by
  refine ⟨?_, fun r hr => ?_, ?_, ?_, ?_, ?_, onlySlot_retire _ _⟩ <;> rw [cur_retire _ _ h]
  · simp [getQ_setQ]
  · simp [getQ_setQ, Ne.symm hr]
  · rfl
  · rfl
  · exact ⟨⟨rfl, rfl, rfl, rfl, rfl, rfl, rfl, rfl⟩, rfl⟩
  · exact ⟨rfl, rfl, rfl⟩

theorem writesNothing_retire (s : State) (h : s.fSlot < 10) : writesNothing s (s.retire id) := by
  refine ⟨?_, ?_, ?_, ?_, ?_, onlySlot_retire _ _⟩ <;> rw [cur_retire _ _ h]
  · rfl
  · rfl
  · rfl
  · exact ⟨⟨rfl, rfl, rfl, rfl, rfl, rfl, rfl, rfl⟩, rfl⟩
  · exact ⟨rfl, rfl, rfl⟩

/-- The control thread's registers: x0 reads 0, and any other holds what was written. -/
theorem getX_setX (c : Ctl) (d r : XReg) (v : Word) :
    (c.setX d v).getX r = if r = 0 then 0 else if d = r then v else c.getX r := by
  have hd : d.toNat < 32 := d.isLt
  by_cases hr : r = 0
  · simp [Ctl.getX, hr]
  · by_cases h0 : d = 0
    · subst h0
      have h0r : ¬ (0 : XReg) = r := fun e => hr e.symm
      simp only [Ctl.setX, if_true, if_neg hr, if_neg h0r]
    · simp only [Ctl.setX, Ctl.getX, hr, h0, if_false, vget_vset _ _ _ _ _ hd, ← BitVec.toNat_inj]

end Sys2Proof.Machine
end

