-- ==== Sys2Proof/Laws/Fetch.lean ====
section
/-! SUPPORT. Everything that fetching a line can change: the pages' bookkeeping, the instruction copies and the free counter. -/
namespace Sys2Proof.Machine

/-- `t` is `s` but for what reading code leaves behind. -/
def fetchedFrom (s t : State) : Prop := t = { s with pg := t.pg, cores := t.cores, free := t.free }

theorem fetchedFrom.rfl' (s : State) : fetchedFrom s s := rfl
theorem fetchedFrom.trans' {s t u : State} (h : fetchedFrom s t) (k : fetchedFrom t u) : fetchedFrom s u := by
  unfold fetchedFrom at *; rw [k, h]
theorem fetchedFrom_draw (s : State) : fetchedFrom s s.draw := rfl
theorem fetchedFrom_gather (s : State) (c va : Nat) (w : Bool) (k : Nat) : fetchedFrom s (s.gather c va w k) := rfl
theorem fetchedFrom_putILease (s : State) (l : ILease) : fetchedFrom s (s.putILease l) := rfl

theorem fetchedFrom_placeWord (s : State) (p : Place) : fetchedFrom s (s.placeWord p).1 := by
  unfold State.placeWord; split
  · exact fetchedFrom_draw s
  · exact fetchedFrom.rfl' s

theorem fetchedFrom_foldl {α β : Type} (f : State × α → β → State × α) (h : ∀ a b, fetchedFrom a.1 (f a b).1) (l : List β)
    (a : State × α) : fetchedFrom a.1 (l.foldl f a).1 := by
  induction l generalizing a with
  | nil => exact fetchedFrom.rfl' _
  | cons b l ih => exact (h a b).trans' (ih (f a b))

theorem fetchedFrom_placeRaw (s : State) (p : Place) (n : Nat) : fetchedFrom s (s.placeRaw p n).1 := by
  unfold State.placeRaw
  simp only
  generalize List.map _ _ = ks
  exact fetchedFrom_foldl (α := List Byte × Option Nat) _ (fun a b => fetchedFrom_placeWord a.1 _) ks (s, [], none)
theorem fetchedFrom_placeBytes (s : State) (p : Place) (n : Nat) : fetchedFrom s (s.placeBytes p n).1 := fetchedFrom_placeRaw s p n
theorem fetchedFrom_keepLease (s : State) (c va : Nat) : fetchedFrom s (s.keepLease c va) := by
  unfold State.keepLease
  split
  · exact fetchedFrom_draw s
  · simp only; split <;> split <;> rfl

theorem fetchedFrom_fetchPlace (s : State) (t va : Nat) : fetchedFrom s (s.fetchPlace t va).1 := by
  have fresh : ∀ (s : State) (k : Task), fetchedFrom s
      (match s.leafVia k.ctx va with
        | .error m => ((s, .error m) : State × Except Miss Place)
        | .ok l => ((if bit l.1.entry 7 then s.putILease ⟨k.phys, k.ctx, va / 65536, l.1.entry, l.1.lvl, l.2⟩ else s).keepLease k.ctx va,
            s.judge k.coord.d k.coord.tile 0 .x va l.1)).1 := by
    intro s k
    split
    · exact fetchedFrom.rfl' s
    · refine fetchedFrom.trans' ?_ (fetchedFrom_keepLease _ _ _)
      split
      · exact fetchedFrom_putILease s _
      · exact fetchedFrom.rfl' s
  unfold State.fetchPlace
  simp only
  split
  · exact fresh s _
  · split
    · exact fetchedFrom_draw s
    · exact (fetchedFrom_draw s).trans' (fresh s.draw _)

theorem fetchedFrom_readLine (s : State) (t va : Nat) (p : Place) : fetchedFrom s (s.readLine t va p).1 := by
  unfold State.readLine
  split
  · rfl
  · simp only; split
    · exact fetchedFrom.rfl' s
    · split
      · exact (fetchedFrom_placeRaw s p 64).trans' rfl
      · exact fetchedFrom_placeRaw s p 64
theorem fetchedFrom_fetchImage (s : State) (t va : Nat) : fetchedFrom s (s.fetchImage t va).1 := by
  unfold State.fetchImage
  simp only
  split
  · exact fetchedFrom_fetchPlace s t va
  · split
    · exact fetchedFrom_fetchPlace s t va
    · exact (fetchedFrom_fetchPlace s t va).trans' ((fetchedFrom_gather _ _ _ _ _).trans' (fetchedFrom_readLine _ _ _ _))

/-- Fetching a line changes nothing of the machine but its bookkeeping. -/
theorem fetchedFrom_fetchLine (s : State) (t va : Nat) : fetchedFrom s (s.fetchLine t va).1 := by
  unfold State.fetchLine
  simp only
  split <;> exact fetchedFrom_fetchImage s t va

theorem fetchedFrom_fetchHalf (s : State) (t va : Nat) : fetchedFrom s (s.fetchHalf t va).1 := by
  unfold State.fetchHalf
  simp only
  split <;> exact fetchedFrom_fetchLine s t _

/-- Fetching an instruction of the control thread changes nothing of the machine but its bookkeeping. -/
theorem fetchedFrom_ctFetch (s : State) (t : Nat) : fetchedFrom s (s.ctFetch t).1 := by
  unfold State.ctFetch
  simp only
  split
  · exact fetchedFrom.rfl' s
  · split
    · exact fetchedFrom_fetchLine s t _
    · split
      · exact fetchedFrom_fetchLine s t _
      · split
        · exact fetchedFrom_fetchLine s t _
        · split <;> exact (fetchedFrom_fetchLine s t _).trans' (fetchedFrom_fetchHalf _ t _)

end Sys2Proof.Machine
end

