-- ==== Sys2Proof/Laws/Ops.lean ====
section
/-! SUPPORT. One law per shared operation of heads and of the control thread: everything it can do. -/
namespace Sys2Proof.Machine

/-! ### Guards (R124, R126) -/

theorem guarded_on (g : Guard) (k : State → State) (s : State) (h : s.cur.holds g = true) : guarded g k s = .next (k s) := by
  simp [guarded, h]
theorem guarded_off (g : Guard) (k : State → State) (s : State) (h : s.cur.holds g = false) : guarded g k s = .next (s.retire id) := by
  simp [guarded, h]
/-- A guarded head answers a next state: its effect or none. -/
theorem guarded_cases (g : Guard) (k : State → State) (s t : State) (h : guarded g k s = .next t) :
    (s.cur.holds g = true ∧ t = k s) ∨ (s.cur.holds g = false ∧ t = s.retire id) := by
  simp only [guarded, Host.Outcome.next.injEq] at h
  cases hg : s.cur.holds g <;> simp [hg] at h ⊢ <;> exact h.symm
theorem head_on (g : Guard) (l : Letter) (k : State → State) (s : State) (h : s.cur.holds g = true) (hl : s.lacks l = none) :
    head g l k s = .next (k s) := by simp [head, guarded, h, hl]
theorem head_off (g : Guard) (l : Letter) (k : State → State) (s : State) (h : s.cur.holds g = false) :
    head g l k s = .next (s.retire id) := by simp [head, guarded, h]

/-! ### Sending and triggers leave tasks and memory alone -/

/-- The tasks, memory and the turn taken are as they were. -/
def keepsTasks (s t : State) : Prop :=
  t.tasks = s.tasks ∧ t.mem = s.mem ∧ t.poison = s.poison ∧ t.fTask = s.fTask ∧ t.fSlot = s.fSlot

theorem keepsTasks.rfl' (s : State) : keepsTasks s s := ⟨rfl, rfl, rfl, rfl, rfl⟩
theorem keepsTasks.trans' {s t u : State} (h : keepsTasks s t) (k : keepsTasks t u) : keepsTasks s u := by
  obtain ⟨a, b, c, d, e⟩ := h; obtain ⟨a', b', c', d', e'⟩ := k
  exact ⟨a'.trans a, b'.trans b, c'.trans c, d'.trans d, e'.trans e⟩
theorem keepsTasks.task {s t : State} (h : keepsTasks s t) (u : Nat) : t.task u = s.task u := by simp [State.task, h.1]
theorem keepsTasks.arch {s t : State} (h : keepsTasks s t) (u : Nat) : t.arch u = s.arch u := by simp [State.arch, h.task]
theorem keepsTasks.slot {s t : State} (h : keepsTasks s t) (u i : Nat) : t.slot u i = s.slot u i := by simp [State.slot, h.arch]
theorem keepsTasks.ctl {s t : State} (h : keepsTasks s t) (u : Nat) : t.ctl u = s.ctl u := by simp [State.ctl, h.arch]
theorem keepsTasks.cur {s t : State} (h : keepsTasks s t) : t.cur = s.cur := by simp [State.cur, h.slot, h.2.2.2.1, h.2.2.2.2]
theorem keepsTasks.bytes {s t : State} (h : keepsTasks s t) : sameBytes s t := fun k => by simp [State.readByte, h.2.1]

theorem keepsTasks_send (s : State) (p : Packet) : keepsTasks s (s.send p) := ⟨rfl, rfl, rfl, rfl, rfl⟩
theorem keepsTasks_pushFlit (s : State) (n ch : Nat) (e : Bool) (p : Option Packet) (l : Bool) : keepsTasks s (s.pushFlit n ch e p l) :=
  ⟨rfl, rfl, rfl, rfl, rfl⟩
theorem keepsTasks_foldl {β : Type} (f : State → β → State) (h : ∀ s b, keepsTasks s (f s b)) (l : List β) (s : State) :
    keepsTasks s (l.foldl f s) := by
  induction l generalizing s with
  | nil => exact keepsTasks.rfl' s
  | cons b l ih => exact (h s b).trans' (ih _)
theorem keepsTasks_sendOne (s : State) (n : Nat) : keepsTasks s (s.sendOne n) := by
  unfold State.sendOne
  split
  · exact keepsTasks.rfl' s
  · split
    · exact keepsTasks.rfl' s
    · split
      · exact ⟨rfl, rfl, rfl, rfl, rfl⟩
      · exact keepsTasks.rfl' s
theorem keepsTasks_sendFlit (s : State) (n : Nat) : keepsTasks s (s.sendFlit n) :=
  (keepsTasks_sendOne s n).trans' ((keepsTasks_sendOne _ n).trans' (keepsTasks_sendOne _ n))
theorem keepsTasks_sendFrom (s : State) (p : Phys) (k : Packet) : keepsTasks s (s.sendFrom p k) := by
  unfold State.sendFrom
  split
  · exact keepsTasks_send s _
  · exact (keepsTasks_send s _).trans' (keepsTasks_sendFlit _ _)
theorem keepsTasks_sendRoot (s : State) (t l : Nat) (b : Body) : keepsTasks s (s.sendRoot t l b) := by
  simp only [State.sendRoot]
  split
  · exact keepsTasks_send s _
  · split <;> exact (keepsTasks_send s _).trans' (keepsTasks_sendFlit _ _)
theorem keepsTasks_credit (s : State) (t : Nat) (i : Ident) : keepsTasks s (s.credit t i) := keepsTasks_sendFrom ..
theorem keepsTasks_noteError (s : State) (p : Phys) : keepsTasks s (s.noteError p) := by
  simp only [State.noteError]; split <;> exact ⟨rfl, rfl, rfl, rfl, rfl⟩
theorem keepsTasks_trigger (s : State) (t cause : Nat) : keepsTasks s (s.trigger t cause) := by
  simp only [State.trigger]; split
  · exact (keepsTasks_noteError s _).trans' (keepsTasks_sendRoot _ _ _ _)
  · exact keepsTasks.rfl' s

/-! ### Stop points (R31, R33, R57) -/

/-- What a stop point of slot `i` does to its core before a kill. -/
def atStop (i : Nat) (a : Arch) : Arch :=
  let a := if a.otherInLine i then a else a.dropLag
  a.updCtl (fun c =>
    match c.wait with
    | .cbar n (some j) _ l => if j = i then { c with wait := .cbar n none a.serial l } else c
    | _ => c)

theorem atStop_ctl (i : Nat) (a : Arch) :
    (atStop i a).ctl.d = a.ctl.d ∧ (atStop i a).ctl.x = a.ctl.x ∧ (atStop i a).ctl.pc = a.ctl.pc := by
  have hc : (if a.otherInLine i then a else a.dropLag).ctl = a.ctl := by split <;> rfl
  simp only [atStop, Arch.updCtl, hc]
  split
  · split <;> exact ⟨rfl, rfl, rfl⟩
  · exact ⟨rfl, rfl, rfl⟩

theorem slot_atStop (s : State) (t i u j : Nat) : (s.updArch t (atStop i)).slot u j = s.slot u j := by
  simp only [State.slot, arch_updArch]
  split
  · next h =>
    subst h
    simp only [atStop]
    split <;> rfl
  · rfl

theorem settle_eq (s : State) (t i : Nat) (hk : (s.slot t i).kill = none) : s.settle t i = s.updArch t (atStop i) := by
  have h : ((s.updArch t (atStop i)).slot t i).kill = none := by rw [slot_atStop]; exact hk
  show (match ((s.updArch t (atStop i)).slot t i).kill with
    | some keep => (s.updArch t (atStop i)).freeSlot t i keep
    | none => s.updArch t (atStop i)) = _
  rw [h]

/-- A stop point of a slot that no kill waits for leaves every slot as it was, and of the control thread only a cut that dt.cbar waits for changes. -/
theorem settle_of_no_kill (s : State) (t i : Nat) (hk : (s.slot t i).kill = none) :
    (∀ u j, (s.settle t i).slot u j = s.slot u j) ∧ (s.settle t i).mem = s.mem ∧
    (∀ u, ((s.settle t i).ctl u).d = (s.ctl u).d ∧ ((s.settle t i).ctl u).x = (s.ctl u).x ∧ ((s.settle t i).ctl u).pc = (s.ctl u).pc) ∧
    (s.settle t i).fTask = s.fTask ∧ (s.settle t i).fSlot = s.fSlot := by
  rw [settle_eq s t i hk]
  refine ⟨slot_atStop s t i, rfl, fun u => ?_, rfl, rfl⟩
  simp only [State.ctl, arch_updArch]
  split
  · next h => subst h; exact atStop_ctl i _
  · exact ⟨rfl, rfl, rfl⟩

/-- A head that waits stops the line at itself. -/
theorem waitsFor_waitAt (s : State) (w : Wr) (c : Cond) (h : s.fSlot < 10) (hk : s.cur.kill = none) : waitsFor s (s.waitAt w c) w c := by
  have hc : (s.updCur (fun x => { x with st := .waiting, wr := w, cond := c, since := s.now })).slot s.fTask s.fSlot
      = { s.cur with st := .waiting, wr := w, cond := c, since := s.now } := cur_updCur s _ h
  obtain ⟨hs, -, -, hT, hF⟩ := settle_of_no_kill (s.updCur (fun x => { x with st := .waiting, wr := w, cond := c, since := s.now })) s.fTask s.fSlot
    (by rw [hc]; exact hk)
  have : (s.waitAt w c).cur = { s.cur with st := .waiting, wr := w, cond := c, since := s.now } := by
    show (s.waitAt w c).slot (s.waitAt w c).fTask (s.waitAt w c).fSlot = _
    unfold State.waitAt; rw [hT, hF]; exact (hs _ _).trans hc
  unfold waitsFor; rw [this]
  exact ⟨rfl, rfl, rfl, rfl, rfl, rfl, rfl⟩

/-- A head that faults leaves its slot FAULTED at itself, with MTFINFO, MTFVAL and MTFPEND set. -/
theorem faultsWith_fault (s : State) (cause val : Nat) (h : s.fSlot < 10) (hk : s.cur.kill = none) (hc : cause < 256) :
    faultsWith s (s.fault cause val) cause val := by
  let f : Slot → Slot := fun x => { x with st := .faulted, wr := .none, cond := .none, cut := none, barEnd := none, part := [], far := none }
  let D : DCsr → DCsr := fun d => { d with mtfinfo := vset d.mtfinfo s.fSlot (mtfinfoOf s.cur.pc cause), mtfval := vset d.mtfval s.fSlot (BitVec.ofNat 64 val), mtfpend := d.mtfpend ||| BitVec.ofNat 10 (2 ^ s.fSlot) }
  let s1 := s.updArch s.fTask (fun a => (a.updSlot s.fSlot f).updD D)
  have h1 : s1.slot s.fTask s.fSlot = f s.cur := by
    simp only [s1, State.slot, arch_updArch, if_true]
    exact (slot_setSlot _ _ _ _ h).trans (if_pos rfl)
  have h2 : (s1.ctl s.fTask).d = D (s.ctl s.fTask).d := by
    simp only [s1, State.ctl, arch_updArch, if_true]; rfl
  have hk2 : keepsTasks s1 (s1.trigger s.fTask cause) := keepsTasks_trigger ..
  obtain ⟨hs, -, hd, hT, hF⟩ := settle_of_no_kill (s1.trigger s.fTask cause) s.fTask s.fSlot (by rw [hk2.slot, h1]; exact hk)
  have hcur : (s.fault cause val).cur = f s.cur := by
    show ((s1.trigger s.fTask cause).settle s.fTask s.fSlot).slot ((s1.trigger s.fTask cause).settle s.fTask s.fSlot).fTask
      ((s1.trigger s.fTask cause).settle s.fTask s.fSlot).fSlot = _
    rw [hT, hF, hk2.2.2.2.1, hk2.2.2.2.2]
    exact (hs _ _).trans ((hk2.slot _ _).trans h1)
  have hD : ((s.fault cause val).ctl s.fTask).d = D (s.ctl s.fTask).d :=
    ((hd s.fTask).1).trans ((congrArg Ctl.d (hk2.ctl _)).trans h2)
  refine ⟨?_, ?_, ?_, ?_, ?_, ?_⟩
  · rw [hcur]
  · rw [hcur]
  · rw [hcur]; exact ⟨rfl, rfl, rfl⟩
  · rw [hD]
    show BitVec.toNat (vget 0 (vset _ _ _) _) = _
    rw [vget_vset _ _ _ _ _ h, if_pos rfl]
    have hp := s.cur.pc.isLt
    simp only [mtfinfoOf, BitVec.toNat_ofNat, Nat.mod_eq_of_lt hc]
    exact Nat.mod_eq_of_lt (by omega)
  · rw [hD]
    show BitVec.toNat (vget 0 (vset _ _ _) _) = _
    rw [vget_vset _ _ _ _ _ h, if_pos rfl, BitVec.toNat_ofNat]
  · rw [hD]
    show (_ ||| BitVec.ofNat 10 (2 ^ s.fSlot)).getLsbD s.fSlot = true
    rw [BitVec.getLsbD_or, BitVec.getLsbD_ofNat, Nat.testBit_two_pow_self, decide_eq_true h, Bool.and_self, Bool.or_true]

/-! ### Branches (R181) -/

theorem branchesTo_branch (s : State) (pc : BitVec 56) (f : Slot → Slot) (addr : Nat) (h : s.fSlot < 10) (hp : pc.toNat = addr + 2)
    (hq : (f s.cur).q = s.cur.q) (hw : (f s.cur).pw = s.cur.pw) (hl : (f s.cur).line = s.cur.line)
    (hr : keepsRest { s.cur with ind := (f s.cur).ind } (f s.cur)) : branchesTo s (s.branch pc f) addr := by
  have hc : (s.branch pc f).cur = ({ f s.cur with line := { (f s.cur).line with target := some pc } } : Slot).advance := cur_retire s _ h
  refine ⟨⟨pc, ?_, hp⟩, ?_, ?_, ?_, ?_, onlySlot_retire s _⟩ <;> rw [hc]
  · rfl
  · exact hq
  · exact hw
  · exact hr
  · exact ⟨by show (f s.cur).line.next + 1 = _; rw [hl], by show (f s.cur).line.img = _; rw [hl], rfl⟩

/-! ### The control thread (R145) -/

theorem ctl_updCtl (s : State) (t u : Nat) (f : Ctl → Ctl) : (s.updCtl t f).ctl u = if t = u then f (s.ctl t) else s.ctl u := by
  simp only [State.updCtl, State.ctl, arch_updArch]; split <;> rfl

/-- An exception of the control thread: what is saved and where it goes. -/
theorem trapsTo_ctTrap (s : State) (t code : Nat) (val : Word) : trapsTo s (s.ctTrap t code val) t false code val := by
  have hk : keepsTasks (s.updCtl t (fun c => c.trap false code val)) (s.ctTrap t code val) := by
    unfold State.ctTrap; simp only; split
    · exact keepsTasks_trigger ..
    · exact keepsTasks.rfl' _
  have hc : (s.ctTrap t code val).ctl t = (s.ctl t).trap false code val := by
    rw [hk.ctl, ctl_updCtl, if_pos rfl]
  have hb : sameBytes s (s.ctTrap t code val) := fun k => hk.bytes k
  unfold trapsTo; simp only [hc]
  refine ⟨rfl, by simp [Ctl.trap, b01], rfl, rfl, rfl, by simp [Ctl.trap], rfl, by simp [Ctl.trap, trapPc], rfl, rfl, rfl, hb⟩

/-- The control thread completes an instruction that changes its own state by `f`. -/
theorem ctl_ctNext (s : State) (t n : Nat) (f : Ctl → Ctl) :
    (s.ctNext t n f).ctl t = { f (s.ctl t) with pc := (s.ctl t).pc + BitVec.ofNat 64 n, ahead := [],
                                                s := { (f (s.ctl t)).s with instret := (f (s.ctl t)).s.instret + 1 } } := by
  simp [State.ctNext, ctl_updCtl]

/-- A control-thread instruction that writes `v` to rd does only that. -/
theorem ctWrites_ctNext (s : State) (rd : XReg) (v : Word) :
    ctWrites s (s.ctNext s.fTask s.fLen (fun c => c.setX rd v)) rd v := by
  have hX : ∀ r, (((s.ctl s.fTask).setX rd v)).getX r = if r = 0 then 0 else if rd = r then v else (s.ctl s.fTask).getX r := fun r => getX_setX _ _ _ _
  have hs : ((s.ctl s.fTask).setX rd v).s = (s.ctl s.fTask).s := by unfold Ctl.setX; split <;> rfl
  have hd : ((s.ctl s.fTask).setX rd v).d = (s.ctl s.fTask).d := by unfold Ctl.setX; split <;> rfl
  have hm : ((s.ctl s.fTask).setX rd v).mode = (s.ctl s.fTask).mode := by unfold Ctl.setX; split <;> rfl
  have hr : ((s.ctl s.fTask).setX rd v).resv = (s.ctl s.fTask).resv := by unfold Ctl.setX; split <;> rfl
  have h0 : (s.ctl s.fTask).getX 0 = 0 := by simp [Ctl.getX]
  unfold ctWrites
  simp only [ctl_ctNext]
  refine ⟨?_, fun r hne => ?_, trivial, by rw [hs], hd, hm, hr, ?_, fun _ => rfl⟩
  · exact (hX rd).trans (by simp)
  · refine (hX r).trans ?_
    by_cases hz : r = 0
    · rw [if_pos hz, hz, h0]
    · rw [if_neg hz, if_neg (Ne.symm hne)]
  · simp only [State.ctNext, State.updCtl, State.updArch, State.updTask, State.ctl, State.arch, Task.updArch, Arch.updCtl]

end Sys2Proof.Machine
end

