-- ==== Sys2Proof/Laws/Heads.lean ====
section
/-! SUPPORT. Laws of the operations that families of heads share: references, vector heads, and the acceptance of commands. -/
namespace Sys2Proof.Machine

/-! ### References (R50, R57) -/

theorem reference_here (s : State) (ea n : Nat) (need : Need) (k : Nat → State) (off : Nat) (h : refersTo s ea n need off) :
    s.reference ea n need k = k off := by
  obtain ⟨ht, hd, hf⟩ := h
  simp [State.reference, ht, hd, hf]
theorem reference_stalls (s : State) (ea n : Nat) (need : Need) (k : Nat → State) (off : Nat) (ht : s.target ea n = .here off)
    (hd : s.me.arch.denied need off n = false) (hf : s.me.arch.fenceStalls s.cur = true) : s.reference ea n need k = s := by
  simp [State.reference, ht, hd, hf]
theorem reference_denied (s : State) (ea n : Nat) (need : Need) (k : Nat → State) (off : Nat) (ht : s.target ea n = .here off)
    (hd : s.me.arch.denied need off n = true) : s.reference ea n need k = s.fault 0x04 ea := by
  simp [State.reference, ht, hd]
theorem reference_fault (s : State) (ea n : Nat) (need : Need) (k : Nat → State) (c v : Nat) (ht : s.target ea n = .fault c v) :
    s.reference ea n need k = s.fault c v := by
  simp [State.reference, ht]

/-! ### Vector heads (R216, R241) -/

theorem vector_on (s : State) (i : Instr) (g : Guard) (l : Letter) (k : State → State) (h : readyV s i g l) :
    vector g l k s = .next (k s) := by
  obtain ⟨⟨-, -, hg⟩, hs, hl⟩ := h
  simp [vector, hs, head_on g l k s hg hl]
theorem vector_off (s : State) (g : Guard) (l : Letter) (k : State → State) (h : s.cur.holds g = false) :
    vector g l k s = .next (s.retire id) := by
  simp [vector, h, head_off g l k s h]

/-! ### Commands (R244 to R247) -/

theorem bits_eq (n hi lo : Nat) : bits n hi lo = n / 2 ^ lo % 2 ^ (hi + 1 - lo) := by
  simp [bits, Nat.shiftRight_eq_div_pow]

theorem syncOf_eq (s : State) (y : Sync) : s.syncOf y = syncSays s y := by
  match y with
  | .short => rfl
  | .field none => rfl
  | .field (some r) =>
    have hr := (s.cur.getM r).isLt
    have h57 : (s.cur.getM r).toNat / 2 ^ 57 % 2 ^ (63 + 1 - 57) = (s.cur.getM r).toNat / 2 ^ 57 := Nat.mod_eq_of_lt (by omega)
    simp only [State.syncOf, syncSays, SyncReg.of, syncOk, bits_eq, bit, h57]
    simp

theorem accept_full (s : State) (major q : Nat) (y : Sync) (mk : State → CmdOp × Option (Nat × Nat))
    (h : (s.eng s.fTask).full = true) : s.accept major q y mk = s.waitAt .engineSem .ring := by
  have h' : (s.arch s.fTask).eng.full = true := h
  simp [State.accept, h']

/-- A command that the ring has room for becomes the last of its engine, and the slot goes on. -/
theorem accepts_accept (s : State) (major q : Nat) (y : Sync) (op : CmdOp) (fault : Option (Nat × Nat))
    (mk : State → CmdOp × Option (Nat × Nat)) (hm : mk s = (op, fault)) (h10 : s.fSlot < 10) (h : (s.eng s.fTask).full = false) :
    accepts s (s.accept major q y mk) major q y op fault := by
  have h' : (s.arch s.fTask).eng.full = false := h
  have key : ∃ (f : Eng → Eng) (c : Cmd), s.accept major q y mk = (s.updEng s.fTask f).retireOrd id ∧
      (f (s.eng s.fTask)).cmds.getLast? = some c ∧ (f (s.eng s.fTask)).count = (s.eng s.fTask).count + 1 ∧
      c.uid = (s.eng s.fTask).count ∧ c.major = major ∧ c.queue = q ∧ c.slot = s.fSlot ∧
      c.st = (if (s.ctl s.fTask).d.emptied q then .discarded else .accepted) ∧ c.op = op ∧
      c.sync = (syncSays s y).1 ∧ c.fault = (if (syncSays s y).2 then fault else some (0x16, 0)) := by
    let a := s.arch s.fTask
    let c : Cmd :=
      { uid := a.eng.count, major := major, queue := q, slot := s.fSlot, st := if a.ctl.d.emptied q then .discarded else .accepted, op := (mk s).1,
        fault := if (s.syncOf y).2 then (mk s).2 else malformed, sync := (s.syncOf y).1, path := none, leases := [], landed := [], sent := [],
        counted := none, begunAt := 0, nx := false, pal2 := .identity, pal3 := .identity, again := false, after := a.serial,
        fence := s.cur.fenced, met := false, seen := s.farFor q (mk s).1 (s.syncOf y).1 }
    refine ⟨fun e => { e with count := e.count + 1, cmds := (e.cmds ++ [c]).drop (e.cmds.length - 63) }, c,
      by simp only [State.accept, h', if_false, Bool.false_eq_true]; rfl, ?_, rfl, rfl, rfl, rfl, rfl, rfl, ?_, ?_, ?_⟩
    · show List.getLast? (List.drop _ (_ ++ [c])) = _
      rw [List.getLast?_drop, if_neg (by rw [List.length_append, List.length_singleton]; omega)]
      exact List.getLast?_concat
    · show (mk s).1 = op
      rw [hm]
    · show (s.syncOf y).1 = _
      rw [syncOf_eq]
    · show (if (s.syncOf y).2 then (mk s).2 else malformed) = _
      rw [syncOf_eq, hm]; rfl
  obtain ⟨f, c, he, hl, hn, hc⟩ := key
  have h1 : ∀ u j, (s.updEng s.fTask f).slot u j = s.slot u j := by
    intro u j
    simp only [State.updEng, State.slot, arch_updArch]; split
    · next hu => subst hu; rfl
    · rfl
  have h2 : ∀ u, (s.updEng s.fTask f).ctl u = s.ctl u := by
    intro u
    simp only [State.updEng, State.ctl, arch_updArch]; split
    · next hu => subst hu; rfl
    · rfl
  have hcur : ((s.updEng s.fTask f).retireOrd id).cur = s.cur.reread.advance := by
    refine (cur_retire (s.updEng s.fTask f) _ h10).trans ?_
    exact congrArg (fun x => (Slot.reread x).advance) (h1 s.fTask s.fSlot)
  have heng : ((s.updEng s.fTask f).retireOrd id).eng s.fTask = f (s.eng s.fTask) := by
    show ((s.updEng s.fTask f).updSlot s.fTask s.fSlot _).eng s.fTask = _
    rw [eng_updSlot]; simp only [State.updEng, State.eng, arch_updArch, if_true]; rfl
  rw [he]
  refine ⟨⟨c, by rw [heng]; exact hl, hc⟩, by rw [heng]; exact hn, ?_, ?_, ?_, ⟨?_, ?_⟩, fun _ => rfl⟩
  · rw [hcur]; exact ⟨rfl, rfl, rfl⟩
  · rw [hcur]; exact ⟨⟨rfl, rfl, rfl, rfl, rfl, rfl, rfl, rfl⟩, rfl⟩
  · rw [hcur]; exact ⟨rfl, rfl, rfl⟩
  · intro u i hne
    refine Eq.trans ?_ (h1 u i)
    show ((s.updEng s.fTask f).updSlot s.fTask s.fSlot _).slot u i = _
    rw [slot_updSlot _ _ _ _ _ _ h10, if_neg (fun hh => hne ⟨hh.1.symm, hh.2.symm⟩)]
  · intro u
    have : ((s.updEng s.fTask f).retireOrd id).ctl u = s.ctl u := (ctl_updSlot _ _ _ _ _).trans (h2 u)
    rw [this]; exact ⟨rfl, rfl, rfl, rfl, rfl⟩

end Sys2Proof.Machine
end

