-- ==== Sys2Proof/Laws/Lanes.lean ====
section
/-! SUPPORT. Lanes: a lane of a register built from lanes. -/
namespace Sys2Proof.Machine

theorem packed_lt (w : Nat) (l : List Nat) : l.foldr (fun x acc => x % 2 ^ w + acc * 2 ^ w) 0 < 2 ^ (w * l.length) := by
  induction l with
  | nil => simp
  | cons x l ih =>
    have hx : x % 2 ^ w < 2 ^ w := Nat.mod_lt _ (Nat.two_pow_pos _)
    simp only [List.foldr_cons, List.length_cons, Nat.mul_succ, Nat.pow_add]
    have h1 : l.foldr (fun x acc => x % 2 ^ w + acc * 2 ^ w) 0 + 1 ≤ 2 ^ (w * l.length) := ih
    calc _ < 2 ^ w + l.foldr (fun x acc => x % 2 ^ w + acc * 2 ^ w) 0 * 2 ^ w := by omega
      _ = (l.foldr (fun x acc => x % 2 ^ w + acc * 2 ^ w) 0 + 1) * 2 ^ w := by rw [Nat.add_mul, Nat.one_mul, Nat.add_comm]
      _ ≤ 2 ^ (w * l.length) * 2 ^ w := Nat.mul_le_mul_right _ h1

theorem packed_lane (w : Nat) (l : List Nat) (i : Nat) :
    l.foldr (fun x acc => x % 2 ^ w + acc * 2 ^ w) 0 / 2 ^ (w * i) % 2 ^ w = l.getD i 0 % 2 ^ w := by
  induction l generalizing i with
  | nil => simp
  | cons x l ih =>
    have hx : x % 2 ^ w < 2 ^ w := Nat.mod_lt _ (Nat.two_pow_pos _)
    simp only [List.foldr_cons]
    cases i with
    | zero => simp [Nat.add_mul_mod_self_right]
    | succ i =>
      rw [Nat.mul_succ, Nat.add_comm (w * i) w, Nat.pow_add, ← Nat.div_div_eq_div_mul, Nat.add_mul_div_right _ _ (Nat.two_pow_pos _),
        Nat.div_eq_of_lt hx, Nat.zero_add, ih]
      simp

/-- Lane `i` of a register built from lanes of width `w` is entry `i` of the list. -/
theorem laneAt_ofLanes (w : Nat) (l : List Nat) (i : Nat) (h : w * l.length ≤ 128) :
    laneAt (ofLanes w l) w i = l.getD i 0 % 2 ^ w := by
  have hlt : l.foldr (fun x acc => x % 2 ^ w + acc * 2 ^ w) 0 < 2 ^ 128 :=
    Nat.lt_of_lt_of_le (packed_lt w l) (Nat.pow_le_pow_right (by omega) h)
  rw [laneAt, ofLanes, BitVec.toNat_ofNat, Nat.mod_eq_of_lt hlt, packed_lane]

theorem laneBits_mul_lanes (t : LaneT) : WellFormed.laneBits t * WellFormed.lanes t = 128 := by cases t <;> decide

/-- A lane of a form that works lane by lane on two sources. -/
theorem laneAt_map2 (t : LaneT) (f : Nat → Nat → Nat) (a b : Quad) (i : Nat) (h : i < WellFormed.lanes t) :
    laneAt (map2 t f a b) (WellFormed.laneBits t) i = f (laneAt a (WellFormed.laneBits t) i) (laneAt b (WellFormed.laneBits t) i) % 2 ^ WellFormed.laneBits t := by
  rw [map2, laneAt_ofLanes _ _ _ (by simp [laneBits_mul_lanes]), List.getD_eq_getElem?_getD, List.getElem?_map,
    List.getElem?_range h]
  rfl

/-- A lane of a form that works lane by lane on one source. -/
theorem laneAt_map1 (t : LaneT) (f : Nat → Nat) (a : Quad) (i : Nat) (h : i < WellFormed.lanes t) :
    laneAt (map1 t f a) (WellFormed.laneBits t) i = f (laneAt a (WellFormed.laneBits t) i) % 2 ^ WellFormed.laneBits t := by
  rw [map1, laneAt_ofLanes _ _ _ (by simp [lanesOf, laneBits_mul_lanes]), lanesOf, List.map_map,
    List.getD_eq_getElem?_getD, List.getElem?_map, List.getElem?_range h]
  rfl

theorem laneAt_lt (q : Quad) (w i : Nat) : laneAt q w i < 2 ^ w := Nat.mod_lt _ (Nat.two_pow_pos _)

end Sys2Proof.Machine
end

