-- ==== Sys2Proof/Laws/PerInstr.lean ====
section
/-! SUPPORT. One lemma per instruction: which instructions have words. -/
namespace Sys2Proof.Laws.Words
open Sys2Proof Sys2Proof.Machine

/-- A standard instruction of the control thread, for which the model has a decoder and no encoder. -/
def standard : Instr → Bool
  | .controlThreadInstruction _ => true
  | _ => false

/-- The encoder gives words exactly to the heads, the custom control-thread instructions and the records. -/
def Statement (i : Instr) : Prop := (Decode.encode i).isSome = !(isEvent i || standard i)

theorem nop : Statement .nop := rfl
theorem br (delta_ : Imm) (g_ : Guard) : Statement (.br delta_ g_) := rfl
theorem brx (d_ : Reg) (g_ : Guard) : Statement (.brx d_ g_) := rfl
theorem call (d_ : Reg) (delta_ : Imm) (g_ : Guard) : Statement (.call d_ delta_ g_) := rfl
theorem callx (d_ : Reg) (a_ : Reg) (g_ : Guard) : Statement (.callx d_ a_ g_) := rfl
theorem loop (d_ : Reg) (delta_ : BitVec 16) (g_ : Guard) : Statement (.loop d_ delta_ g_) := rfl
theorem fetch (delta_ : Imm) (g_ : Guard) : Statement (.fetch delta_ g_) := rfl
theorem fetchReg (a_ : Reg) (g_ : Guard) : Statement (.fetchReg a_ g_) := rfl
theorem stop (g_ : Guard) : Statement (.stop g_) := rfl
theorem yield (g_ : Guard) : Statement (.yield g_) := rfl
theorem safept (mask_ : BitVec 27) : Statement (.safept mask_) := rfl
theorem rdsys (d_ : Reg) (csr_ : BitVec 12) (g_ : Guard) : Statement (.rdsys d_ csr_ g_) := rfl
theorem fenceCore (g_ : Guard) : Statement (.fenceCore g_) := rfl
theorem id (f_ : IdSel) (d_ : Reg) (g_ : Guard) : Statement (.id f_ d_ g_) := rfl
theorem plog (f_ : PlogOp) (d_ : Reg) (a_ : Reg) (b_ : Reg) (g_ : Guard) : Statement (.plog f_ d_ a_ b_ g_) := rfl
theorem pmov (d_ : Reg) (g_ : Guard) : Statement (.pmov d_ g_) := rfl
theorem pmovPw (a_ : Reg) (g_ : Guard) : Statement (.pmovPw a_ g_) := rfl
theorem pset (v_ : Bool) (d_ : Reg) (g_ : Guard) : Statement (.pset v_ d_ g_) := rfl
theorem alu (f_ : AluOp) (d_ : Reg) (a_ : Reg) (b_ : Reg) (g_ : Guard) : Statement (.alu f_ d_ a_ b_ g_) := rfl
theorem shf (f_ : ShOp) (d_ : Reg) (a_ : Reg) (b_ : Reg) (g_ : Guard) : Statement (.shf f_ d_ a_ b_ g_) := rfl
theorem mul (f_ : MulOp) (d_ : Reg) (a_ : Reg) (b_ : Reg) (g_ : Guard) : Statement (.mul f_ d_ a_ b_ g_) := rfl
theorem div (f_ : DivOp) (d_ : Reg) (a_ : Reg) (b_ : Reg) (g_ : Guard) : Statement (.div f_ d_ a_ b_ g_) := rfl
theorem minmax (f_ : MmOp) (d_ : Reg) (a_ : Reg) (b_ : Reg) (g_ : Guard) : Statement (.minmax f_ d_ a_ b_ g_) := rfl
theorem bitc (f_ : BitOp) (d_ : Reg) (a_ : Reg) (g_ : Guard) : Statement (.bitc f_ d_ a_ g_) := rfl
theorem bext (d_ : Reg) (a_ : Reg) (off_ : BitVec 7) (wid_ : BitVec 7) (g_ : Guard) : Statement (.bext d_ a_ off_ wid_ g_) := rfl
theorem bextReg (d_ : Reg) (a_ : Reg) (b_ : Reg) (g_ : Guard) : Statement (.bextReg d_ a_ b_ g_) := rfl
theorem bins (d_ : Reg) (a_ : Reg) (off_ : BitVec 7) (wid_ : BitVec 7) (g_ : Guard) : Statement (.bins d_ a_ off_ wid_ g_) := rfl
theorem binsReg (d_ : Reg) (a_ : Reg) (b_ : Reg) (g_ : Guard) : Statement (.binsReg d_ a_ b_ g_) := rfl
theorem addi (d_ : Reg) (a_ : Reg) (imm_ : Imm) (g_ : Guard) : Statement (.addi d_ a_ imm_ g_) := rfl
theorem alui (f_ : AluiOp) (d_ : Reg) (a_ : Reg) (imm_ : Imm) (g_ : Guard) : Statement (.alui f_ d_ a_ imm_ g_) := rfl
theorem shfi (f_ : ShOp) (d_ : Reg) (a_ : Reg) (n_ : BitVec 6) (g_ : Guard) : Statement (.shfi f_ d_ a_ n_ g_) := rfl
theorem movi (d_ : Reg) (imm_ : Imm) (g_ : Guard) : Statement (.movi d_ imm_ g_) := rfl
theorem movhi (d_ : Reg) (imm_ : BitVec 32) (g_ : Guard) : Statement (.movhi d_ imm_ g_) := rfl
theorem sel (d_ : Reg) (c_ : Reg) (a_ : Reg) (b_ : Reg) (g_ : Guard) : Statement (.sel d_ c_ a_ b_ g_) := rfl
theorem mkadr (d_ : Reg) (a_ : Reg) (b_ : Reg) (g_ : Guard) : Statement (.mkadr d_ a_ b_ g_) := rfl
theorem mkrel (d_ : Reg) (a_ : Reg) (b_ : Reg) (g_ : Guard) : Statement (.mkrel d_ a_ b_ g_) := rfl
theorem cmp (f_ : CmpOp) (d_ : Reg) (a_ : Reg) (b_ : Reg) (g_ : Guard) : Statement (.cmp f_ d_ a_ b_ g_) := rfl
theorem cmpi (f_ : CmpOp) (d_ : Reg) (a_ : Reg) (imm_ : Imm) (g_ : Guard) : Statement (.cmpi f_ d_ a_ imm_ g_) := rfl
theorem ld (f_ : LdW) (d_ : Reg) (a_ : Reg) (imm_ : Imm) (g_ : Guard) : Statement (.ld f_ d_ a_ imm_ g_) := rfl
theorem st (f_ : StW) (d_ : Reg) (a_ : Reg) (imm_ : Imm) (g_ : Guard) : Statement (.st f_ d_ a_ imm_ g_) := rfl
theorem ldl (f_ : LdW) (d_ : Reg) (delta_ : BitVec 10) (off_ : BitVec 6) (g_ : Guard) : Statement (.ldl f_ d_ delta_ off_ g_) := rfl
theorem ldp (d_ : Reg) (a_ : Reg) (imm_ : Imm) (g_ : Guard) : Statement (.ldp d_ a_ imm_ g_) := rfl
theorem stp (d_ : Reg) (a_ : Reg) (imm_ : Imm) (g_ : Guard) : Statement (.stp d_ a_ imm_ g_) := rfl
theorem ldx (f_ : LdW) (d_ : Reg) (a_ : Reg) (b_ : Reg) (g_ : Guard) : Statement (.ldx f_ d_ a_ b_ g_) := rfl
theorem stx (f_ : StW) (d_ : Reg) (a_ : Reg) (b_ : Reg) (g_ : Guard) : Statement (.stx f_ d_ a_ b_ g_) := rfl
theorem aadd (o_ : AOrd) (w4_ : Bool) (d_ : Reg) (a_ : Reg) (b_ : Reg) (g_ : Guard) : Statement (.aadd o_ w4_ d_ a_ b_ g_) := rfl
theorem alog (f_ : ALogOp) (o_ : AOrd) (w4_ : Bool) (d_ : Reg) (a_ : Reg) (b_ : Reg) (g_ : Guard) : Statement (.alog f_ o_ w4_ d_ a_ b_ g_) := rfl
theorem amm (f_ : MmOp) (o_ : AOrd) (w4_ : Bool) (d_ : Reg) (a_ : Reg) (b_ : Reg) (g_ : Guard) : Statement (.amm f_ o_ w4_ d_ a_ b_ g_) := rfl
theorem aswp (o_ : AOrd) (w4_ : Bool) (d_ : Reg) (a_ : Reg) (b_ : Reg) (g_ : Guard) : Statement (.aswp o_ w4_ d_ a_ b_ g_) := rfl
theorem acas (o_ : AOrd) (w4_ : Bool) (d_ : Reg) (a_ : Reg) (b_ : Reg) (c_ : Reg) (g_ : Guard) : Statement (.acas o_ w4_ d_ a_ b_ c_ g_) := rfl
theorem spawn (d_ : Reg) (a_ : Reg) (b_ : Reg) (g_ : Guard) : Statement (.spawn d_ a_ b_ g_) := rfl
theorem go (a_ : Reg) (g_ : Guard) : Statement (.go a_ g_) := rfl
theorem home (g_ : Guard) : Statement (.home g_) := rfl
theorem lsend (d_ : Reg) (a_ : Reg) (slot_ : BitVec 4) (g_ : Guard) : Statement (.lsend d_ a_ slot_ g_) := rfl
theorem lrecv (d_ : Reg) (g_ : Guard) : Statement (.lrecv d_ g_) := rfl
theorem lpeek (d_ : Reg) (g_ : Guard) : Statement (.lpeek d_ g_) := rfl
theorem csyncSig (g_ : Guard) : Statement (.csyncSig g_) := rfl
theorem csyncWait (g_ : Guard) : Statement (.csyncWait g_) := rfl
theorem post (rel_ : Bool) (trig_ : Bool) (d_ : Reg) (a_ : Reg) (b_ : Reg) (tag_ : BitVec 6) (g_ : Guard) : Statement (.post rel_ trig_ d_ a_ b_ tag_ g_) := rfl
theorem recv (acq_ : Bool) (nw_ : Bool) (d_ : Reg) (tag_ : TagSrc) (b_ : Reg) (g_ : Guard) : Statement (.recv acq_ nw_ d_ tag_ b_ g_) := by cases tag_ <;> rfl
theorem bind (d_ : Reg) (a_ : Reg) (tag_ : BitVec 6) (g_ : Guard) : Statement (.bind d_ a_ tag_ g_) := rfl
theorem unbind (d_ : Reg) (tag_ : BitVec 6) (g_ : Guard) : Statement (.unbind d_ tag_ g_) := rfl
theorem rebind (d_ : Reg) (tag_ : BitVec 6) (g_ : Guard) : Statement (.rebind d_ tag_ g_) := rfl
theorem exch (l_ : BitVec 3) (g_ : Guard) : Statement (.exch l_ g_) := rfl
theorem bar (l_ : BitVec 3) (g_ : Guard) : Statement (.bar l_ g_) := rfl
theorem barx (op_ : BarOp) (l_ : BitVec 3) (d_ : Reg) (a_ : Reg) (g_ : Guard) : Statement (.barx op_ l_ d_ a_ g_) := rfl
theorem barxNc (op_ : BarOp) (l_ : BitVec 3) (d_ : Reg) (g_ : Guard) : Statement (.barxNc op_ l_ d_ g_) := rfl
theorem bara (l_ : BitVec 3) (a_ : Reg) (g_ : Guard) : Statement (.bara l_ a_ g_) := rfl
theorem baraImm (l_ : BitVec 3) (code_ : BitVec 15) (g_ : Guard) : Statement (.baraImm l_ code_ g_) := rfl
theorem vadd (t_ : LaneT) (o_ : Ovf) (d_ : Reg) (a_ : Reg) (b_ : Reg) (g_ : Guard) : Statement (.vadd t_ o_ d_ a_ b_ g_) := rfl
theorem vsub (t_ : LaneT) (o_ : Ovf) (d_ : Reg) (a_ : Reg) (b_ : Reg) (g_ : Guard) : Statement (.vsub t_ o_ d_ a_ b_ g_) := rfl
theorem vmul (t_ : LaneT) (o_ : Ovf) (d_ : Reg) (a_ : Reg) (b_ : Reg) (g_ : Guard) : Statement (.vmul t_ o_ d_ a_ b_ g_) := rfl
theorem vfma (t_ : LaneT) (d_ : Reg) (a_ : Reg) (b_ : Reg) (c_ : Reg) (g_ : Guard) : Statement (.vfma t_ d_ a_ b_ c_ g_) := rfl
theorem vmin (t_ : LaneT) (o_ : Ovf) (d_ : Reg) (a_ : Reg) (b_ : Reg) (g_ : Guard) : Statement (.vmin t_ o_ d_ a_ b_ g_) := rfl
theorem vmax (t_ : LaneT) (o_ : Ovf) (d_ : Reg) (a_ : Reg) (b_ : Reg) (g_ : Guard) : Statement (.vmax t_ o_ d_ a_ b_ g_) := rfl
theorem vabs (t_ : LaneT) (o_ : Ovf) (d_ : Reg) (a_ : Reg) (g_ : Guard) : Statement (.vabs t_ o_ d_ a_ g_) := rfl
theorem vneg (t_ : LaneT) (o_ : Ovf) (d_ : Reg) (a_ : Reg) (g_ : Guard) : Statement (.vneg t_ o_ d_ a_ g_) := rfl
theorem vlog (f_ : VLogOp) (d_ : Reg) (a_ : Reg) (b_ : Reg) (g_ : Guard) : Statement (.vlog f_ d_ a_ b_ g_) := rfl
theorem vsh (f_ : VShOp) (t_ : LaneT) (d_ : Reg) (a_ : Reg) (n_ : ShAmt) (g_ : Guard) : Statement (.vsh f_ t_ d_ a_ n_ g_) := by cases n_ <;> rfl
theorem vcmp (f_ : VCmpOp) (t_ : LaneT) (d_ : Reg) (a_ : Reg) (b_ : Reg) (g_ : Guard) : Statement (.vcmp f_ t_ d_ a_ b_ g_) := rfl
theorem vsel (d_ : Reg) (c_ : Reg) (a_ : Reg) (b_ : Reg) (g_ : Guard) : Statement (.vsel d_ c_ a_ b_ g_) := rfl
theorem vdiv (t_ : LaneT) (d_ : Reg) (a_ : Reg) (b_ : Reg) (g_ : Guard) : Statement (.vdiv t_ d_ a_ b_ g_) := rfl
theorem vsqrt (t_ : LaneT) (d_ : Reg) (a_ : Reg) (g_ : Guard) : Statement (.vsqrt t_ d_ a_ g_) := rfl
theorem vmulh (t_ : LaneT) (u_ : Bool) (d_ : Reg) (a_ : Reg) (b_ : Reg) (g_ : Guard) : Statement (.vmulh t_ u_ d_ a_ b_ g_) := rfl
theorem vavg (t_ : LaneT) (u_ : Bool) (d_ : Reg) (a_ : Reg) (b_ : Reg) (g_ : Guard) : Statement (.vavg t_ u_ d_ a_ b_ g_) := rfl
theorem vcvt (dt_ : LaneT) (st_ : LaneT) (d_ : Reg) (a_ : Reg) (h_ : Option (BitVec 3)) (g_ : Guard) : Statement (.vcvt dt_ st_ d_ a_ h_ g_) := by cases h_ <;> rfl
theorem pdec (n_ : BitVec 2) (dt_ : LaneT) (d_ : Reg) (a_ : Reg) (g_ : Guard) : Statement (.pdec n_ dt_ d_ a_ g_) := rfl
theorem penc (n_ : BitVec 2) (st_ : LaneT) (d_ : Reg) (a_ : Reg) (g_ : Guard) : Statement (.penc n_ st_ d_ a_ g_) := rfl
theorem pload (n_ : BitVec 2) (a_ : Reg) (g_ : Guard) : Statement (.pload n_ a_ g_) := rfl
theorem vshuf (t_ : LaneT) (d_ : Reg) (a_ : Reg) (b_ : Reg) (g_ : Guard) : Statement (.vshuf t_ d_ a_ b_ g_) := rfl
theorem vrot (t_ : LaneT) (d_ : Reg) (a_ : Reg) (r_ : BitVec 4) (g_ : Guard) : Statement (.vrot t_ d_ a_ r_ g_) := rfl
theorem vzip (t_ : LaneT) (mode_ : Option ZipMode) (d_ : Reg) (a_ : Reg) (b_ : Reg) (g_ : Guard) : Statement (.vzip t_ mode_ d_ a_ b_ g_) := by cases mode_ <;> rfl
theorem vred (f_ : VRedOp) (t_ : LaneT) (d_ : Reg) (a_ : Reg) (g_ : Guard) : Statement (.vred f_ t_ d_ a_ g_) := rfl
theorem vdot (t_ : LaneT) (d_ : Reg) (a_ : Reg) (b_ : Reg) (g_ : Guard) : Statement (.vdot t_ d_ a_ b_ g_) := rfl
theorem vld (d_ : Reg) (a_ : Reg) (imm_ : Imm) (g_ : Guard) : Statement (.vld d_ a_ imm_ g_) := rfl
theorem vst (d_ : Reg) (a_ : Reg) (imm_ : Imm) (g_ : Guard) : Statement (.vst d_ a_ imm_ g_) := rfl
theorem vmov (d_ : Reg) (a_ : Reg) (g_ : Guard) : Statement (.vmov d_ a_ g_) := rfl
theorem vmovQm (d_ : Reg) (a_ : Reg) (g_ : Guard) : Statement (.vmovQm d_ a_ g_) := rfl
theorem vmovMq (d_ : Reg) (a_ : Reg) (g_ : Guard) : Statement (.vmovMq d_ a_ g_) := rfl
theorem vsplat (t_ : LaneT) (d_ : Reg) (a_ : Reg) (g_ : Guard) : Statement (.vsplat t_ d_ a_ g_) := rfl
theorem vlaneExt (t_ : LaneT) (d_ : Reg) (a_ : Reg) (k_ : BitVec 4) (g_ : Guard) : Statement (.vlaneExt t_ d_ a_ k_ g_) := rfl
theorem vlaneIns (t_ : LaneT) (d_ : Reg) (a_ : Reg) (k_ : BitVec 4) (g_ : Guard) : Statement (.vlaneIns t_ d_ a_ k_ g_) := rfl
theorem rep (heads_ : BitVec 3) (stride_ : BitVec 4) (passes_ : BitVec 8) : Statement (.rep heads_ stride_ passes_) := rfl
theorem vpack (f_ : PackF) (d_ : Reg) (a_ : Reg) (g_ : Guard) : Statement (.vpack f_ d_ a_ g_) := rfl
theorem vunpk (f_ : PackF) (d_ : Reg) (a_ : Reg) (g_ : Guard) : Statement (.vunpk f_ d_ a_ g_) := rfl
theorem ezmm (clear_ : Bool) (d_ : Reg) (a_ : Reg) (b_ : Reg) (y_ : Sync) (g_ : Guard) : Statement (.ezmm clear_ d_ a_ b_ y_ g_) := rfl
theorem ezmms (clear_ : Bool) (d_ : Reg) (a_ : Reg) (b_ : Reg) (y_ : Sync) (g_ : Guard) : Statement (.ezmms clear_ d_ a_ b_ y_ g_) := rfl
theorem ezring (d_ : Reg) (a_ : Reg) (y_ : Sync) (g_ : Guard) : Statement (.ezring d_ a_ y_ g_) := rfl
theorem ezfmt (d_ : Reg) (code_ : BitVec 4) (pal_ : BitVec 2) (sparse_ : Bool) (y_ : Option Reg) (g_ : Guard) : Statement (.ezfmt d_ code_ pal_ sparse_ y_ g_) := rfl
theorem ezpush (d_ : Reg) (n_ : BitVec 11) (y_ : Option Reg) (g_ : Guard) : Statement (.ezpush d_ n_ y_ g_) := rfl
theorem ezpop (d_ : Reg) (n_ : BitVec 11) (y_ : Option Reg) (g_ : Guard) : Statement (.ezpop d_ n_ y_ g_) := rfl
theorem ezqry (d_ : Reg) (k_ : BitVec 3) (g_ : Guard) : Statement (.ezqry d_ k_ g_) := rfl
theorem ezzld (d_ : Reg) (a_ : Reg) (y_ : Sync) (g_ : Guard) : Statement (.ezzld d_ a_ y_ g_) := rfl
theorem ezzst (d_ : Reg) (a_ : Reg) (mode_ : ZstMode) (y_ : Sync) (g_ : Guard) : Statement (.ezzst d_ a_ mode_ y_ g_) := rfl
theorem ezzclr (d_ : Reg) (y_ : Sync) (g_ : Guard) : Statement (.ezzclr d_ y_ g_) := rfl
theorem ezwf (y_ : Sync) (g_ : Guard) : Statement (.ezwf y_ g_) := rfl
theorem ezchk (on_ : Bool) (y_ : Sync) (g_ : Guard) : Statement (.ezchk on_ y_ g_) := rfl
theorem copy (q_ : Reg) (a_ : Reg) (b_ : Reg) (c_ : Reg) (y_ : Option Reg) (g_ : Guard) : Statement (.copy q_ a_ b_ c_ y_ g_) := rfl
theorem copy2 (q_ : Reg) (a_ : Reg) (y_ : Sync) (g_ : Guard) : Statement (.copy2 q_ a_ y_ g_) := rfl
theorem tload (q_ : Reg) (a_ : Reg) (pol_ : TPol) (y_ : Option Reg) (g_ : Guard) : Statement (.tload q_ a_ pol_ y_ g_) := rfl
theorem join (mask_ : BitVec 5) (g_ : Guard) : Statement (.join mask_ g_) := rfl
theorem drain (p_ : Path) (g_ : Guard) : Statement (.drain p_ g_) := rfl
theorem cqst (d_ : Reg) (g_ : Guard) : Statement (.cqst d_ g_) := rfl
theorem semw (d_ : Reg) (thr_ : BitVec 16) (g_ : Guard) : Statement (.semw d_ thr_ g_) := rfl
theorem sems (d_ : Reg) (inc_ : BitVec 16) (g_ : Guard) : Statement (.sems d_ inc_ g_) := rfl
theorem semrd (d_ : Reg) (a_ : Reg) (g_ : Guard) : Statement (.semrd d_ a_ g_) := rfl
theorem semini (d_ : Reg) (a_ : Reg) (g_ : Guard) : Statement (.semini d_ a_ g_) := rfl
theorem dtBcast (rd_ : XReg) (rs1_ : XReg) (rs2_ : XReg) : Statement (.dtBcast rd_ rs1_ rs2_) := rfl
theorem dtStart (rd_ : XReg) (rs1_ : XReg) (rs2_ : XReg) : Statement (.dtStart rd_ rs1_ rs2_) := rfl
theorem dtMtstat (rd_ : XReg) (rs1_ : XReg) : Statement (.dtMtstat rd_ rs1_) := rfl
theorem dtMtkill (rd_ : XReg) (rs1_ : XReg) : Statement (.dtMtkill rd_ rs1_) := rfl
theorem dtMtwait (rd_ : XReg) (rs1_ : XReg) : Statement (.dtMtwait rd_ rs1_) := rfl
theorem dtMtgo (rd_ : XReg) (rs1_ : XReg) : Statement (.dtMtgo rd_ rs1_) := rfl
theorem dtCbar : Statement .dtCbar := rfl
theorem dtLaunch (rd_ : XReg) (rs1_ : XReg) : Statement (.dtLaunch rd_ rs1_) := rfl
theorem dtLaunchW (rd_ : XReg) (rs1_ : XReg) : Statement (.dtLaunchW rd_ rs1_) := rfl
theorem dtTrigger : Statement .dtTrigger := rfl
theorem dtJoink (rd_ : XReg) (rs1_ : XReg) : Statement (.dtJoink rd_ rs1_) := rfl
theorem dtPark (rd_ : XReg) (rs1_ : XReg) : Statement (.dtPark rd_ rs1_) := rfl
theorem dtResume (rs1_ : XReg) : Statement (.dtResume rs1_) := rfl
theorem dtLmigr (rd_ : XReg) (rs1_ : XReg) (rs2_ : XReg) : Statement (.dtLmigr rd_ rs1_ rs2_) := rfl
theorem dtCaps (rd_ : XReg) (rs1_ : XReg) : Statement (.dtCaps rd_ rs1_) := rfl
theorem dtHarvest (rd_ : XReg) (rs1_ : XReg) : Statement (.dtHarvest rd_ rs1_) := rfl
theorem dtNxset (nx_ : Bool) : Statement (.dtNxset nx_) := rfl
theorem controlThreadInstruction (i_ : Rv) : Statement (.controlThreadInstruction i_) := rfl
theorem nopq : Statement .nopq := rfl
theorem semwait (c_ : QCond) (val_ : BitVec 48) (addr_ : Word) : Statement (.semwait c_ val_ addr_) := rfl
theorem semsig (inc_ : BitVec 48) (addr_ : Word) : Statement (.semsig inc_ addr_) := rfl
theorem semset (val_ : BitVec 48) (addr_ : Word) : Statement (.semset val_ addr_) := rfl
theorem klaunch (sem_ : BitVec 48) (rec_ : Word) : Statement (.klaunch sem_ rec_) := rfl
theorem kcopy (desc_ : Word) : Statement (.kcopy desc_) := rfl
theorem qbar (bid_ : BitVec 6) (n1_ : BitVec 6) : Statement (.qbar bid_ n1_) := rfl
theorem intr (entry_ : BitVec 11) : Statement (.intr entry_) := rfl
theorem jump (target_ : Word) : Statement (.jump target_) := rfl
theorem callq (target_ : Word) : Statement (.callq target_) := rfl
theorem retq : Statement .retq := rfl
theorem waitidle : Statement .waitidle := rfl
theorem stamp (done_ : Bool) (addr_ : Word) : Statement (.stamp done_ addr_) := rfl
theorem fenceq : Statement .fenceq := rfl
theorem lineEntry (t_ : Nat) : Statement (.lineEntry t_) := rfl
theorem lineEnd (t_ : Nat) : Statement (.lineEnd t_) := rfl
theorem runBudgetReached (t_ : Nat) : Statement (.runBudgetReached t_) := rfl
theorem pipeIdleWake (t_ : Nat) : Statement (.pipeIdleWake t_) := rfl
theorem waitConditionHolds (t_ : Nat) (slot_ : Nat) : Statement (.waitConditionHolds t_ slot_) := rfl
theorem sequencerIssue (t_ : Nat) : Statement (.sequencerIssue t_) := rfl
theorem storeBufferLand (t_ : Nat) (slot_ : Nat) (idx_ : Nat) : Statement (.storeBufferLand t_ slot_ idx_) := rfl
theorem baleAccepted (t_ : Nat) (slot_ : Nat) : Statement (.baleAccepted t_ slot_) := rfl
theorem baleArrival (n_ : Nat) : Statement (.baleArrival n_) := rfl
theorem baleAdmission (t_ : Nat) : Statement (.baleAdmission t_) := rfl
theorem spawnCreditArrival (n_ : Nat) : Statement (.spawnCreditArrival n_) := rfl
theorem messageArrival (n_ : Nat) : Statement (.messageArrival n_) := rfl
theorem triggeredMessageArrival (n_ : Nat) : Statement (.triggeredMessageArrival n_) := rfl
theorem returnedPacketArrival (n_ : Nat) : Statement (.returnedPacketArrival n_) := rfl
theorem postReleaseSend (t_ : Nat) (idx_ : Nat) : Statement (.postReleaseSend t_ idx_) := rfl
theorem landingGrant (t_ : Nat) : Statement (.landingGrant t_) := rfl
theorem landingRetry (t_ : Nat) : Statement (.landingRetry t_) := rfl
theorem landingTimeout (t_ : Nat) : Statement (.landingTimeout t_) := rfl
theorem moveQuiescence (t_ : Nat) (easelDone_ : Bool) : Statement (.moveQuiescence t_ easelDone_) := rfl
theorem moveTransferComplete (t_ : Nat) : Statement (.moveTransferComplete t_) := rfl
theorem markerArrival (t_ : Nat) : Statement (.markerArrival t_) := rfl
theorem saveQuiescence (t_ : Nat) (easelDone_ : Bool) : Statement (.saveQuiescence t_ easelDone_) := rfl
theorem saveFrameWritten (t_ : Nat) : Statement (.saveFrameWritten t_) := rfl
theorem taskResume (t_ : Nat) : Statement (.taskResume t_) := rfl
theorem savedSenderResume (t_ : Nat) : Statement (.savedSenderResume t_) := rfl
theorem savedSenderResave (t_ : Nat) : Statement (.savedSenderResave t_) := rfl
theorem commandBegin (t_ : Nat) (q_ : Nat) : Statement (.commandBegin t_ q_) := rfl
theorem wordLanded (t_ : Nat) (num_ : Nat) (idx_ : Nat) : Statement (.wordLanded t_ num_ idx_) := rfl
theorem commandComplete (t_ : Nat) (q_ : Nat) : Statement (.commandComplete t_ q_) := rfl
theorem copyLeaseExpiry (t_ : Nat) (num_ : Nat) (idx_ : Nat) : Statement (.copyLeaseExpiry t_ num_ idx_) := rfl
theorem tloadDeadline (t_ : Nat) (num_ : Nat) : Statement (.tloadDeadline t_ num_) := rfl
theorem ctInterrupt (t_ : Nat) : Statement (.ctInterrupt t_) := rfl
theorem timerInterrupt (t_ : Nat) : Statement (.timerInterrupt t_) := rfl
theorem cbarComplete (t_ : Nat) : Statement (.cbarComplete t_) := rfl
theorem mtwaitReturn (t_ : Nat) : Statement (.mtwaitReturn t_) := rfl
theorem joinkReturn (t_ : Nat) : Statement (.joinkReturn t_) := rfl
theorem poolEntryFreed : Statement .poolEntryFreed := rfl
theorem texit (t_ : Nat) : Statement (.texit t_) := rfl
theorem tqpost (t_ : Nat) (v_ : Word) : Statement (.tqpost t_ v_) := rfl
theorem grpctlRearm (t_ : Nat) (level_ : BitVec 3) : Statement (.grpctlRearm t_ level_) := rfl
theorem grpctlRollback (t_ : Nat) : Statement (.grpctlRollback t_) := rfl
theorem grpctlKill (t_ : Nat) : Statement (.grpctlKill t_) := rfl
theorem elfaultClear (t_ : Nat) : Statement (.elfaultClear t_) := rfl
theorem mtfpendClear (t_ : Nat) (v_ : Word) : Statement (.mtfpendClear t_ v_) := rfl
theorem ctsyncGo (t_ : Nat) (v_ : Word) : Statement (.ctsyncGo t_ v_) := rfl
theorem lpareaWrite (t_ : Nat) (i_ : BitVec 4) (v_ : Word) : Statement (.lpareaWrite t_ i_ v_) := rfl
theorem registerWrite (r_ : RegName) (v_ : Word) : Statement (.registerWrite r_ v_) := rfl
theorem dependenceMet (c_ : Nat) (h_ : Nat) : Statement (.dependenceMet c_ h_) := rfl
theorem groupPlacement : Statement .groupPlacement := rfl
theorem placementStarvation (c_ : Nat) (h_ : Nat) (g_ : Nat) : Statement (.placementStarvation c_ h_ g_) := rfl
theorem masterElection : Statement .masterElection := rfl
theorem barrierArrivalSend (t_ : Nat) (level_ : BitVec 3) : Statement (.barrierArrivalSend t_ level_) := rfl
theorem barrierArrival (n_ : Nat) : Statement (.barrierArrival n_) := rfl
theorem watchdogExpiry (key_ : Nat) : Statement (.watchdogExpiry key_) := rfl
theorem nonrestartableMark (n_ : Nat) : Statement (.nonrestartableMark n_) := rfl
theorem rollbackTrigger (n_ : Nat) : Statement (.rollbackTrigger n_) := rfl
theorem rollbackRestore (t_ : Nat) : Statement (.rollbackRestore t_) := rfl
theorem rollbackRendezvous (gid_ : Nat) : Statement (.rollbackRendezvous gid_) := rfl
theorem podArrivalForward (key_ : Nat) : Statement (.podArrivalForward key_) := rfl
theorem podFrameArrival (f_ : PodFrame) : Statement (.podFrameArrival f_) := rfl
theorem podFrameResend (n_ : Nat) : Statement (.podFrameResend n_) := rfl
theorem contextCreate (c_ : Nat) : Statement (.contextCreate c_) := rfl
theorem contextAdmit (c_ : Nat) : Statement (.contextAdmit c_) := rfl
theorem contextEvict (c_ : Nat) : Statement (.contextEvict c_) := rfl
theorem contextStop (c_ : Nat) : Statement (.contextStop c_) := rfl
theorem contextDestroy (c_ : Nat) : Statement (.contextDestroy c_) := rfl
theorem evictionComplete (c_ : Nat) : Statement (.evictionComplete c_) := rfl
theorem destroyComplete (c_ : Nat) : Statement (.destroyComplete c_) := rfl
theorem queueCreate (q_ : Nat) : Statement (.queueCreate q_) := rfl
theorem queueResume (q_ : Nat) : Statement (.queueResume q_) := rfl
theorem queueDestroy (q_ : Nat) : Statement (.queueDestroy q_) := rfl
theorem queueDoorbell (q_ : Nat) (wptr_ : BitVec 32) : Statement (.queueDoorbell q_ wptr_) := rfl
theorem recordService (h_ : Nat) : Statement (.recordService h_) := rfl
theorem semwaitReread (q_ : Nat) : Statement (.semwaitReread q_) := rfl
theorem localWake (q_ : Nat) : Statement (.localWake q_) := rfl
theorem kcopyComplete (q_ : Nat) (n_ : Nat) : Statement (.kcopyComplete q_ n_) := rfl
theorem shoot (c_ : Nat) : Statement (.shoot c_) := rfl
theorem stage (c_ : Nat) : Statement (.stage c_) := rfl
theorem pageEvict (c_ : Nat) : Statement (.pageEvict c_) := rfl
theorem ephset (c_ : Nat) : Statement (.ephset c_) := rfl
theorem harvest (c_ : Nat) : Statement (.harvest c_) := rfl
theorem shootdownComplete (n_ : Nat) : Statement (.shootdownComplete n_) := rfl
theorem leaseExpiry (n_ : Nat) : Statement (.leaseExpiry n_) := rfl
theorem stagingDone (page_ : Nat) : Statement (.stagingDone page_) := rfl
theorem writebackDone (page_ : Nat) : Statement (.writebackDone page_) := rfl
theorem ephemeralDeadline (page_ : Nat) : Statement (.ephemeralDeadline page_) := rfl
theorem podMoveRequest (page_ : Nat) (requester_ : Nat) : Statement (.podMoveRequest page_ requester_) := rfl
theorem podSettleNotice (page_ : Nat) : Statement (.podSettleNotice page_) := rfl
theorem podSettleEnd (page_ : Nat) : Statement (.podSettleEnd page_) := rfl
theorem flitReceive (link_ : Nat) (fromLow_ : Bool) (flit_ : BitVec 512) : Statement (.flitReceive link_ fromLow_ flit_) := rfl
theorem replayTimeout (link_ : Nat) (fromLow_ : Bool) (ch_ : BitVec 5) (e_ : Bool) : Statement (.replayTimeout link_ fromLow_ ch_ e_) := rfl
theorem sidebandError (link_ : Nat) : Statement (.sidebandError link_) := rfl
theorem linkTrained (link_ : Nat) (half_ : Bool) (repair_ : Bool) : Statement (.linkTrained link_ half_ repair_) := rfl
theorem trainingFailed (link_ : Nat) : Statement (.trainingFailed link_) := rfl
theorem retrainTimeout (link_ : Nat) : Statement (.retrainTimeout link_) := rfl
theorem linkQuiesced (link_ : Nat) : Statement (.linkQuiesced link_) := rfl
theorem dieFence (d_ : Nat) : Statement (.dieFence d_) := rfl
theorem warmReset (d_ : Nat) : Statement (.warmReset d_) := rfl
theorem fenceInstant (d_ : Nat) : Statement (.fenceInstant d_) := rfl
theorem dieSpillDone : Statement .dieSpillDone := rfl
theorem dieResetDone : Statement .dieResetDone := rfl
theorem dieRestoreDone : Statement .dieRestoreDone := rfl
theorem dieReadmitDone : Statement .dieReadmitDone := rfl
theorem pwrcapWrite (v_ : Word) : Statement (.pwrcapWrite v_) := rfl
theorem pstepChange (pins_ : BitVec 2) : Statement (.pstepChange pins_) := rfl
theorem throttleStepAdd (draw_ : Nat) : Statement (.throttleStepAdd draw_) := rfl
theorem throttleStepRemove (predicted_ : Nat) : Statement (.throttleStepRemove predicted_) := rfl
theorem thermalCapAdjust (tj_ : Nat) : Statement (.thermalCapAdjust tj_) := rfl
theorem thermalTrip (tj_ : Nat) : Statement (.thermalTrip tj_) := rfl
theorem pfailAssert : Statement .pfailAssert := rfl
theorem pfImageSealed (held_ : Bool) : Statement (.pfImageSealed held_) := rfl
theorem pfailDeassert : Statement .pfailDeassert := rfl
theorem pfcopy (off_ : BitVec 20) : Statement (.pfcopy off_) := rfl
theorem pfcopyDone : Statement .pfcopyDone := rfl
theorem coldReset : Statement .coldReset := rfl
theorem bootok : Statement .bootok := rfl
theorem bootokTimeout : Statement .bootokTimeout := rfl
theorem uncorrectableError (key_ : Nat) : Statement (.uncorrectableError key_) := rfl
theorem junctionAboveWarn (tj_ : Nat) : Statement (.junctionAboveWarn tj_) := rfl
theorem cxlMemRequest (op_ : CxlOp) : Statement (.cxlMemRequest op_) := rfl
theorem spdmRequest (code_ : BitVec 8) : Statement (.spdmRequest code_) := rfl
theorem sendBufferEntrySent (t_ : Nat) (idx_ : Nat) : Statement (.sendBufferEntrySent t_ idx_) := rfl
theorem recordRetirement (q_ : Nat) : Statement (.recordRetirement q_) := rfl
theorem harvestComplete (n_ : Nat) : Statement (.harvestComplete n_) := rfl
theorem podMoveComplete (page_ : Nat) : Statement (.podMoveComplete page_) := rfl

end Sys2Proof.Laws.Words
end

