-- ==== Sys2Proof/Tests/Slice0.lean ====
section
/-! SUPPORT. Tests: ill-formed terms, words from the spec's encodings, single steps, and states that meet the hypotheses of the statements. -/
namespace Sys2Proof.Tests
open Sys2Proof Sys2Proof.Machine
set_option Elab.async false

/-! ### Ill-formed instructions (R126 step 2, R136 to R138) -/

/-- Register numbers outside their files, a missing tail, and immediates of a class the form does not take. -/
theorem test_illformed_registers_and_tails :
    [.alu .add 10 0 0 .always, .alu .add 0 15 0 .always, .alu .add 0 0 10 .always, .alu .add 0 0 0 .bare,
     .brx 10 .bare, .br .none .always, .br (.i16 0) .bare, .ldp 0 0 (.i32 0) .always, .ldp 1 0 .none .always, .ldp 10 0 .none .always,
     .ezring 8 0 .short .always, .ezzclr 4 .short .bare, .ezzclr 0 (.field none) .bare, .ezwf (.field (some 10)) .always,
     .copy 4 0 0 0 none .always, .ezpush 0 0 (some 10) .always, .semw 10 0 .always, .spawn 0 0 10 .always].all
      (fun i => !WellFormed.ok i) = true := by decide

/-- Field values that no form admits. -/
theorem test_illformed_fields :
    [.bext 0 0 0 65 .always, .bins 0 0 0 127 .always, .post false false 0 0 0 63 .always,
     .recv false false 0 (.imm 0) 1 .always, .recv false false 0 (.reg 10) 0 .always, .bind 0 0 63 .always, .unbind 0 63 .always,
     .rebind 0 63 .always, .exch 0 .bare, .bar 5 .bare, .barx .add 7 0 0 .always, .bara 0 0 .always, .pload 1 0 .always,
     .ezmm false 0 3 3 .short .always, .ezmms false 0 8 0 .short .always, .ezfmt 0 10 0 false none .always,
     .ezfmt 0 2 1 false none .always, .ezfmt 0 8 0 true none .always, .ezpop 0 1025 none .always, .ezzst 0 0 .bf16 .short .always,
     .lsend 0 0 10 .always].all (fun i => !WellFormed.ok i) = true := by decide

/-- Lane types and treatments that a vector form does not take. -/
theorem test_illformed_lanes :
    [.vadd .f32 .ss 0 0 0 .always, .vabs .i8 .us 0 0 .always, .vneg .f64 .ss 0 0 .always, .vfma .i8 0 0 0 0 .always,
     .vsqrt .i64 0 0 .always, .vlog .not 0 0 1 .always, .vsh .shl .f32 0 0 (.imm 0) .always, .vcmp .ltu .bf16 0 0 0 .always,
     .vmulh .f16 false 0 0 0 .always, .vcvt .i8 .i8 0 0 none .always, .vcvt .i8 .i16 0 0 (some 2) .always, .pdec 0 .f64 0 0 .always,
     .vshuf .f32 0 0 0 .always, .vrot .i64 0 0 2 .always, .vzip .bf16 none 0 0 0 .always, .vdot .i32 0 0 0 .always,
     .vlaneExt .i32 0 0 4 .always, .vlaneIns .f64 0 0 2 .always].all (fun i => !WellFormed.ok i) = true := by decide

/-! ### Words written out from the encodings of the spec (R117 to R142, R317) -/

/-- A head with its tail decodes to an instruction. -/
abbrev reads (head tail : Nat) (i : Instr) : Prop := (Decode.decodeHead head tail).toOption = some i

/-- R126: the worked line: LD, a guarded ADD, ADDI and LOOP, with their tails from the top of the line downward. -/
theorem test_worked_line :
    let z : List Half := List.replicate 20 0
    let l : List Half := [0x0200, 0x4093, 0x2098, 0x3100, 0x0B08, 0] ++ z ++ [0x0000, 0x0000, 0x0000, 0x0008, 0x3288, 0x0000]
    lineOk l = true ∧ lineHeads l = 4 ∧
    reads (slotOf l 1) (tailAt l 1) (.ld .d 2 0 .none .always) ∧ reads (slotOf l 2) (tailAt l 2) (.alu .add 3 3 2 (.on 1)) ∧
    reads (slotOf l 3) (tailAt l 3) (.addi 0 0 (.i16 8) .always) ∧ reads (slotOf l 4) (tailAt l 4) (.loop 1 0 .always) := by decide

/-- R136, R180, R187, R211: line, branch and system heads. -/
theorem test_words_flow :
    reads 0x0000 0 (.nop) ∧
    reads 0x0300 0xFFFE0098 (.br (.i16 0xFFFE) (.on 3)) ∧
    reads 0x0380 0x123456780000 (.br (.i32 0x12345678) .always) ∧
    reads 0x0448 0 (.brx 9 .bare) ∧
    reads 0x04C8 0xF8 (.brx 9 (.on 15)) ∧
    reads 0x0738 0x50000 (.call 7 (.i16 5) .always) ∧
    reads 0x08B0 0x5000 (.callx 6 5 .always) ∧
    reads 0x0B08 0xFFFF0080 (.loop 1 0xFFFF (.on 0)) ∧
    reads 0x0D80 0x20000 (.fetch (.i32 2) .always) ∧
    reads 0x0C81 0x8000 (.fetchReg 8 .always) ∧
    reads 0x0E80 0x90 (.stop (.on 2)) ∧
    reads 0x1000 0 (.yield .bare) ∧
    reads 0x1380 0x7FFFFFF0000 (.safept 0x7FFFFFF) ∧
    reads 0x1518 0xCD20000 (.rdsys 3 0xCD2 .always) ∧
    reads 0x1600 0 (.fenceCore .bare) ∧
    reads 0x1823 0 (.id .ident 4 .bare) := by decide

/-- R136, R188, R193, R194: predicate, arithmetic and compare heads. -/
theorem test_words_scalar :
    reads 0x1AFB 0xED00 (.plog .andn 15 14 13 .always) ∧
    reads 0x1C40 0 (.pmov 8 .bare) ∧
    reads 0x1C81 0x7000 (.pmovPw 7 .always) ∧
    reads 0x1E61 0 (.pset true 12 .bare) ∧
    reads 0x20CD 0x8700 (.alu .andn 9 8 7 .always) ∧
    reads 0x228C 0x23A0 (.shf .ror 1 2 3 (.on 4)) ∧
    reads 0x248B 0x2300 (.mul .mulhsu 1 2 3 .always) ∧
    reads 0x268A 0x2300 (.div .rem 1 2 3 .always) ∧
    reads 0x288B 0x2300 (.minmax .maxu 1 2 3 .always) ∧
    reads 0x2A8C 0x2000 (.bitc .bswap 1 2 .always) ∧
    reads 0x2D08 0x207F2000 (.bext 1 2 127 64 .always) ∧
    reads 0x2C89 0x2300 (.bextReg 1 2 3 .always) ∧
    reads 0x2F08 0x2892000 (.bins 1 2 9 5 .always) ∧
    reads 0x2E89 0x2300 (.binsReg 1 2 3 .always) ∧
    reads 0x3188 0x800000012000 (.addi 1 2 (.i32 0x80000001) .always) ∧
    reads 0x330B 0xF0F02000 (.alui .or 1 2 (.i16 0xF0F0) .always) ∧
    reads 0x350A 0x3F2000 (.shfi .sra 1 2 63 .always) ∧
    reads 0x3748 0x80000000 (.movi 9 (.i16 0x8000) .always) ∧
    reads 0x37C9 0xDEADBEEF0000 (.movhi 9 0xDEADBEEF .always) ∧
    reads 0x3908 0xC0002300 (.sel 1 12 2 3 .always) ∧
    reads 0x3A88 0x2300 (.mkadr 1 2 3 .always) ∧
    reads 0x3A89 0x2300 (.mkrel 1 2 3 .always) ∧
    reads 0x3CFC 0x2300 (.cmp .ge 15 2 3 .always) ∧
    reads 0x3F75 0x92000 (.cmpi .geu 14 2 (.i16 9) .always) := by decide

/-- R132, R136, R195, R200: local memory and atomics. -/
theorem test_words_memory :
    reads 0x408E 0x2000 (.ld .ws 1 2 .none .always) ∧
    reads 0x4309 0x62000 (.st .h 1 2 (.i16 6) .always) ∧
    reads 0x450D 0xFFFE0000 (.ldl .hs 1 0x3FF 62 .always) ∧
    reads 0x46C0 0x3000 (.ldp 8 3 .none .always) ∧
    reads 0x4930 0x103000 (.stp 6 3 (.i16 16) .always) ∧
    reads 0x4A8B 0x2300 (.ldx .d 1 2 3 .always) ∧
    reads 0x4C8A 0x2300 (.stx .w 1 2 3 .always) ∧
    reads 0x508D 0x2300 (.aadd .rel true 1 2 3 .always) ∧
    reads 0x528A 0x2302 (.alog .xor .acq false 1 2 3 .always) ∧
    reads 0x548F 0x2303 (.amm .maxu .ar true 1 2 3 .always) ∧
    reads 0x5688 0x2300 (.aswp .plain false 1 2 3 .always) ∧
    reads 0x590B 0x40002300 (.acas .ar false 1 2 3 4 .always) := by decide

/-- R136, R206 to R210, R278 to R284: travel, links, messages, barriers. -/
theorem test_words_messages :
    reads 0x6088 0x2388 (.spawn 1 2 3 (.on 1)) ∧
    reads 0x6280 0x4000 (.go 4 .always) ∧
    reads 0x6400 0 (.home .bare) ∧
    reads 0x6908 0x92000 (.lsend 1 2 9 .always) ∧
    reads 0x6A18 0 (.lrecv 3 .bare) ∧
    reads 0x6C98 0 (.lpeek 3 .always) ∧
    reads 0x6E00 0 (.csyncSig .bare) ∧
    reads 0x6E01 0 (.csyncWait .bare) ∧
    reads 0x7109 0x3E2300 (.post true false 1 2 3 62 .always) ∧
    reads 0x7289 0x2000 (.recv true false 1 (.reg 2) 0 .always) ∧
    reads 0x730A 0x3F0F00 (.recv false true 1 (.imm 63) 15 .always) ∧
    reads 0x7508 0x72000 (.bind 1 2 7 .always) ∧
    reads 0x7708 0x70000 (.unbind 1 7 .always) ∧
    reads 0x7709 0x70000 (.rebind 1 7 .always) ∧
    reads 0x7804 0 (.exch 4 .bare) ∧
    reads 0x7A01 0 (.bar 1 .bare) ∧
    reads 0x7CAA 0x6000 (.barx .fadd 2 5 6 .always) ∧
    reads 0x7D2B 0x10007 (.barxNc .or 3 5 .always) ∧
    reads 0x7E81 0x9000 (.bara 1 9 .always) ∧
    reads 0x7F04 0x7FFF0000 (.baraImm 4 0x7FFF .always) := by decide

/-- R137, R219 to R238: vector heads. -/
theorem test_words_vector :
    reads 0x80F8 0xED02 (.vadd .i8 .us 15 14 13 .always) ∧
    reads 0x828E 0x2300 (.vsub .f32 .wrap 1 2 3 .always) ∧
    reads 0x848B 0x2301 (.vmul .i64 .ss 1 2 3 .always) ∧
    reads 0x870C 0xB0002300 (.vfma .bf16 1 2 3 11 .always) ∧
    reads 0x8889 0x2302 (.vmin .i16 .us 1 2 3 .always) ∧
    reads 0x8A8D 0x2300 (.vmax .f16 .wrap 1 2 3 .always) ∧
    reads 0x8C8A 0x2001 (.vabs .i32 .ss 1 2 .always) ∧
    reads 0x8E8F 0x2000 (.vneg .f64 .wrap 1 2 .always) ∧
    reads 0x908B 0x2300 (.vlog .andn 1 2 3 .always) ∧
    reads 0x9288 0x2302 (.vsh .sra .i8 1 2 (.reg 3) .always) ∧
    reads 0x930B 0x7F2001 (.vsh .shr .i64 1 2 (.imm 127) .always) ∧
    reads 0x9488 0x2305 (.vcmp .leu .i8 1 2 3 .always) ∧
    reads 0x9708 0xC0002300 (.vsel 1 12 2 3 .always) ∧
    reads 0x988F 0x2300 (.vdiv .f64 1 2 3 .always) ∧
    reads 0x9A8E 0x2000 (.vsqrt .f32 1 2 .always) ∧
    reads 0x9C8A 0x2301 (.vmulh .i32 true 1 2 3 .always) ∧
    reads 0x9E88 0x2300 (.vavg .i8 false 1 2 3 .always) ∧
    reads 0xA08E 0x2002 (.vcvt .f32 .i32 1 2 none .always) ∧
    reads 0xA108 0x72007 (.vcvt .i8 .f64 1 2 (some 7) .always) ∧
    reads 0xA28B 0x2006 (.pdec 3 .f32 1 2 .always) ∧
    reads 0xA488 0x2004 (.penc 0 .bf16 1 2 .always) ∧
    reads 0xA682 0x9000 (.pload 2 9 .always) ∧
    reads 0xA888 0x2300 (.vshuf .i8 1 2 3 .always) ∧
    reads 0xA908 0xF2000 (.vrot .i8 1 2 15 .always) ∧
    reads 0xAA89 0x2300 (.vzip .i16 none 1 2 3 .always) ∧
    reads 0xAB09 0x32300 (.vzip .i16 (some .od) 1 2 3 .always) ∧
    reads 0xAC8F 0x2002 (.vred .max .f64 1 2 .always) ∧
    reads 0xAE8D 0x2300 (.vdot .f16 1 2 3 .always) ∧
    reads 0xB108 0xFFF02000 (.vld 1 2 (.i16 0xFFF0) .always) ∧
    reads 0xB288 0x2000 (.vst 1 2 .none .always) ∧
    reads 0xB488 0x2000 (.vmov 1 2 .always) ∧
    reads 0xB4D1 0x9000 (.vmovQm 10 9 .always) ∧
    reads 0xB4CA 0xA000 (.vmovMq 9 10 .always) ∧
    reads 0xB6D5 0x9000 (.vsplat .f16 10 9 .always) ∧
    reads 0xB948 0xFA000 (.vlaneExt .i8 9 10 15 .always) ∧
    reads 0xB957 0x19001 (.vlaneIns .f64 10 9 1 .always) ∧
    reads 0xBB00 0xFF7F0000 (.rep 7 15 255) ∧
    reads 0xBC89 0x2000 (.vpack .e3m2 1 2 .always) ∧
    reads 0xBE8B 0x2000 (.vunpk .int4 1 2 .always) := by decide

/-- R138, R245, R250 to R275: easel, copy and semaphore heads. -/
theorem test_words_engine :
    reads 0xC119 0xC8007600 (.ezmm true 3 7 6 (.field (some 9)) .always) ∧
    reads 0xC290 0x100 (.ezmms false 2 0 1 .short .always) ∧
    reads 0xC538 0x9000 (.ezring 7 9 (.field none) .always) ∧
    reads 0xCB08 0xA8630000 (.ezfmt 1 3 2 true (some 5) .always) ∧
    reads 0xC738 0x4000000 (.ezpush 7 1024 none .always) ∧
    reads 0xC938 0x80010000 (.ezpop 7 1 (some 0) .always) ∧
    reads 0xD748 0x70000 (.ezqry 9 7 .always) ∧
    reads 0xCC98 0x9000 (.ezzld 3 9 .short .always) ∧
    reads 0xCF18 0xA0029000 (.ezzst 3 9 .fp16 (.field (some 4)) .always) ∧
    reads 0xD018 0 (.ezzclr 3 .short .bare) ∧
    reads 0xD300 0x88000000 (.ezwf (.field (some 1)) .always) ∧
    reads 0xD401 0 (.ezchk true .short .bare) ∧
    reads 0xD998 0x4A8000003200 (.copy 3 3 2 4 (some 5) .always) ∧
    reads 0xDA98 0x8000 (.copy2 3 8 .short .always) ∧
    reads 0xDD10 0xB8028000 (.tload 2 8 .shadow (some 7) .always) ∧
    reads 0xDF00 0x1F0000 (.join 31 .always) ∧
    reads 0xE005 0 (.drain .pod .bare) ∧
    reads 0xE248 0 (.cqst 9 .bare) ∧
    reads 0xE548 0xFFFF0000 (.semw 9 0xFFFF .always) ∧
    reads 0xE748 0x20000 (.sems 9 2 .always) ∧
    reads 0xE8C8 0x8000 (.semrd 9 8 .always) ∧
    reads 0xEAC8 0x8000 (.semini 9 8 .always) := by decide

/-- R139, R140: the custom control-thread instructions; a nonzero field where R139 requires zero, and any other funct7, are illegal. -/
theorem test_words_dt :
    Decode.decodeDt 0x01DF0F8B = some (.dtBcast 31 30 29) ∧
    Decode.decodeDt 0x0231008B = some (.dtStart 1 2 3) ∧
    Decode.decodeDt 0x0401008B = some (.dtMtstat 1 2) ∧
    Decode.decodeDt 0x0601008B = some (.dtMtkill 1 2) ∧
    Decode.decodeDt 0x0801008B = some (.dtMtwait 1 2) ∧
    Decode.decodeDt 0x0A01008B = some (.dtMtgo 1 2) ∧
    Decode.decodeDt 0x0C00000B = some (.dtCbar) ∧
    Decode.decodeDt 0x000100AB = some (.dtLaunch 1 2) ∧
    Decode.decodeDt 0x020100AB = some (.dtLaunchW 1 2) ∧
    Decode.decodeDt 0x0400002B = some (.dtTrigger) ∧
    Decode.decodeDt 0x060100AB = some (.dtJoink 1 2) ∧
    Decode.decodeDt 0x080100AB = some (.dtPark 1 2) ∧
    Decode.decodeDt 0x0A01002B = some (.dtResume 2) ∧
    Decode.decodeDt 0x0C3100AB = some (.dtLmigr 1 2 3) ∧
    Decode.decodeDt 0x0E0100AB = some (.dtCaps 1 2) ∧
    Decode.decodeDt 0x100100AB = some (.dtHarvest 1 2) ∧
    Decode.decodeDt 0x0000102B = some (.dtNxset false) ∧
    Decode.decodeDt 0x0C00800B = none ∧ Decode.decodeDt 0x1200002B = none := by decide

/-- R317: queue records; a nonzero field marked 0, and a reserved OP, are refused. -/
theorem test_words_records :
    (Decode.decodeRec 0x0).toOption = some (.nopq) ∧
    (Decode.decodeRec 0x8FFFFFFFFFFFF0301).toOption = some (.semwait .lt 0xFFFFFFFFFFFF 8) ∧
    (Decode.decodeRec 0x100000000000050002).toOption = some (.semsig 5 16) ∧
    (Decode.decodeRec 0x100000000000050003).toOption = some (.semset 5 16) ∧
    (Decode.decodeRec 0x400000000000180004).toOption = some (.klaunch 24 64) ∧
    (Decode.decodeRec 0x300000000000000005).toOption = some (.kcopy 48) ∧
    (Decode.decodeRec 0x3E3F0006).toOption = some (.qbar 63 62) ∧
    (Decode.decodeRec 0x7FF0007).toOption = some (.intr 2047) ∧
    (Decode.decodeRec 0x200000000000000008).toOption = some (.jump 32) ∧
    (Decode.decodeRec 0x200000000000000009).toOption = some (.callq 32) ∧
    (Decode.decodeRec 0xA).toOption = some (.retq) ∧
    (Decode.decodeRec 0xB).toOption = some (.waitidle) ∧
    (Decode.decodeRec 0x8000000000000010C).toOption = some (.stamp true 8) ∧
    (Decode.decodeRec 0xD).toOption = some (.fenceq) ∧
    (Decode.decodeRec 0x10D).toOption = none ∧ (Decode.decodeRec 0xFF).toOption = none := by decide

/-- R145: words of RV64IMAC, as its own encoding tables give them, and their lengths. -/
theorem test_words_rv :
    let is := fun (w : Nat) (i : Rv) (n : Nat) => Decode.decodeCt w = some (.controlThreadInstruction i, n)
    is 0xFFF10093 (.opImm .addi 1 2 0xFFFF_FFFF_FFFF_FFFF) 4 ∧ is 0x123450B7 (.lui 1 0x1234_5000) 4 ∧
    is 0xFE2098E3 (.br .bne 1 2 0xFFFF_FFFF_FFFF_FFF0) 4 ∧ is 0x0080_00EF (.jal 1 8) 4 ∧ is 0x0001_3083 (.load .ld 1 2 0) 4 ∧
    is 0x0021_3423 (.store .d 2 2 8) 4 ∧ is 0x0231_00BB (.op .mulw 1 2 3) 4 ∧ is 0x4031_50BB (.op .sraw 1 2 3) 4 ∧
    is 0x1400_9073 (.csr .rw 0 0x140 (.reg 1)) 4 ∧ is 0x0000_0073 .ecall 4 ∧ is 0x1020_0073 .sret 4 ∧
    is 0x1000_B0AF (.lr true 1 1 false false) 4 ∧ is 0x0431_30AF (.amo .add true 1 2 3 true false) 4 ∧
    is 0x0505 (.opImm .addi 10 10 1) 2 ∧ is 0x9002 .ebreak 2 ∧ is 0x8082 (.jalr 0 1 0) 2 ∧ is 0x6502 (.load .ld 10 2 0) 2 ∧
    Decode.decodeCt 0 = none ∧ Decode.decodeCt 0x0000_000F = some (.controlThreadInstruction (.fence false), 4) := by decide

/-- Encodings that no instruction has: a reserved major, a reserved F, GP without GE, a nonzero unused field, a tail class the form does not take, and a reserved tag. -/
theorem test_words_refused :
    [(0xFE00, 0), (0x4E00, 0), (0x2005, 0x8000_0000), (0x2081, 0x0008), (0x0001, 0), (0x1020, 0), (0x2180, 0), (0x1821, 0x1),
     (0x7100, 0x003F_0000), (0x0380, 0x1_0001)].all (fun w => (Decode.decodeHead w.1 w.2).toOption == none) = true := by decide

/-! ### A small machine -/

/-- One task on core (0, 0, 0); its slot 0 is at head 1 of a line of one head. -/
def atHead : State :=
  { State.reset.addTask (Task.placed.updArch (fun a => a.setSlot 0 (Slot.inLine (oneHeadLine 0 0 0)))) with fTask := 1, fSlot := 0 }

/-- The same on a Vegaken die, d12. -/
def onVegaken : State := atHead.updTask 1 (fun k => { k with phys := ⟨12, 0, 0⟩, home := ⟨12, 0, 0⟩, coord := ⟨12, 0, 0⟩ })

def withM (l : List (Nat × Word)) (s : State) : State :=
  s.updCur (fun x => l.foldl (fun (x : Slot) p => { x with m := vset x.m p.1 p.2 }) x)
def withQ (l : List (Nat × Quad)) (s : State) : State :=
  s.updCur (fun x => l.foldl (fun (x : Slot) p => { x with q := vset x.q p.1 p.2 }) x)

/-- The state after an instruction; the state itself where it stops. -/
def ran (i : Instr) (s : State) : State :=
  match exec i s with
  | .next t => t
  | _ => s

/-- The cause of a slot's fault. -/
def causeOf (s : State) : Nat := (vget 0 (s.ctl s.fTask).d.mtfinfo s.fSlot).toNat / 2 ^ 56

/-! ### Single steps -/

theorem test_add_wraps : (ran (.alu .add 3 1 2 .always) (withM [(1, 0xFFFF_FFFF_FFFF_FFFF), (2, 2)] atHead)).cur.getM 3 = 1 := by decide

theorem test_add_source_is_destination : (ran (.alu .sub 1 1 1 .always) (withM [(1, 7)] atHead)).cur.getM 1 = 0 := by decide

/-- R190: division of the most negative number by −1, and by 0. -/
theorem test_div_corners :
    (ran (.div .div 3 1 2 .always) (withM [(1, 0x8000_0000_0000_0000), (2, 0xFFFF_FFFF_FFFF_FFFF)] atHead)).cur.getM 3 = 0x8000_0000_0000_0000 ∧
    (ran (.div .divu 3 1 2 .always) (withM [(1, 5)] atHead)).cur.getM 3 = 0xFFFF_FFFF_FFFF_FFFF ∧
    (ran (.div .rem 3 1 2 .always) (withM [(1, 0xFFFF_FFFF_FFFF_FFF9), (2, 2)] atHead)).cur.getM 3 = 0xFFFF_FFFF_FFFF_FFFF := by decide

/-- R124: a guard that does not hold leaves the destination and moves on. -/
theorem test_guard_off :
    let t := ran (.movi 3 (.i16 5) (.on 4)) atHead
    t.cur.getM 3 = 0 ∧ t.cur.line.next = 2 := by decide

/-- R191: a field that reaches past bit 63 reads 0 above it; BINS in register form takes a width above 64 as 64. -/
theorem test_bit_fields :
    (ran (.bext 3 1 60 8 .always) (withM [(1, 0xF000_0000_0000_0000)] atHead)).cur.getM 3 = 0xF ∧
    (ran (.binsReg 3 1 2 .always) (withM [(1, 0x1234), (2, 0xFF08), (3, 0x56)] atHead)).cur.getM 3 = 0x12_3456 := by decide

/-- R196, R68: a load sees the store before it in its own slot, and memory does not yet. -/
theorem test_load_sees_own_store :
    let s := ran (.st .w 1 2 (.i16 4) .always) (withM [(1, 0xFFFF_FFFE), (2, 0x400)] atHead)
    (ran (.ld .ws 3 2 (.i16 4) .always) s).cur.getM 3 = 0xFFFF_FFFF_FFFF_FFFE ∧ s.read (s.colKey 1 0x404) 4 = 0 := by decide

/-- R50, R54: a misaligned reference raises 0x05, one past the program data 0x04, one outside the column form 0x08. -/
theorem test_reference_causes :
    causeOf (ran (.ld .d 3 1 .none .always) (withM [(1, 0x401)] atHead)) = 5 ∧
    causeOf (ran (.ld .d 3 1 .none .always) (withM [(1, 0x27_8000)] atHead)) = 4 ∧
    causeOf (ran (.ld .d 3 1 .none .always) (withM [(1, 0x40_0000)] atHead)) = 8 := by decide

/-- R201: an atomic gives the old value and a failed ACAS leaves the word. -/
theorem test_atomics :
    let s := ran (.aadd .plain true 3 1 2 .always) (withM [(1, 0x100), (2, 0xFFFF_FFFF)] atHead)
    s.cur.getM 3 = 0 ∧ s.read (s.colKey 1 0x100) 8 = 0xFFFF_FFFF ∧
    (let t := ran (.acas .plain false 4 1 2 5 .always) s
     t.cur.getM 4 = 0xFFFF_FFFF ∧ t.read (t.colKey 1 0x100) 8 = 0xFFFF_FFFF) := by decide +kernel

/-- R183: LOOP with a counter of 1 falls through; with 0 it wraps and branches. -/
theorem test_loop :
    (ran (.loop 1 0 .always) (withM [(1, 1)] atHead)).cur.line.target = none ∧
    (ran (.loop 1 0 .always) atHead).cur.getM 1 = 0xFFFF_FFFF_FFFF_FFFF ∧
    (ran (.loop 1 0 .always) atHead).cur.line.target = some (pcAt 0 1) := by decide

/-- R206: GO to the next core stops the line and travels; to the own core it goes on. -/
theorem test_go :
    let s := atHead.updCtx 0 (fun c => { c with st := .resident, channel := some 0 })
    (ran (.go 1 .always) (withM [(1, 0x8000_2000_0000_0000)] s)).cur.st = .travelling ∧
    (ran (.go 1 .always) s).cur.line.next = 2 := by decide

/-- R209: a slot sends to itself; the fifth value is refused. -/
theorem test_lsend :
    let one := ran (.lsend 3 1 0 .always)
    let t := one (one (one (one (withM [(1, 9)] atHead))))
    t.cur.getM 3 = 0 ∧ t.cur.inbox = [9, 9, 9, 9] ∧ (one t).cur.getM 3 = 1 := by decide

/-- R279: RECV takes the oldest message of its tag; without one and with .nw it clears its predicate. -/
theorem test_recv :
    let m : Word → Nat → Msg := fun v g => ⟨v, g, false, ⟨0, 0, 0⟩, 0, 0, false, 0, false⟩
    let s := atHead.updMsgs 1 (fun q => { q with mailbox := [m 1 4, m 2 3, m 3 3] })
    let t := ran (.recv false true 5 (.imm 3) 2 .always) s
    t.cur.getM 5 = 2 ∧ t.cur.getP 2 = true ∧ (ran (.recv false true 5 (.imm 9) 2 .always) t).cur.getP 2 = false := by decide

/-- R66, R77, R90: after a plain RECV the next load may give a value from before it; RECV.ACQ of a message of a POST.REL gives the reading up. -/
theorem test_recv_plain_is_no_acquire :
    let s := (atHead.updMsgs 1 (fun q => { q with mailbox := [⟨1, 9, false, ⟨0, 0, 0⟩, 0, 0, false, 0, true⟩] })).updCur (fun x => { x with part := [(0, 7)] })
    let later (acq : Bool) := (ran (.ld .w 4 9 (.i16 0) .always) (ran (.recv acq true 5 (.imm 9) 2 .always) s)).cur.getM 4
    later false = 7 ∧ later true = 0 := by decide +kernel

/-- R220, R228: saturation, wrapping and a reduction over sixteen lanes. -/
theorem test_integer_lanes :
    let s := withQ [(1, 0x7F80_0000_0000_0000_0000_0000_0000_0001), (2, 0x0181_0000_0000_0000_0000_0000_0000_00FF)] atHead
    (ran (.vadd .i8 .ss 3 1 2 .always) s).cur.getQ 3 = 0x7F80_0000_0000_0000_0000_0000_0000_0000 ∧
    (ran (.vadd .i8 .us 3 1 2 .always) s).cur.getQ 3 = 0x80FF_0000_0000_0000_0000_0000_0000_00FF ∧
    (ran (.vred .add .i8 3 1 .always) s).cur.getQ 3 = 0 := by decide

/-- R223: one rounding: 2^24 + 1 in binary32 ties to even, and a fused multiply-add of 3, 3 and −9 is +0. -/
theorem test_float_lanes :
    let s := withQ [(1, 0x4B80_0000), (2, 0x3F80_0000), (3, 0x4040_0000), (4, 0xC110_0000)] onVegaken
    (ran (.vadd .f32 .wrap 5 1 2 .always) s).cur.getQ 5 = 0x4B80_0000 ∧
    (ran (.vfma .f32 5 3 3 4 .always) s).cur.getQ 5 = 0 := by decide

/-- R31, R216: an FP64 head on a die that lacks it waits at the head for a landing; on Vegaken it goes on. -/
theorem test_generation_trap :
    let s := ran (.vadd .f64 .wrap 5 1 2 .always) atHead
    s.cur.st = .waiting ∧ s.cur.wr = .migrate ∧ s.cur.pc = atHead.cur.pc ∧
    (ran (.vadd .f64 .wrap 5 1 2 .always) onVegaken).cur.line.next = 2 := by decide

/-- R249: SEMS saturates at 0xFFFF. -/
theorem test_sems_saturates :
    let s := atHead.updEng 1 (fun e => e.setSem 3 0xFFFE)
    (ran (.sems 1 5 .always) (withM [(1, 0x103)] s)).eng 1 |>.sem 3 = 0xFFFF := by decide

/-- R145: the control thread: a word result is sign-extended, a high product is signed, and x0 stays 0. -/
theorem test_control_thread_integer :
    let s := atHead.updCtl 1 (fun c => (c.setX 1 0x7FFF_FFFF).setX 2 0xFFFF_FFFF_FFFF_FFFF)
    let x := fun i r => ((ran (.controlThreadInstruction i) s).ctl 1).getX r
    x (.opImm .addiw 3 1 1) 3 = 0xFFFF_FFFF_8000_0000 ∧ x (.op .mulh 3 2 2) 3 = 0 ∧ x (.op .add 0 1 2) 0 = 0 ∧
    x (.op .mulhu 3 2 2) 3 = 0xFFFF_FFFF_FFFF_FFFE := by decide

/-- R145: ECALL from U-mode saves its pc, and SRET gives it back. -/
theorem test_ecall_and_sret :
    let s := atHead.updCtl 1 (fun c => { c with pc := 0x1000, s := { c.s with stvec := 0x2000, stSie := true } })
    let t := ran (.controlThreadInstruction .ecall) s
    let u := ran (.controlThreadInstruction .sret) t
    (t.ctl 1).pc = 0x2000 ∧ (t.ctl 1).mode = .s ∧ (t.ctl 1).s.scause = 8 ∧ (t.ctl 1).s.sepc = 0x1000 ∧ (t.ctl 1).s.stSie = false ∧
    (u.ctl 1).pc = 0x1000 ∧ (u.ctl 1).mode = .u ∧ (u.ctl 1).s.stSie = true := by decide

/-- R318: JUMP in the ring stops its queue with 0x16; SEMSIG adds to its semaphore in host memory. -/
theorem test_queue_records :
    let s := atHead.updQueue 0 (fun q => { q with st := .active, wptr := 1 })
    ((ran (.jump 0x8000_0000_0000_1000) s).queue 0).st = .error ∧ ((ran (.jump 0x8000_0000_0000_1000) s).queue 0).errcode = 0x16 ∧
    (ran (.semsig 5 0x8000_0000_0000_2000) s).read (hostKey 0x2000) 8 = 5 := by decide +kernel

/-- R34, R126: a placed word is fetched, decoded and executed by the next step: ORN of zeros, and PSET. -/
theorem test_step_runs_the_placed_word :
    (match step (State.reset.withFetchWord 32 0x20CE_8700) with
     | .next t => t.cur.getM 9 == 0xFFFF_FFFF_FFFF_FFFF
     | _ => false) = true ∧
    (match step (State.reset.withFetchWord 16 0x1E61) with
     | .next t => t.cur.getP 12
     | _ => false) = true := by decide

/-- R433: a stopped module makes no step. -/
theorem test_stopped : step { State.reset with stopped := true, turns := [.event .bootok] } = .fault .stopped := by rfl

/-! ### States that meet the hypotheses of the statements, clause by clause -/

/-- The predicate register of the guard holds. -/
def guardOn : State := atHead.updCur (fun x => { x with pw := 0x8000, ind := true })

theorem test_meets_ArithmeticHeads :
    ready guardOn (.alu .xnor 9 0 9 (.on 15)) (.on 15) ∧ ready guardOn (.shf .ror 9 0 9 (.on 15)) (.on 15) ∧
    ready guardOn (.shfi .sra 9 0 63 (.on 15)) (.on 15) ∧ ready guardOn (.mul .mulhsu 9 0 9 .always) .always ∧
    ready guardOn (.minmax .maxu 9 0 9 .always) .always ∧ ready guardOn (.div .remu 9 0 9 .always) .always := by
  unfold ready; decide +kernel

theorem test_meets_BitHeads :
    ready guardOn (.bitc .bswap 9 0 (.on 15)) (.on 15) ∧ ready guardOn (.bext 9 0 127 64 .always) .always ∧
    ready guardOn (.bextReg 9 0 9 .always) .always ∧ ready guardOn (.bins 9 0 127 64 .always) .always ∧
    ready guardOn (.binsReg 9 0 9 .always) .always := by
  unfold ready; decide +kernel

theorem test_meets_ImmediateHeads :
    ready guardOn (.addi 9 0 (.i32 0x8000_0000) .always) .always ∧ ready guardOn (.alui .xor 9 0 (.i16 0x8000) .always) .always ∧
    ready guardOn (.movi 9 (.i16 0x8000) .always) .always ∧ ready guardOn (.movhi 9 0xFFFF_FFFF .always) .always ∧
    ready guardOn (.sel 9 15 0 9 .always) .always ∧ ready guardOn (.mkadr 9 0 9 .always) .always ∧
    ready guardOn (.mkrel 9 0 9 .always) .always := by
  unfold ready; decide +kernel

theorem test_meets_CompareAndPredicateHeads :
    ready guardOn (.cmp .geu 15 0 9 .always) .always ∧ ready guardOn (.cmpi .ltu 15 0 (.i16 0xFFFF) .always) .always ∧
    ready guardOn (.plog .orn 15 0 15 .always) .always ∧ ready guardOn (.pset true 15 .bare) .bare ∧
    ready guardOn (.pmov 9 .bare) .bare ∧ ready guardOn (.pmovPw 9 .always) .always := by
  unfold ready; decide +kernel

/-- Addresses at the last bytes of the program data (R54). -/
def atEdge : State := withM [(1, 0x27_7FF8), (2, 0x27_7FF0), (3, 1), (4, 0x27_7FFF)] atHead

/-- A pool line at line 0 of the code of context 0. -/
def withPool : State := (State.mapPage atHead |>.write codeFrame 0x2000 2).updCtx 0 (fun c => { c with st := .resident, ptroot := tableRoot })

theorem test_meets_Loads :
    (ready atEdge (.ld .d 9 1 .none .always) .always ∧ refersTo atEdge 0x27_7FF8 8 .rd 0x27_7FF8 ∧ undamaged atEdge 0x27_7FF8 8) ∧
    (ready atEdge (.ldx .b 9 1 3 .always) .always ∧ refersTo atEdge 0x27_7FF9 1 .rd 0x27_7FF9) ∧
    (ready atEdge (.ldp 8 2 (.i16 0) .always) .always ∧ ready atEdge (.vld 15 2 .none .always) .always ∧ atEdge.stalled = false ∧
      refersTo atEdge 0x27_7FF0 16 .rd 0x27_7FF0 ∧ undamaged atEdge 0x27_7FF0 8 ∧ undamaged atEdge 0x27_7FF8 8 ∧
      SMap.find (atEdge.updCur (fun x => { x with part := [(0x27_7FF0, 7)] })).cur.part 0x27_7FF0 = some 7) := by
  unfold ready refersTo undamaged; decide +kernel

theorem test_meets_Loads_pool :
    ready withPool (.ldl .h 9 0 62 .always) .always ∧
    ∃ img, (withPool.fetchLine 1 (deltaLine withPool.cur.line_ 0).toNat).2 = .ok img ∧ lineType img = 2 := by
  unfold ready; exact ⟨by decide +kernel, _, rfl, by decide +kernel⟩

theorem test_meets_Stores :
    (ready atEdge (.st .d 9 1 .none .always) .always ∧ refersTo atEdge 0x27_7FF8 8 .wr 0x27_7FF8 ∧ stBytes .d = 8) ∧
    (ready atEdge (.st .b 9 4 .none .always) .always ∧ refersTo atEdge 0x27_7FFF 1 .wr 0x27_7FFF ∧ undamaged atEdge 0x27_7FFF 1) ∧
    (ready atEdge (.stx .b 9 1 3 .always) .always ∧ refersTo atEdge 0x27_7FF9 1 .wr 0x27_7FF9 ∧ undamaged atEdge 0x27_7FF9 1) ∧
    (ready atEdge (.stp 8 2 .none .always) .always ∧ ready atEdge (.vst 15 2 .none .always) .always ∧
      refersTo atEdge 0x27_7FF0 16 .wr 0x27_7FF0) := by
  unfold ready refersTo undamaged; decide +kernel

theorem test_meets_Landing :
    let s := atHead.updCur (fun x => { x with sb := [⟨0, 8, 1, 0⟩, ⟨0x27_7FF8, 8, 7, 1⟩] })
    (s.task 1).onCore = true ∧ landable (s.slot 1 0).sb 1 = some ⟨0x27_7FF8, 8, 7, 1⟩ ∧ 0x27_7FF8 + 8 ≤ Config.undoBase ∧
    landable (s.slot 1 0).sb 0 = some ⟨0, 8, 1, 0⟩ := by decide +kernel

theorem test_meets_Atomics :
    refersTo atEdge 0x27_7FF8 8 .rw 0x27_7FF8 ∧ refersTo atEdge 0x27_7FF8 4 .rw 0x27_7FF8 ∧ undamaged atEdge 0x27_7FF8 8 ∧
    atEdge.cur.sb = [] ∧ ready atEdge (.aadd .ar true 9 1 0 .always) .always ∧ ready atEdge (.alog .xor .rel false 9 1 0 .always) .always ∧
    ready atEdge (.amm .maxu .acq true 9 1 0 .always) .always ∧ ready atEdge (.aswp .plain false 9 1 0 .always) .always ∧
    ready atEdge (.acas .ar false 9 1 0 9 .always) .always := by
  unfold ready refersTo undamaged; decide +kernel

theorem test_meets_ReferencesFault :
    let s := withM [(1, 0x27_8000), (2, 0x401), (3, 0x40_0000), (4, 0x400)] atHead
    let d := (s.setPoison (s.colKey 1 0x400) .poisoned)
    (∀ i ∈ [(1 : Reg), 2, 3, 4], s.fSlot < 10 ∧ WellFormed.ok (.ld .d 9 i .none .always) = true) ∧ s.cur.kill = none ∧
    s.target 0x401 8 = .fault 0x05 0x401 ∧ s.target 0x40_0000 8 = .fault 0x08 0x40_0000 ∧
    s.target 0x27_8000 8 = .here 0x27_8000 ∧ s.me.arch.denied .rd 0x27_8000 8 = true ∧
    refersTo d 0x400 8 .rd 0x400 ∧ d.colPoison 1 d.cur.sb 0x400 8 = some (0x400, .poisoned) ∧ SMap.find d.cur.part 0x400 = none := by
  unfold refersTo; decide +kernel

theorem test_meets_ReferencesFault_forms :
    let s := withM [(1, 0x27_8000), (4, 0x400), (5, 0x3F8), (6, 0x8000_2000_0000_0400)] atHead
    let d := (s.setPoison (s.colKey 1 0x400) .poisoned)
    let e := (s.setPoison (s.colKey 1 0x3F8) .poisoned)
    s.target 0x8000_2000_0000_0400 8 = .there ⟨0, 0, 1⟩ ∧ s.hasCh s.me.ctx = false ∧ s.stalled = false ∧ stBytes .w < 8 ∧
    refersTo d 0x400 (stBytes .w) .wr 0x400 ∧ d.colPoison 1 d.cur.sb 0x400 4 = some (0x400, .poisoned) ∧ refersTo d 0x400 8 .rw 0x400 ∧
    refersTo d 0x3F0 16 .rd 0x3F0 ∧ e.colPoison 1 e.cur.sb 0x3F0 8 = none ∧ e.colPoison 1 e.cur.sb 0x3F8 8 = some (0x3F8, .poisoned) ∧
    ready s (.vst 0 1 .none .always) .always ∧ ready s (.acas .ar false 9 1 0 9 .always) .always ∧ s.cur.kill = none := by
  unfold refersTo ready; decide +kernel

theorem test_meets_Branches :
    let s := withM [(1, 0xFF_FFFF_FFFF_FFC0)] guardOn
    let f := s.updCur (fun x => { x with ind := false })
    s.cur.ind = true ∧ ready s (.br (.i16 0x8000) .always) .always ∧ ready s (.brx 1 .bare) .bare ∧
    (s.cur.getM 1).toNat < 2 ^ 56 ∧ (s.cur.getM 1).toNat % 64 = 0 ∧ ready s (.call 9 (.i32 0x8000_0000) .always) .always ∧
    ready s (.callx 9 1 .always) .always ∧ ready s (.loop 9 0x7FFF .always) .always ∧ f.cur.ind = false ∧
    ready f (.loop 9 0 .always) .always ∧ ready f (.fetch (.i16 1) .always) .always ∧ ready f (.fetchReg 1 .always) .always := by
  unfold ready; decide +kernel

theorem test_meets_BranchesFault :
    let s := withM [(1, 0x100_0000_0000_0000), (2, 0xFF_FFFF_FFFF_FFFF)] guardOn
    let f := s.updCur (fun x => { x with ind := false })
    s.cur.kill = none ∧ f.cur.ind = false ∧ ready f (.br (.i16 0) .always) .always ∧ ready f (.brx 1 .bare) .bare ∧
    ready f (.call 9 (.i16 0) .always) .always ∧ ready f (.callx 9 1 .always) .always ∧ ready f (.loop 9 1 .always) .always ∧
    s.cur.ind = true ∧ ready s (.brx 1 .bare) .bare ∧ 2 ^ 56 ≤ (s.cur.getM 1).toNat ∧
    ready s (.brx 2 .bare) .bare ∧ (s.cur.getM 2).toNat < 2 ^ 56 ∧ (s.cur.getM 2).toNat % 64 ≠ 0 ∧
    ready s (.callx 9 2 .always) .always ∧ ready f (.fetchReg 1 .always) .always ∧ ready f (.fetchReg 2 .always) .always := by
  unfold ready; decide +kernel

theorem test_meets_LineAndSystemHeads :
    let t := atHead.updCur (fun x => { x with line := { x.line with safept := some 0 } })
    let b := atHead.updCur (fun x => { x with sb := [⟨0x27_7FF8, 8, 1, 0⟩] })
    ready atHead (.yield .bare) .bare ∧ atHead.cur.line.safept = none ∧ t.cur.line.safept ≠ none ∧ t.cur.kill = none ∧
    ready b (.fenceCore .always) .always ∧ (∀ e ∈ b.cur.sb, e.off + e.n ≤ Config.undoBase) ∧
    ready atHead (.stop .bare) .bare ∧ atHead.cur.sigBad = false ∧ ready atHead (.id .ctx 9 .bare) .bare := by
  unfold ready; decide +kernel

theorem test_meets_Rdsys :
    let s := atHead.updCtl 1 (fun c => { c with s := { c.s with scounteren := 1 } })
    s.cur.kill = none ∧ (∀ n ∈ [(0xC00 : BitVec 12), 0xC02, 0xCC0, 0xCC1, 0xCC4, 0xCC8, 0xCCC, 0xCCD, 0xCD0, 0xCD2, 0xCC5, 0xCD3],
      WellFormed.ok (.rdsys 9 n .always) = true) ∧ (s.ctl 1).s.scounteren.getLsbD 0 = true ∧ (s.ctl 1).s.scounteren.getLsbD 2 = false := by
  decide +kernel

/-- A context with a channel, and addresses of the next core and of one that does not exist. -/
def withChannel : State :=
  withM [(1, 0x8000_2000_0000_0000), (2, 0xC000_0000_0000_0000), (3, 0xFF_FFFF_FFFF_FFC0)]
    (atHead.updCtx 0 (fun c => { c with st := .resident, channel := some 0 }))

theorem test_meets_GoHomeAndSpawn :
    let s := withChannel
    let c : Coord := ⟨0, 0, 1⟩
    let far := s.updCur (fun x => { x with id := { x.id with home := c } })
    let used := s.updArch 1 (fun a => { a with spawnOut := 64 })
    s.cur.kill = none ∧ ready s (.go 0 .always) .always ∧ s.target 0 1 = .here 0 ∧ ready s (.go 1 .always) .always ∧
    s.target 0x8000_2000_0000_0000 1 = .there c ∧ s.hasCh s.me.ctx = true ∧ ready s (.home .bare) .bare ∧
    s.target (2 ^ 62) 1 = .here 0 ∧ far.target (2 ^ 62 + 2 ^ 45) 1 = .there c ∧
    ready s (.spawn 9 2 3 .always) .always ∧ coordOf s.me.coord 0xC000_0000_0000_0000 = none ∧
    ready s (.spawn 9 1 1 .always) .always ∧ coordOf s.me.coord 0x8000_2000_0000_0000 = some c ∧ ¬ (0x8000_2000_0000_0000 < 2 ^ 56) ∧
    0xFF_FFFF_FFFF_FFC0 < 2 ^ 56 ∧ 0xFF_FFFF_FFFF_FFC0 % 64 = 0 ∧ 64 ≤ used.me.arch.spawnOut ∧
    ready s (.spawn 9 1 3 .always) .always ∧ s.me.arch.spawnOut < 64 ∧ s.me.arch.msgs.arrivals.length < 16 ∧ s.waitsBefore s.fTask none = false ∧
    (atHead.hasCh atHead.me.ctx = false ∧ atHead.cur.line.arrived = false) ∧ s.target 0xC000_0000_0000_0000 1 = .fault 0x08 0xC000_0000_0000_0000 := by
  unfold ready; decide +kernel

theorem test_meets_LinksAndSync :
    let s := atHead.updCur (fun x => { x with inbox := [5] })
    let full := atHead.updCur (fun x => { x with inbox := [1, 2, 3, 4] })
    let go := atHead.updD 1 (fun d => { d with go := 1 })
    ready s (.lsend 9 0 9 .always) .always ∧ (s.slot 1 9).st = .free ∧ ready full (.lsend 9 0 0 .always) .always ∧
    (full.slot 1 0).st = .running ∧ 4 ≤ (full.slot 1 0).inbox.length ∧ (s.slot 1 0).inbox.length < 4 ∧ ready s (.lrecv 9 .bare) .bare ∧
    s.cur.inbox = 5 :: [] ∧ atHead.cur.inbox = [] ∧ atHead.cur.kill = none ∧ ready s (.lpeek 9 .bare) .bare ∧
    ready s (.csyncSig .bare) .bare ∧ ready go (.csyncWait .bare) .bare ∧ (go.ctl 1).d.go.getLsbD 0 = true ∧
    (atHead.ctl 1).d.go.getLsbD 0 = false := by
  unfold ready; decide +kernel

/-- A message of a task's own group. -/
def note (tag : Nat) (nx : Bool) : Msg := ⟨7, tag, false, ⟨0, 0, 0⟩, 0, 0, nx, 0, false⟩

theorem test_meets_PostAndRecv :
    let s := withChannel.updMsgs 1 (fun q => { q with mailbox := [note 1 true, note 63 true, note 2 false] })
    let full := withChannel.updMsgs 1 (fun q => { q with sendb := List.replicate 16 ⟨note 0 false, ⟨0, 0, 1⟩, 0, none⟩ })
    ready full (.post true true 9 1 0 62 .always) .always ∧ coordOf full.me.coord 0x8000_2000_0000_0000 = some ⟨0, 0, 1⟩ ∧
    full.hasCh full.me.ctx = true ∧ 16 ≤ full.me.arch.msgs.sendb.length ∧ s.me.arch.msgs.sendb.length < 16 ∧
    ready s (.recv true true 9 (.imm 63) 15 .always) .always ∧
    s.me.arch.msgs.mailbox = [note 1 true] ++ note 63 true :: [note 2 false] ∧ (∀ m ∈ [note 1 true], m.tag ≠ 63) ∧
    ready s (.recv false false 9 (.reg 5) 0 .always) .always ∧ (∀ m ∈ s.me.arch.msgs.mailbox, m.tag ≠ 0) ∧ s.cur.kill = none ∧
    (note 1 true).nx ≠ s.me.arch.eng.nx ∧ coordOf s.me.coord 0xC000_0000_0000_0000 = none ∧ atHead.hasCh atHead.me.ctx = false := by
  unfold ready; decide +kernel

theorem test_meets_TagHeads :
    withChannel.me.arch.msgs.parking = [] ∧ ready withChannel (.bind 9 3 62 .always) .always ∧
    (withChannel.cur.getM 3).toNat < 2 ^ 56 ∧ (withChannel.cur.getM 3).toNat % 64 = 0 ∧ ready withChannel (.unbind 9 0 .always) .always ∧
    ready withChannel (.rebind 9 62 .always) .always := by
  unfold ready; decide +kernel

/-- Task 1 is a member of level 4. -/
def member : State := atHead.updBar 1 (fun b => b.updMemb 4 (fun m => { m with mem := true }))

theorem test_meets_BarrierHeads :
    let d := member.updCur (fun x => { x with barEnd := some (.done (some 3)) })
    let r := member.updCur (fun x => { x with barEnd := some .recorded })
    member.memberAt 1 4 = true ∧ member.me.arch.bar.lowerOpen 4 = false ∧ member.cur.barEnd = none ∧ member.cur.kill = none ∧
    (member.me.arch.bar.membOf 4).arr = false ∧ member.instState 1 4 = .open_ ∧ ready member (.exch 4 .bare) .bare ∧
    ready member (.bar 4 .bare) .bare ∧ ready member (.barx .or 4 9 0 .always) .always ∧ ready member (.barxNc .fadd 4 9 .always) .always ∧
    ready member (.bara 4 9 .always) .always ∧ ready member (.baraImm 4 0x7FFF .always) .always ∧
    d.cur.barEnd = some (.done (some 3)) ∧ r.cur.barEnd = some .recorded ∧ ready atHead (.bar 1 .bare) .bare ∧
    atHead.memberAt 1 1 = false := by
  unfold ready; decide +kernel

theorem test_meets_IntegerLanes :
    readyV atHead (.vadd .i64 .us 15 0 15 .always) .always .fv ∧ readyV atHead (.vsub .i8 .ss 15 0 15 .always) .always .fv ∧
    readyV atHead (.vmul .i32 .us 15 0 15 .always) .always .fv ∧ readyV atHead (.vmin .i8 .us 15 0 15 .always) .always .fv ∧
    readyV atHead (.vmax .i64 .wrap 15 0 15 .always) .always .fv ∧ readyV atHead (.vabs .i16 .ss 15 0 .always) .always .fv ∧
    readyV atHead (.vneg .i8 .wrap 15 0 .always) .always .fv ∧ readyV atHead (.vmulh .i64 true 15 0 15 .always) .always .fv ∧
    readyV atHead (.vavg .i8 false 15 0 15 .always) .always .fv ∧ readyV atHead (.vcmp .leu .i64 15 0 15 .always) .always .fv ∧
    readyV atHead (.vsh .sra .i64 15 0 (.imm 127) .always) .always .fv ∧ readyV atHead (.vsh .shl .i8 15 0 (.reg 1) .always) .always .fv := by
  unfold readyV ready; decide +kernel

theorem test_meets_FloatLanes :
    let s := onVegaken
    readyV s (.vadd .f64 .wrap 15 0 15 .always) .always (letterArith .f64) ∧ readyV s (.vsub .f32 .wrap 15 0 15 .always) .always (letterArith .f32) ∧
    readyV s (.vmul .f64 .wrap 15 0 15 .always) .always (letterArith .f64) ∧ readyV s (.vfma .f64 15 0 15 1 .always) .always (letterArith .f64) ∧
    readyV s (.vdiv .f32 15 0 15 .always) .always (letterArith .f32) ∧ readyV s (.vsqrt .f64 15 0 .always) .always (letterArith .f64) ∧
    readyV s (.vmin .f64 .wrap 15 0 15 .always) .always (letterMove .f64) ∧ readyV s (.vmax .f64 .wrap 15 0 15 .always) .always (letterMove .f64) := by
  unfold readyV ready; decide +kernel

theorem test_meets_FloatLanes_moves :
    let s := onVegaken
    readyV s (.vabs .f64 .wrap 15 0 .always) .always (letterMove .f64) ∧ readyV s (.vneg .f64 .wrap 15 0 .always) .always (letterMove .f64) ∧
    readyV s (.vcmp .le .f64 15 0 15 .always) .always (letterMove .f64) ∧
    readyV atHead (.vadd .bf16 .wrap 15 0 15 .always) .always (letterArith .bf16) ∧
    readyV atHead (.vcmp .ne .f32 15 0 15 .always) .always (letterMove .f32) := by
  unfold readyV ready; decide +kernel

theorem test_meets_MovesAndPermutes :
    let s := onVegaken
    readyV s (.vlog .not 15 0 0 .always) .always .fv ∧ readyV s (.vsel 15 15 0 15 .always) .always .fv ∧ readyV s (.vmov 15 0 .always) .always .fv ∧
    readyV s (.vmovQm 15 9 .always) .always .fv ∧ readyV s (.vmovMq 9 15 .always) .always .fv ∧
    readyV s (.vsplat .f64 15 9 .always) .always (letterMove .f64) ∧ readyV s (.vlaneExt .i8 9 15 15 .always) .always (letterMove .i8) ∧
    readyV s (.vlaneIns .f64 15 9 1 .always) .always (letterMove .f64) ∧ readyV s (.vshuf .i8 15 0 15 .always) .always .fv ∧
    readyV s (.vrot .i64 15 0 1 .always) .always .fv ∧ readyV s (.vzip .i8 (some .od) 15 0 15 .always) .always .fv ∧
    readyV s (.vzip .i64 none 15 0 15 .always) .always .fv := by
  unfold readyV ready; decide +kernel

theorem test_meets_ReductionsAndConversions :
    let s := onVegaken
    readyV s (.vred .max .i64 15 0 .always) .always (letterRed .max .i64) ∧ readyV s (.vred .add .f64 15 0 .always) .always (letterRed .add .f64) ∧
    readyV s (.vdot .f16 15 0 15 .always) .always .fv ∧ readyV s (.vcvt .i8 .f64 15 0 (some 7) .always) .always (letterCvt .i8 .f64) ∧
    readyV s (.vcvt .f64 .i8 15 0 (some 7) .always) .always (letterCvt .f64 .i8) ∧ readyV s (.pdec 3 .f32 15 0 .always) .always .fv ∧
    readyV s (.penc 0 .bf16 15 0 .always) .always .fv ∧ readyV atHead (.vpack .int4 15 0 .always) .always .f ∧
    readyV atHead (.vunpk .e2m1 15 0 .always) .always .f := by
  unfold readyV ready; decide +kernel

/-- A line of REP and one body head, a VADD of bytes (R238). -/
def repLine : List Half :=
  [0x1120, 0xBB00, 0x8088] ++ List.replicate 26 0 ++ [0x0000 + 0x2300, 0x0000, 0x0008]

theorem test_meets_Repetition :
    let s := atHead.updCur (fun x => { x with line := { x.line with img := some repLine } })
    let b : Instr := .vadd .i8 .wrap 1 2 3 .always
    let q : Seq := ⟨0, [b], 1, 1, 0, 0, false, .identity, .identity⟩
    let u := s.updArch 1 (fun a => { a with seq := some q })
    repBody (s.cur.line.img.getD []) 1 1 = some [b] ∧ [b].findSome? (fun i => s.lacks (bodyLetter i)) = none ∧ (s.arch 1).seq = none ∧
    (u.task 1).onCore = true ∧ (u.arch 1).seq = some q ∧ q.body[q.head]?.bind (bodyHead (q.stride * q.pass)) = some b := by decide +kernel

theorem test_meets_EaselHeads :
    let s := withM [(0, 0x27_7000)] atHead
    (s.eng 1).full = false ∧ ready s (.ezmm true 3 7 6 (.field (some 9)) .always) .always ∧ s.lacksAny 1 [s.accLetter 7, s.accLetter 6] = none ∧
    ready s (.ezmms false 3 0 1 .short .always) .always ∧ s.lacksAny 1 [.f, s.accLetter 0, s.accLetter 1] = none ∧
    ready s (.ezring 7 9 .short .always) .always ∧ ready s (.ezpush 7 1024 none .always) .always ∧ ready s (.ezpop 7 0 none .always) .always ∧
    ready s (.ezfmt 7 3 3 true (some 0) .always) .always ∧ s.lacks (fmtLetter 3 true) = none ∧ ready s (.ezzld 3 0 .short .always) .always ∧
    s.accAddr 0 4096 = some 0x27_7000 ∧ ready s (.ezzst 3 0 .fp16 (.field none) .always) .always ∧ s.accAddr 0 2048 = some 0x27_7000 ∧
    ready s (.ezzclr 3 .short .bare) .bare ∧ ready s (.ezwf .short .always) .always ∧ ready s (.ezchk true .short .bare) .bare := by
  unfold ready; decide +kernel

def someCmd : Cmd :=
  { uid := 0, major := 0x68, queue := 4, slot := 0, st := .accepted, op := .ezzclr 0, fault := none, sync := ⟨0, 0, false, 0, 0, false⟩,
    path := none, leases := [], landed := [], counted := none, begunAt := 0, nx := false, pal2 := .identity, pal3 := .identity,
    again := false, after := 0, fence := [], met := false, seen := [], sent := [] }

theorem test_meets_CopyHeads :
    let full := atHead.updEng 1 (fun e => { e with count := 64, cmds := [someCmd] })
    ready atHead (.copy 3 9 0 9 (some 9) .always) .always ∧ ready atHead (.copy2 3 9 .short .always) .always ∧
    ready atHead (.tload 3 9 .shadow none .always) .always ∧ ready atHead (.pload 3 9 .always) .always ∧ (atHead.eng 1).full = false ∧
    (full.eng 1).full = true ∧ ready full (.copy 3 9 0 9 (some 9) .always) .always ∧ full.cur.kill = none ∧
    readyV atHead (.pload 3 9 .always) .always .fv ∧ atHead.me.arch.fenceStalls atHead.cur = false ∧ readyV full (.pload 3 9 .always) .always .fv ∧
    ready full (.ezmm true 3 7 6 (.field (some 9)) .always) .always := by
  unfold readyV ready; decide +kernel

theorem test_meets_Semaphores :
    let s := atHead.updEng 1 (fun e => { e with cmds := [someCmd] })
    ready s (.sems 9 0xFFFF .always) .always ∧ ready s (.semini 9 0 .always) .always ∧ ready s (.semrd 9 0 .always) .always ∧
    ready s (.semw 9 0 .always) .always ∧ ready s (.semw 9 1 .always) .always ∧ ((s.eng 1).sem 0).toNat < 1 ∧ s.cur.kill = none ∧
    ready s (.join 0x10 .always) .always ∧ (s.eng 1).joined s.cutOf 0x10 = false ∧ (s.eng 1).joined s.cutOf 0x0F = true ∧
    ready s (.drain .pod .bare) .bare ∧ (s.eng 1).pathsClear s.me.coord s.cutOf [pathCode .pod] = true ∧
    ready s (.cqst 9 .bare) .bare ∧ ready s (.ezqry 9 7 .always) .always := by
  unfold ready; decide +kernel

/-! #### The control thread -/

/-- Control-thread registers of the task. -/
def withX (l : List (Nat × Word)) (s : State) : State :=
  s.updCtl s.fTask (fun c => l.foldl (fun (c : Ctl) p => { c with x := vset c.x p.1 p.2 }) c)
/-- The control thread is in S-mode. -/
def inS (s : State) : State := s.updCtl 1 (fun c => { c with mode := .s })

theorem test_meets_JumpsAndBranches :
    let s := withX [(1, 0x8000_0000_0000_0000)] atHead
    relationSays .lt ((s.ctl 1).getX 1) ((s.ctl 1).getX 2) ∧ ¬ relationSays .ltu ((s.ctl 1).getX 1) ((s.ctl 1).getX 2) ∧
    relationSays .eq ((s.ctl 1).getX 0) ((s.ctl 1).getX 2) := by
  unfold relationSays; decide +kernel

theorem test_meets_ControlThreadMemory :
    let s := withX [(1, 0x27_7FF8), (2, 0x27_7FFC)] atHead
    let r := s.updCtl 1 (fun c => { c with resv := some 0x27_7FF8 })
    s.ctFault 1 .rd false true 0x27_7FFF 1 = none ∧ s.ctFault 1 .wr true false 0x27_7FF8 8 = none ∧ s.ctFault 1 .wr true true 0x27_7FFE 2 = none ∧
    s.ctFault 1 .rd false true 0x27_7FF8 8 = none ∧ (s.ctl 1).sb = [] ∧ r.ctFault 1 .wr true false 0x27_7FF8 8 = none ∧
    (r.ctl 1).resv = some (0x27_7FF8 / 8 * 8) ∧ (s.ctl 1).resv ≠ some (0x27_7FF8 / 8 * 8) ∧ s.ctFault 1 .wr true false 0x27_7FFC 4 = none ∧
    s.ctFault 1 .rw true true 0x27_7FFC 4 = none ∧ s.ctFault 1 .rd false true 0x27_7FF1 8 = some (4, 0x27_7FF1) := by decide +kernel

theorem test_meets_SystemInstructions :
    (atHead.ctl 1).mode = .u ∧ ((inS atHead).ctl 1).mode = .s ∧ ((inS atHead).ctl 1).getX 17 ≠ 0x10 := by decide +kernel

theorem test_meets_CsrInstructions :
    (atHead.csrValue 1 0xFFF = none) ∧ (0x140 / 256 % 4 = 1 ∧ (atHead.ctl 1).mode = .u) ∧ 2 ≤ 0x300 / 256 % 4 ∧ 0xC00 / 1024 = 3 ∧
    ((inS atHead).csrValue 1 0xC00).isSome = true ∧ ((inS atHead).csrValue 1 0x140).isSome = true := by decide +kernel

/-- Slots 1 to 4: STOPPED, FAULTED with cause 0x04, FAULTED with cause 0x09, WAITING for a broadcast. -/
def manySlots : State :=
  (((atHead.updSlot 1 1 (fun x => { x with st := .stopped })).updSlot 1 2 (fun x => { x with st := .faulted })).updSlot 1 3
    (fun x => { x with st := .faulted })).updSlot 1 4 (fun x => { x with st := .waiting, wr := .broadcast }) |>.updD 1
      (fun d => { d with mtfinfo := vset (vset d.mtfinfo 2 0x0400_0000_0000_0002) 3 0x0900_0000_0000_0002 })

/-- A broadcast line with one NOP at line 0 of the code of context 0. -/
def withBroadcast : State :=
  withX [(2, 0x10)] ((manySlots.mapPage.write codeFrame 0x1080 2).updCtx 0 (fun c => { c with st := .resident, ptroot := tableRoot }))

theorem test_meets_SlotControl :
    let s := withX [(1, 0x40), (2, 1), (3, 0), (4, 10), (5, 9), (6, 2), (7, 3), (8, 0x41)] manySlots
    (9 < ((s.ctl 1).getX 4).toNat) ∧ ((s.ctl 1).getX 5).toNat ≤ 9 ∧ (0x40 < 2 ^ 56 ∧ 0x40 % 64 = 0) ∧ ¬ (0x41 % 64 = 0) ∧
    ¬ ((s.slot 1 0).st = .free ∨ (s.slot 1 0).st = .stopped) ∧ (s.slot 1 1).st = .stopped ∧ (s.slot 1 9).st = .free ∧
    (∀ i < 10, ((s.ctl 1).getX 6).getLsbD i = true → (s.slot 1 i).idle = true) ∧ ((s.ctl 1).getX 2).getLsbD 0 = true ∧
    (s.slot 1 0).idle = false ∧ (s.slot 1 1).st ≠ .faulted ∧ (s.slot 1 2).st = .faulted ∧ (s.slot 1 3).st = .faulted ∧
    rollbackSet ((vget 0 (s.ctl 1).d.mtfinfo 3).toNat / 2 ^ 56) = true ∧ rollbackSet ((vget 0 (s.ctl 1).d.mtfinfo 2).toNat / 2 ^ 56) = false := by
  decide +kernel

theorem test_meets_SlotControl_broadcast :
    ∃ img, (withBroadcast.fetchLine 1 0).2 = .ok img ∧ lineType img = 1 ∧ (withBroadcast.fetchLine 1 0).1.fTask = 1 ∧
      ((withBroadcast.fetchLine 1 0).1.slot 1 4).takesLine = true := ⟨_, rfl, by decide +kernel⟩

/-- A kernel with one group of one core. -/
def oneKernel : Kernel :=
  { ctx := 0, handle := 5, src := .task 1, held := true, hdr := 0, shape := 0, affine := false, diemask := 0, count := 1, depend := none,
    bulk := false, prio := 0, lines := 1, ctentry := 0x80, caps := 4, pcol := none, params := [], patches := [], images := [], waybill := [], sem := 0,
    st := .ready, order := 0, since := 0, share := .shared, todo := [], first := 0, done := 0, joined := false, contained := false, met := false,
    starving := [] }

/-- Context 0 with a kernel image at address 0: FORMAT 1, one line, CTENTRY 0x80, CAPS Furis, PCOL none. -/
def withImage : State :=
  (((atHead.mapPage.write 0x120_2000 (codeFrame + 0x8F) 8).write codeFrame (1 + 2 ^ 32 + 0x80 * 2 ^ 64 + 4 * 2 ^ 128 + 0xFFFF_FFFF * 2 ^ 256) 64).updCtx 0
    (fun c => { c with st := .resident, ptroot := tableRoot, caps := 31, classes := 3 }))

/-- A launch record of one group of one core at offset 0x400 of the column. -/
def withRecord (s : State) : State := withX [(1, 0x400)] (s.write (s.colKey 1 (0x400 + 24)) 1 8)

theorem test_meets_LaunchAndJoin :
    let s := withRecord withImage
    let bad := withRecord atHead
    s.dies.electing = false ∧ (s.launchAt 1 0x400).2 = .given 1 ∧ (bad.launchAt 1 0x401).2 = .bad 2 none ∧
    bad.heldKernel 0 0x400 = none ∧ (s.ctl 1).getX 0 = 0 ∧ (s.ctl 1).getX 1 ≠ 0 ∧ (s.ctl 1).getX 1 ≠ 1 := by decide +kernel

theorem test_meets_LaunchAndJoin_over :
    let k : State := { atHead with kernels := [(7, oneKernel), (8, { oneKernel with handle := 6, st := .complete })] }
    k.heldKernel k.me.ctx 5 = some 7 ∧ k.kernel 7 = some oneKernel ∧ oneKernel.st.over = false ∧ k.heldKernel k.me.ctx 6 = some 8 ∧
    k.kernel 8 = some { oneKernel with handle := 6, st := .complete } := by decide +kernel

/-- The shared part of the pool is used up. -/
def poolFull : State := { withRecord withImage with kernels := (List.range 4096).map (fun i => (i + 1, oneKernel)) }

theorem test_meets_LaunchAndJoin_full : (poolFull.launchAt 1 0x400).2 = .full ∧ (poolFull.launchAt 1 0x400).1.fTask = 1 := by decide +kernel

theorem test_meets_FibreMigrationHarvest :
    let s := withX [(1, 0x27_7E00)] (inS atHead)
    let h := withX [(1, 0x27_7FF0)] (inS (atHead.write (atHead.colKey 1 0x27_7FF8) 1 8))
    (s.ctl 1).mode = .s ∧ s.fibreFault 1 0x27_7E00 [] = none ∧ (s.ctl 1).sb = [] ∧
    s.fibreFault 1 0x27_7E00 ((List.range 32).map (8 * ·)) = none ∧ s.lmigrStatus 1 1024 0 ≠ 0 ∧ s.lmigrStatus 1 16384 0 ≠ 4 ∧
    h.ctFault 1 .rd false true 0x27_7FF0 16 = none ∧ h.readSb 1 (h.ctl 1).sb 0x27_7FF8 8 = 1 ∧
    s.ctFault 1 .rd false true 0x27_7E00 16 = none ∧ s.readSb 1 (s.ctl 1).sb 0x27_7E08 8 = 0 := by decide +kernel

/-- The spare position 16 of row 0 of die 0 is free (R15, R173). -/
theorem test_meets_FibreMigrationHarvest_move : (inS atHead).lmigrStatus 1 (16 * 1024) 0 = 0 := by decide +kernel

/-! #### Queues -/

/-- Queue 3 of a RESIDENT context, ACTIVE at a record in host memory. -/
def queued : State :=
  (State.reset.updCtx 0 (fun c => { c with st := .resident, caps := 31, classes := 3 })).updQueue 3 (fun q =>
    { q with st := .active, rbase := 2 ^ 63 + 0x1000, wptr := 1, cp := 0 })

def atQueue (s : State) : State := { s with fQueue := 3 }

/-- The result is this value. -/
abbrev isOk {α ε : Type} [DecidableEq α] (r : Except ε α) (v : α) : Prop := r.toOption = some v

theorem test_meets_QueueRecords :
    let s := atQueue queued
    (isOk (s.queueWord 0 0 (2 ^ 63 + 0x2000)) 0 ∧ QCond.holds .ge 0 0 = true ∧ QCond.holds .ge 0 1 = false) ∧
    isOk (s.queueFixed 0 0 .w (2 ^ 63 + 0x2000)) (hostKey 0x2000) ∧ (s.readWord (hostKey 0x2000) false).2 = .none ∧ s.writeHeld (hostKey 0x2000) = false := by decide +kernel

/-- R404: the page of a semaphore in LPDDR is being staged. -/
theorem test_meets_QueueRecords_held :
    let s : State := { atQueue queued with pg := { State.reset.pg with resid := [(0x400_0000, { Resid.blank with st := .staging })] } }
    s.writeHeld 0x400_0000_0008 = true ∧ (s.readWord 0x400_0000_0008 false).2 = .none := by decide +kernel

theorem test_meets_QueueRecords_forms :
    let s := atQueue queued
    let i := s.updQueue 3 (fun q => { q with point := some (2 ^ 63 + 0x2000), retstk := [0x1000, 0, 0], sdepth := 1 })
    let k := (s.updQueue 3 (fun q => { q with kcopies := [⟨0, 0, 8, 0, 0, [], [], [], [], 0⟩] }))
    let deep := s.updQueue 3 (fun q => { q with sdepth := 3 })
    let down := s.updLink 272 (fun l => { l with st := .failed })
    s.hostDown = false ∧ down.hostDown = true ∧ s.heldBy 3 [.kcopy] = false ∧ s.heldBy 3 [.kernel] = false ∧ (s.queue 3).point = none ∧ (i.queue 3).point ≠ none ∧ isOk (s.queueFixed 0 0 .r (2 ^ 63 + 0x2000)) (hostKey 0x2000) ∧
    (s.queue 3).sdepth < 3 ∧ 3 ≤ (deep.queue 3).sdepth ∧ (s.queue 3).kcopies = [] ∧ (k.queue 3).kcopies ≠ [] ∧ (s.queue 3).retiring = false ∧
    (s.ctx 0).qbar 5 = none := by decide +kernel

theorem test_meets_QueueRecords_idle :
    let s : State := { atQueue queued with kernels := [(7, oneKernel)] }
    let w := s.updQueue 3 (fun q => { q with kernels := [7] })
    (∀ j ∈ (s.queue 3).kernels, ∀ y, s.kernel j = some y → y.st.over = true) ∧
    ¬ (∀ j ∈ (w.queue 3).kernels, ∀ y, w.kernel j = some y → y.st.over = true) := by
  refine ⟨by simp [State.queue, State.updQueue, queued, atQueue]; decide, fun h => ?_⟩
  have := h 7 (by decide +kernel) oneKernel (by decide +kernel)
  exact absurd this (by decide)

/-- R324: the second of two queues arrives. -/
theorem test_meets_QueueRecords_qbar :
    let s := (atQueue queued).updCtx 0 (fun x => x.putQbar ⟨5, 2, [4]⟩)
    let b := ((s.ctx 0).qbar 5).getD ⟨5, 2, []⟩
    b.n = 1 + 1 ∧ b.queues.contains 3 = false ∧ 1 < (b.queues ++ [3]).length ∧ (b.queues ++ [3]).Nodup := by decide +kernel

/-- A launch record at 0x2000 of host memory, offered by queue 3. -/
def offering : State := State.write (atQueue (withImage.updQueue 3 (fun q => { q with st := .active }))) (hostKey 0x2018) 1 8

/-- The parts of a launch of queue 3 as read. -/
def partsOf (s : State) (l : List Word) : Option (State × Parts) :=
  match s.readLaunch (s.queueOffer 3) (LaunchRec.ofWords l) with
  | (u, .ok x) => some (u, x)
  | _ => none
/-- The record is read, and its offer is answered so. -/
def offersAs (s : State) (l : List Word) (r : Reply) : Prop :=
  (partsOf s l).map (fun p => (p.1.offerParts (p.1.queueOffer 3) (LaunchRec.ofWords l) p.2 0).2) = some r

/-- R322: a launch record in host memory is accepted, or waits while the pool is full. -/
theorem test_meets_QueueRecords_klaunch :
    let l : List Word := [0, 0, 0, 1, 0, 0, 0, 0]
    offering.dies.electing = false ∧ offering.completionFault 0 0 0 = none ∧ isOk (offering.queueWords 0 0 8 (2 ^ 63 + 0x2000)) l ∧
    offersAs offering l (.given 1) := by unfold offersAs; decide +kernel

theorem test_meets_QueueRecords_klaunch_full :
    let f : State := { offering with kernels := (List.range 4096).map (fun i => (i + 1, oneKernel)) }
    offersAs f [0, 0, 0, 1, 0, 0, 0, 0] .full := by unfold offersAs; decide +kernel

/-- R323: a copy of 16 bytes within host memory passes its check phase. -/
theorem test_meets_QueueRecords_kcopy :
    let s := (((atQueue queued).write (hostKey 0x2000) (2 ^ 63 + 0x4000) 8).write (hostKey 0x2008) (2 ^ 63 + 0x3000) 8).write (hostKey 0x2010) 16 8
    isOk (s.queueWords 0 0 4 (2 ^ 63 + 0x2000)) [0x8000_0000_0000_4000, 0x8000_0000_0000_3000, 16, 0] ∧ s.hostDown = false ∧
    s.completionFault 0 0 0 = none ∧ s.completionFault 0 0 (2 ^ 63 + 0x5000) = none ∧
    overlapping (2 ^ 63 + 0x4000) (2 ^ 63 + 0x3000) 16 = false ∧ queueForm (2 ^ 63 + 0x4000) = true ∧ queueForm (2 ^ 63 + 0x3000) = true ∧
    isOk (s.kcopyPages 0 0 .w (2 ^ 63 + 0x4000) (2 ^ 47) (pagesIn (2 ^ 63 + 0x4000) 16)) [(2 ^ 47, hostKey 0, false)] ∧
    isOk (s.kcopyPages 0 0 .r (2 ^ 63 + 0x3000) (2 ^ 47) (pagesIn (2 ^ 63 + 0x3000) 16)) [(2 ^ 47, hostKey 0, false)] := by decide +kernel

/-- A queue table at 0x1000000 with a descriptor of queue 9 for context 0: a ring of 16 records at 0x1000 of host memory. -/
def withDescriptor : State :=
  (({ queued with mg := { queued.mg with qtbase := 0x100_0000 } }.write (0x100_0000 + 64 * 9) (2 ^ 63 + 0x1000) 8)).write (0x100_0000 + 64 * 9 + 8) 16 4

theorem test_meets_QueueCommands :
    let s := withDescriptor
    let b : State := { s with mg := { s.mg with qBusy := true } }
    let e := s.updQueue 3 (fun q => { q with st := .error })
    let k := e.updQueue 3 (fun q => { q with kcopies := [⟨0, 0, 8, 0, 0, [], [], [], [], 0⟩] })
    b.mg.qBusy = true ∧ s.mg.qBusy = false ∧ (s.queue 3).st ≠ .free ∧ (s.queue 9).st = .free ∧ s.queueField 9 12 2 < 4096 ∧
    (s.ctx (s.queueField 9 12 2)).st = .resident ∧ (s.queuesOf (s.queueField 9 12 2)).length < 64 ∧
    s.queueDescOk 9 (s.ctx (s.queueField 9 12 2)) = true ∧ (s.queue 3).st ≠ .error ∧ (e.queue 3).st = .error ∧ (s.queue 3).st = .active ∧
    (k.queue 3).kcopies ≠ [] := by decide +kernel

theorem test_meets_QueueDoorbell :
    let x := queued.queue 3
    (x.st ≠ .free ∧ x.st ≠ .halted ∧ x.destroying = false) ∧ ((x.wptr - x.rptr).toNat ≤ ((16 : BitVec 32) - x.rptr).toNat ∧
    ((16 : BitVec 32) - x.rptr).toNat ≤ x.rsize ∧ (16 : BitVec 32) ≠ x.wptr) ∧ x.rsize < ((17 : BitVec 32) - x.rptr).toNat ∧
    ((0 : BitVec 32) - x.rptr).toNat < (x.wptr - x.rptr).toNat ∧ x.retiring = false := by decide +kernel

theorem test_meets_RecordService :
    let e := queued.updQueue 3 (fun q => { q with wptr := 0 })
    State.reset.nextServed 0 = none ∧ queued.nextServed 0 = some 3 ∧ queued.hostDown = false ∧ e.nextServed 0 = some 3 ∧
    (e.queue 3).point = none ∧ (e.queue 3).rptr = (e.queue 3).wptr ∧ (queued.queue 3).rptr ≠ (queued.queue 3).wptr ∧
    isOk (({ queued with fQueue := 3, mg := { queued.mg with served := SMap.put queued.mg.served 0 3 } } : State).queueWords 0 0 2 (2 ^ 63 + 0x1000))
      [0, 0] ∧ (Decode.decodeRec 0).toOption = some .nopq := by decide +kernel

theorem test_meets_Retirement :
    let y := fun (f : Queue → Queue) => queued.updQueue 3 f
    let held : State := { y (fun q => { q with retiring := true }) with pg := { queued.pg with held := [⟨0x2_0008, 0, 0, 1, false, false, true, 3, .record⟩] } }
    ((y (fun q => { q with retiring := true })).queue 3).st = .active ∧ held.heldBy 3 [.record] = true ∧ queued.heldBy 3 [.record] = false ∧
    queued.heldBy 3 [.kcopy] = false ∧
    ((y (fun q => { q with st := .waiting, wait := .copies (some 16) })).queue 3).kcopies = [] ∧
    (let s := y (fun q => { q with st := .waiting, wait := .sem (2 ^ 63 + 0x2000) .ge 0 0 8 0 (some 0) })
     s.hostDown = false ∧ isOk (s.queueWord 0 0 (2 ^ 63 + 0x2000)) 0 ∧ 0 ≤ s.now ∧ QCond.holds .ge 0 0 = true ∧ QCond.holds .ge 0 1 = false) ∧
    (let k : KCopy := ⟨0, 2 ^ 63 + 0x3000, 16, 0, 0, [(0, 2 ^ 38, false)], [(2 ^ 47, hostKey 0, false)], [], [], 1⟩
     let s : State := { y (fun q => { q with kcopies := [k] }) with dies := { queued.dies with fenced := 0xFFFF } }
     (s.queue 3).kcopies[0]? = some k ∧ s.kcopyCut 0 k = true ∧ (s.queue 3).destroying = false ∧ (s.queue 3).st = .active) := by decide +kernel

theorem test_meets_QueueEvents_kcopy :
    let k : KCopy := ⟨2 ^ 63 + 0x4000, 2 ^ 63 + 0x3000, 16, 0, 0, [(2 ^ 47, hostKey 0, false)], [(2 ^ 47, hostKey 0, false)], [], [], 1⟩
    let y := fun (k : KCopy) => queued.updQueue 3 (fun q => { q with kcopies := [k] })
    let s := y k
    let e := y { k with landed := [1, 0], sem := 2 ^ 63 + 0x2000 }
    let f := y { k with spages := [(2 ^ 47, 2 ^ 38, false)] }
    let w : WordOwner := .kcopy 3 1
    let a : State := { s with net := [Packet.new (gatePoint 1).asEnd (gatePoint 0).asEnd 19 0 0 (.word w 1 .ack)] }
    let old : State := { y { k with spages := [(0, 2 ^ 38, false)], src := 0x3000 } with now := Config.leaseLen }
    (s.queue 3).kcopies[0]? = some k ∧ (s.queue 3).kcopies[1]? = none ∧ s.kcopyCut 0 k = false ∧ s.hostDown = false ∧ s.kcopyFault 0 0 k = none ∧
    s.wordPacket w 1 = none ∧ 1 < k.bytes / 8 ∧ s.kcopySpot 0 0 .w k k.dpages (k.dst + 8 * 1) = some (hostKey 0x4008, false) ∧
    s.writeHeld (hostKey 0x4008) = false ∧ s.kcopySpot 0 0 .r k k.spages (k.src + 8 * 1) = some (hostKey 0x3008, false) ∧
    (s.memPoint 0 (hostKey 0x4008)).d = (gatePoint 0).d ∧ (e.queue 3).kcopies.map (·.landed) = [[1, 0]] ∧
    e.semKey .w 0 0 (2 ^ 63 + 0x2000) = some (hostKey 0x2000) ∧ e.writeHeld (hostKey 0x2000) = false ∧ (e.readWord (hostKey 0x2000) false) = (0, .none) ∧
    (f.queue 3).kcopies[0]?.bind (fun k => f.kcopySpot 0 0 .r k k.spages (k.src + 8)) = some (2 ^ 38 + 0x3008, false) ∧
    (f.memPoint 0 (2 ^ 38 + 0x3008)).d ≠ (gatePoint 0).d ∧ (a.wordPacket w 1).map (fun x => (x.1, x.2.1.lost, x.2.2)) = some (0, false, .ack) ∧
    ((old.queue 3).kcopies[0]?.bind (fun k => old.kcopyFault 0 0 k)).isSome = true ∧ (old.queue 3).st = .active := by decide +kernel

theorem test_meets_PoolEntryFreed :
    let s := (withRecord withImage).updCtl 1 (fun c => { c with wait := .launchW 5 0x400 0 })
    let l : List Word := [0, 0, 0, 1, 0, 0, 0, 0]
    let X := ((partsOf offering l).map (·.2)).getD default
    let q := offering.updQueue 3 (fun q => { q with st := .waiting, wait := .pool 0 0 (LaunchRec.ofWords l) X })
    State.reset.nextWaiter = none ∧ s.dies.electing = false ∧ s.tableFull = false ∧ s.nextWaiter = some (0, 0, .task 1) ∧
    (s.task 1).st = .running ∧ (s.task 1).halted = false ∧ (s.task 1).ending = false ∧ s.interrupt 1 = none ∧
    ((s.updTask 1 (fun k => { k with resumedFor := none })).launchAt 1 0x400).2 = .given 1 ∧ q.nextWaiter = some (0, 0, .queue 3) ∧
    (q.offerParts (q.queueOffer 3) (LaunchRec.ofWords l) X 0).2 = .given 1 := by
  decide +kernel

/-! #### Contexts, the pipe, arrivals, moves -/

/-- A context table at 0x2000000 with a descriptor of context 7: one save frame, class prompt. -/
def withCtxDescriptor : State :=
  let s : State := { State.reset with mg := { State.reset.mg with ctxtbase := 0x200_0000 } }
  (s.write (0x200_0000 + 256 * 7 + 40) 1 4).write (0x200_0000 + 256 * 7 + 56) 1 1

theorem test_meets_ContextCreate :
    let s := withCtxDescriptor
    let p : State := { s with mg := { s.mg with ctxPend := some (3, 1) } }
    p.mg.ctxPend ≠ none ∧ s.mg.ctxPend = none ∧ (s.ctx 7).st = .undefined ∧ s.descriptorOk 7 = true ∧ s.descriptorOk 8 = false ∧
    (s.ctx 7).st ≠ .defined ∧ (queued.ctx 0).st ≠ .undefined ∧ (queued.ctx 0).st = .resident := by decide +kernel

theorem test_meets_ContextAdmit :
    let d : Ctx := { Ctx.blank with st := .defined }
    let r := fun (n : Nat) (ch : Bool) => (List.range n).map (fun i => (i + 8, { Ctx.blank with st := .resident, channel := if ch then some i else none, place := some i }))
    let s : State := { State.reset with ctxs := (7, d) :: r 63 false }
    let f : State := { State.reset with ctxs := (7, d) :: r 64 false }
    let a : State := { State.reset with ctxs := (7, { d with chanAsk := true }) :: r 15 true }
    let n : State := { State.reset with ctxs := (7, { d with chanAsk := true }) :: r 16 true }
    (s.ctx 7).st = .defined ∧ s.residents < 64 ∧ (s.ctx 7).chanAsk = false ∧ 64 ≤ f.residents ∧ (a.ctx 7).chanAsk = true ∧
    a.residents < 64 ∧ a.freeChannel = some 15 ∧ n.residents < 64 ∧ n.freeChannel = none := by decide +kernel

theorem test_meets_EvictionAndDestroy :
    let s := atHead.updCtx 0 (fun c => { c with st := .evicting, channel := some 0 })
    let e := s.updTask 1 (fun k => { k with st := .saved })
    let b : Bale := ⟨Vector.replicate 10 0, 0, pcAt 0 1, Ident.zero, 0, false, 0⟩
    let p := { Packet.new ⟨0, 0, 1⟩ ⟨0, 0, 0⟩ 0 0 0 (.bale b) with held := true }
    let n : State := { e with net := [p] }
    let big : State := { n with net := List.replicate 300 p }
    let on : State := { e with net := [Packet.new ⟨0, 0, 1⟩ ⟨0, 0, 0⟩ 0 0 0 (.bale b), { p with held := false, path := some [0] }] }
    let d := State.reset.updCtx 5 (fun c => { c with st := .destroying, destroyAt := 0 })
    e.mg.ctxPend = none ∧ (e.ctx 0).st = .evicting ∧ (∀ x ∈ e.tasks, x.2.ctx = 0 → x.2.live = true → x.2.st = .saved) ∧ e.net = [] ∧
    (∀ p ∈ n.net, n.spoolable 0 p = true) ∧ (n.spoolAll n.net).isSome = true ∧ (big.spoolAll big.net) = none ∧ e.queues = [] ∧ d.net = [] ∧
    on.net.map (on.spoolable 0) = [true, false] ∧ on.net.map (·.held) = [false, false] ∧ d.queues = [] ∧
    (d.ctx 5).st = .destroying ∧ (d.ctx 5).destroyAt ≤ d.now ∧ d.chargedTo 5 = [] := by decide +kernel

/-- Task 1's line of one NOP as delivered to slot 0, before its entry; slot 2 is READY. -/
def atEntry : State :=
  (atHead.updSlot 1 0 (fun x => { x with line := { LineSt.none with img := some (oneHeadLine 0 0 0) } })).updSlot 1 2 (fun x => { x with st := .ready })

theorem test_meets_LineEntry :
    let bad := atEntry.updSlot 1 0 (fun x => { x with line := { LineSt.none with img := some (List.replicate 32 0) } })
    let none_ := atEntry.updSlot 1 0 (fun x => { x with line := LineSt.none })
    let tired := atEntry.updSlot 1 0 (fun x => { x with budget := 1024 })
    atEntry.cutDue 1 = false ∧ (atEntry.slot 1 0).kill = none ∧ (atEntry.arch 1).runner = some 0 ∧ (atEntry.slot 1 0).line.entered = false ∧
    (atEntry.task 1).mayEnter (atEntry.slot 1 0) = true ∧ lineOk (oneHeadLine 0 0 0) = true ∧ lineOk (List.replicate 32 0) = false ∧
    (bad.slot 1 0).line.img = some (List.replicate 32 0) ∧ (none_.slot 1 0).line.img = none ∧ (none_.fetchLine 1 0).2.toOption = none ∧
    Config.runBudget ≤ (tired.slot 1 0).budget ∧ (tired.slot 1 2).st = .ready ∧ (tired.task 1).mayEnter (tired.slot 1 2) = true ∧
    (tired.slot 1 1).st ≠ .ready := by decide +kernel

/-- Context 0 maps a line of one NOP. -/
theorem test_meets_LineEntry_fetched :
    let s : State := (withBroadcast.updSlot 1 0 (fun x => { x with line := LineSt.none }))
    ∃ img, (s.fetchLine 1 (s.slot 1 0).line_).2 = .ok img ∧ lineOk img = true := ⟨_, rfl, by decide +kernel⟩

theorem test_meets_LineEnd :
    let s := atHead.updSlot 1 0 (fun x => { x with line := { x.line with next := 2 } })
    let g := atHead.updSlot 1 0 (fun x => { x with line := { x.line with next := 2, img := some ((oneHeadLine 0 0 0).set 0 0x4080) } })
    let b := s.updSlot 1 0 (fun x => { x with line := { x.line with target := some (pcAt 64 1) } })
    let f := s.updSlot 1 0 (fun x => { x with ind := false })
    let q := (s.updSlot 1 0 (fun x => { x with line := { x.line with safept := some 5 } })).updTask 1 (fun k => { k with st := .quiesceSave })
    (s.arch 1).runner = some 0 ∧ (s.slot 1 0).line.entered = true ∧ lineHeads (oneHeadLine 0 0 0) < 2 ∧ (g.slot 1 0).sigBad = true ∧
    (s.slot 1 0).sigBad = false ∧ (b.slot 1 0).line.target = some (pcAt 64 1) ∧ (s.slot 1 0).ind = true ∧ (f.slot 1 0).ind = false ∧
    (q.slot 1 0).line.safept = some 5 ∧ (q.task 1).quiescing = true ∧ (q.task 1).bulk = false := by decide +kernel

theorem test_meets_PipeIdleAndWait :
    let s := (atEntry.updSlot 1 0 (fun x => { x with st := .waiting, wr := .linkInbox, cond := .inbox, inbox := [3] })).updArch 1 (fun a => { a with holder := 9 })
    let none_ := s.updSlot 1 2 (fun x => { x with st := .free })
    (s.task 1).active = true ∧ (s.arch 1).runner = none ∧ (s.arch 1).holder = 9 ∧ (s.slot 1 ((9 + 3) % 10)).st = .ready ∧
    (∀ i < 10, (none_.slot 1 i).st ≠ .ready) ∧ (s.slot 1 0).st = .waiting ∧ (s.task 1).st = .running ∧ (s.task 1).halted = false ∧
    (s.slot 1 0).cond = .inbox ∧ (s.slot 1 0).inbox ≠ [] := by decide +kernel

/-- A group of tasks 1 and 2 at (0, 0, 0) and (0, 0, 1). -/
def pair : State :=
  let g : Group := { kernel := 9, gidx := 0, top := 2, tasks := [1, 2], placedAt := 0, prio := 0, order := 0, rbcnt := 0, nr := false, rolling := false,
                     reads := [], writes := [], podSeq := none, podRest := [], restSent := false, complete := false, killed := false }
  let s : State := { atHead with groups := [(4, g)] }
  ((s.setTask 2 { Task.placed with coord := ⟨0, 0, 1⟩, phys := ⟨0, 0, 1⟩, home := ⟨0, 0, 1⟩, group := 4, index := 1 }).updTask 1
    (fun k => { k with group := 4 })).updCtx 0 (fun c => { c with st := .resident, channel := some 0 })

def aBale : Bale := ⟨Vector.replicate 10 0, 0, pcAt 64 1, Ident.zero, 0, false, 0⟩
/-- A packet from (0, 0, 0) to (0, 0, 1). -/
def packet (b : Body) : State := { pair with net := [Packet.new ⟨0, 0, 0⟩ ⟨0, 0, 1⟩ 0 0 4 b] }

theorem test_meets_BaleLeaves :
    let s := pair.updSlot 1 0 (fun x => { x with st := .travelling, travel := some (⟨0, 0, 1⟩, 0) })
    (s.slot 1 0).travel = some (⟨0, 0, 1⟩, 0) ∧ (s.slot 1 0).sb = [] ∧ (s.task 1).onCore = true ∧ s.inGroup 1 ⟨0, 0, 1⟩ = true ∧
    (s.arch 1).fenceStalls (s.slot 1 0) = false := by decide +kernel

theorem test_meets_PacketsArrive :
    let s := packet (.bale aBale)
    let full := s.updMsgs 2 (fun q => { q with arrivals := List.replicate 16 (.bale aBale) })
    let full2 := s.updMsgs 2 (fun q => { q with arrivals := List.replicate 272 (.bale aBale) })
    let gone := s.updTask 2 (fun k => { k with st := .ended })
    let far : State := { pair with net := [Packet.new ⟨0, 0, 0⟩ ⟨17, 0, 1⟩ 0 0 4 (.bale aBale)] }
    let lost : State := { pair with net := [{ Packet.new ⟨0, 0, 0⟩ ⟨0, 0, 1⟩ 0 0 4 (.bale aBale) with lost := true }] }
    let waits : State := { s with net := s.net ++ [{ Packet.new ⟨0, 0, 1⟩ ⟨0, 0, 1⟩ 0 0 4 (.bale aBale) with turn := some 3 }] }
    let away := s.updTask 2 (fun k => { k with st := .saved })
    let fen : State := { s with dies := { s.dies with fenced := 1 } }
    s.nextPacket 0 = some (Packet.new ⟨0, 0, 0⟩ ⟨0, 0, 1⟩ 0 0 4 (.bale aBale)) ∧ s.validCoord ⟨0, 0, 1⟩ = true ∧
    State.waitsBefore { s with net := [] } 2 none = false ∧ (lost.nextPacket 0).map (·.lost) = some true ∧
    State.waitsBefore { waits with net := waits.net.eraseIdx 0 } 2 none = true ∧ (packet (.bale aBale)).net.map (·.turn) = [none] ∧
    (waits.nextPacket 0).isSome = true ∧ away.taskAt 0 ⟨0, 0, 1⟩ = some 2 ∧ (away.task 2).takes = false ∧ s.taskAt 0 ⟨0, 0, 1⟩ = some 2 ∧ (s.task 2).takes = true ∧ (s.task 2).group = 4 ∧
    (s.arch 2).msgs.arrivals.length < 16 ∧ 16 ≤ (full.arch 2).msgs.arrivals.length ∧ (full.arch 2).msgs.room = true ∧
    (full2.arch 2).msgs.room = false ∧ gone.taskAt 0 ⟨0, 0, 1⟩ = none ∧ (far.nextPacket 0).isSome = true ∧ fen.validCoord ⟨0, 0, 1⟩ = false := by
  decide +kernel

theorem test_meets_MessagesArrive :
    let m := note 3 false
    let t : Msg := { m with trig := true }
    let s := packet (.msg m)
    let full := s.updMsgs 2 (fun q => { q with mailbox := List.replicate 64 m })
    let b := (packet (.msg t)).updMsgs 2 (fun q => { q with tags := vset q.tags 3 (.bound 64) })
    m.trig = false ∧ (s.nextPacket 0).map (·.body) = some (.msg m) ∧ (s.arch 2).msgs.mailbox.length < 64 ∧ 64 ≤ (full.arch 2).msgs.mailbox.length ∧
    (b.arch 2).msgs.tag t.tag = .bound 64 ∧ ((packet (.msg t)).arch 2).msgs.tag t.tag = .unbound ∧ (s.task 2).kh = 0 ∧ (s.task 2).gidx = 0 ∧
    ((packet (.credit 0 0)).nextPacket 0).isSome = true ∧ ((packet (.retBale aBale 0x0E)).nextPacket 0).isSome = true ∧
    ((packet (.copyErr 0 9 0 0)).nextPacket 0).isSome = true ∧ ((packet (.copyErr 0 9 5 0)).task 2).kh ≠ 5 ∧ aBale.id.skh = 0 ∧ aBale.id.sgrp = 0 ∧ aBale.id.sp = false ∧ ((packet (.retMsg m 0x0E ⟨0, 0, 0⟩)).nextPacket 0).isSome = true ∧
    m.kh = 0 ∧ m.grp = 0 := by decide +kernel

theorem test_meets_Admission :
    let s := fun (l : List Arrival) => pair.updMsgs 2 (fun q => { q with arrivals := l })
    ((pair.task 2).takes = true ∧ (pair.slot 2 0).st = .free ∧ (pair.arch 2).msgs.parking = []) ∧
    ((s [.bale aBale]).arch 2).msgs.arrivals = .bale aBale :: [] ∧ aBale.id.nx = (pair.eng 2).nx ∧
    ({ aBale.id with nx := true } : Ident).nx ≠ (pair.eng 2).nx ∧ ((s [.returned aBale 255]).arch 2).msgs.arrivals = .returned aBale 255 :: [] ∧
    ((s [.handler (note 3 false) 64]).arch 2).msgs.arrivals = .handler (note 3 false) 64 :: [] ∧ (note 3 false).nx = (pair.eng 2).nx := by
  decide +kernel

theorem test_meets_SendBuffer :
    let e : SendEnt := ⟨note 3 false, ⟨0, 0, 1⟩, 0, none⟩
    let r : SendEnt := { e with hold := some (1, []) }
    let s := fun x => pair.updMsgs 1 (fun q => { q with sendb := [x] })
    let w := (s r).updSlot 1 0 (fun x => { x with sb := [⟨0, 8, 1, 0⟩] })
    ((s e).arch 1).msgs.sendb[0]? = some e ∧ ((s e).task 1).sends = true ∧ e.dst ≠ ((s e).task 1).coord ∧ (s e).inGroup 1 e.dst = true ∧
    ((s { e with dst := ⟨0, 0, 0⟩ }).task 1).coord = ⟨0, 0, 0⟩ ∧ e.msg.trig = false ∧ r.hold ≠ none ∧ (s r).holdOver 1 r = true ∧
    w.holdOver 1 r = false := by decide +kernel

theorem test_meets_Landing_trap :
    let s := pair.updTask 1 (fun k => { k with trapSince := some 0, trapAsk := 0, trapOpen := true })
    let z := s.updTask 1 (fun k => { k with trapOpen := false })
    let none_ : State := { s with dies := { s.dies with fenced := 0xF000 } }
    let l : State := { s.updSlot 1 0 (fun x => { x with st := .waiting, wr := .migrate, cond := .generation true 0 }) with now := 100_000 }
    (s.task 1).st = .running ∧ (s.task 1).trapSince ≠ none ∧ (s.task 1).halted = false ∧ (s.task 1).ending = false ∧
    (s.landingFor 1 (!s.onVega 1)).isSome = true ∧ s.trapLives 1 = true ∧ s.trapLate 1 = false ∧ (s.task 1).trapOpen = true ∧ (z.task 1).trapOpen = false ∧
    none_.landingFor 1 (!none_.onVega 1) = none ∧ atHead.trapLives 1 = false ∧ (l.task 1).trapAsk + 10_000 ≤ l.now ∧ s.now < (s.task 1).trapAsk + 10_000 ∧
    (l.task 1).ezSince = none ∧ (∀ i < 10, (l.slot 1 i).kill = none) ∧ l.overdue (l.slot 1 0) = true ∧ l.overdue (l.slot 1 1) = false := by
  decide +kernel

/-- Task 1 has come to rest at a SAFEPT line end. -/
def atRest (st : TaskSt) : State :=
  (pair.updSlot 1 0 (fun x => { x with st := .ready, line := LineSt.none, quiet := some 5, sb := [⟨0, 8, 1, 0⟩] })).updTask 1
    (fun k => { k with st := st, frame := some 0, landing := some ⟨0, 0, 16⟩ })

theorem test_meets_Moves :
    let s := atRest .quiesceMove
    let k := s.task 1
    let m := atRest .moving
    let n := m.updTask 1 (fun k => { k with landing := none, markers := [0, 5] })
    let r := m.updTask 1 (fun k => { k with mvWhy := .retire })
    let held : State := { n with net := [{ Packet.new ⟨0, 0, 0⟩ ⟨0, 0, 0⟩ 0 0 4 (.msg (note 3 false)) with goal := ⟨0, 0, 0⟩, path := some [3] }] }
    (k.st = .quiesceMove ∧ k.landing = some ⟨0, 0, 16⟩ ∧ (s.fwdOf k.phys).length < 16 ∧ k.halted = false ∧ k.ending = false ∧ k.cutRes = none ∧
      k.arch.seq = none ∧ k.ctRests = true ∧ (∀ i < 10, k.slotRests (s.slot 1 i) = true) ∧ (s.eng 1).cmds = []) ∧
    (m.task 1).st = .moving ∧ m.cores.marked.contains (m.task 1).phys = false ∧ (n.task 1).landing = none ∧ 1 < (n.task 1).markers.length ∧
    (n.task 1).markers.find? (fun c => n.markersIn (n.task 1) c) = some 0 ∧ held.markersIn (held.task 1) 0 = false ∧ (m.task 1).mvWhy ≠ .retire ∧
    (r.task 1).mvWhy = .retire ∧ (r.task 1).home = (r.task 1).phys ∧ (⟨0, 0, 16⟩ : Phys) ≠ (r.task 1).phys ∧
    (let o := n.updTask 1 (fun k => { k with markers := [5] })
     (o.task 1).why = .none ∧ (o.task 1).markers = [5] ∧ o.markersIn (o.task 1) 5 = true ∧ ∀ i < 10, (o.slot 1 i).wr ≠ .migrate) := by decide +kernel

/-- The save area of context 0, one large page of HBM. -/
def withSaveArea (s : State) : State :=
  ((s.write tableRoot (0x120_0000 + 1) 8).write 0x120_0000 (0x4000_0000 + 0x8F) 8).updCtx 0 (fun c => { c with st := .resident, ptroot := tableRoot })

theorem test_meets_Saves :
    let q := atRest .quiesceSave
    let s := withSaveArea (atRest .saving)
    let v := withSaveArea ((atRest .saved).updTask 1 (fun k => { k with landing := none }))
    let w := (v.updTask 1 (fun k => { k with why := .wait })).updSlot 2 3 (fun x => { x with st := .waiting, wr := .message, cond := .message 4 })
    (q.task 1).st = .quiesceSave ∧ (q.task 1).frame = some 0 ∧ (s.framePages 0 0 .w).isSome = true ∧ (s.task 1).arch.msgs.sendb = [] ∧
    v.canSeat 1 = true ∧ (v.framePages 0 0 .r).isSome = true ∧ (∀ p ∈ (v.framePages 0 0 .r).getD [], v.takesWrite p = true) ∧ (v.task 1).why ≠ .wait ∧ v.mayResume 1 = true ∧ (v.task 1).frameImg = [] ∧
    (let p := w.updTask 1 (fun k => { k with why := .preempt }); (p.task 1).why = .preempt ∧ p.groupWaits 1 = true) ∧
    (let r := v.updGroup 4 (fun x => { x with rolling := true }); r.rollsBack 1 = true ∧ r.canSeat 1 = true) ∧ v.groupWaits 1 = false ∧
    (w.task 1).why = .wait ∧ w.groupWaits 1 = true ∧ w.canSeat 1 = true := by decide +kernel

theorem test_meets_Saves_image :
    let v := withSaveArea ((atRest .saved).updTask 1 (fun k => { k with landing := none }))
    let b := v.write 0x4000_0000 1 1
    v.frameCells ((v.framePages 0 0 .r).getD []) = (v.task 1).frameImg ∧ b.frameCells ((b.framePages 0 0 .r).getD []) ≠ (b.task 1).frameImg := by
  decide +kernel

theorem test_meets_Resave :
    let s : State := { pair.updTask 1 (fun k => { k with resumedFor := some 0 }) with now := 100_000 }
    let s := s.updCtl 1 (fun c => { c with wait := .joink 5 9 })
    (s.task 1).resumedFor = some 0 ∧ (s.task 1).st = .running ∧ 0 + 100_000 ≤ s.now ∧ s.groupWaits 1 = false ∧
    (s.task 1).arch.ctl.wait = .joink 5 9 := by decide +kernel

/-! ### Engine commands -/

/-- The result is this error. -/
abbrev isErr {α ε : Type} [DecidableEq ε] (r : Except ε α) (e : ε) : Prop := (match r with | .error x => some x | .ok _ => none) = some e

def withCmd (c : Cmd) (s : State) : State := s.updEng 1 (fun e => { e with count := 1, cmds := [c] })
def ownCopy : CopyD := ⟨0x2_0200, 0x2_0100, 8, 2, 8, 8, .own, .own⟩
def copyCmd (st : CmdSt) : Cmd := { someCmd with queue := 0, op := .copy ownCopy, st := st }

theorem test_meets_EngineEvents_begin :
    let bad : Cmd := { someCmd with fault := some (0x16, 0) }
    let shut : Cmd := { someCmd with sync := ⟨0, 5, true, 0, 0, false⟩ }
    let pop : Cmd := { someCmd with op := .ezpop 0 5 }
    (atHead.headCmd 1 4 = none ∧ (atHead.eng 1).find 0 = none) ∧ ((withCmd bad atHead).headCmd 1 4 = some bad ∧ ((withCmd bad atHead).eng 1).find 0 = some bad) ∧
    ((withCmd shut atHead).headCmd 1 4 = some shut ∧ ((withCmd shut atHead).arch 1).mayBegin ⟨0, 0, 0⟩ shut = false) ∧
    ((withCmd someCmd atHead).headCmd 1 4 = some someCmd ∧ ((withCmd someCmd atHead).arch 1).mayBegin ⟨0, 0, 0⟩ someCmd = true ∧
      someCmd.op.isEasel = true ∧ someCmd.again = false ∧ ((withCmd { someCmd with again := true } atHead).headCmd 1 4).map (·.again) = some true ∧ ((withCmd someCmd atHead).eng 1).letters someCmd.op = [] ∧
      ((withCmd someCmd atHead).arch 1).easelFault someCmd.op = none ∧ (someCmd.fault = none)) ∧
    (pop.op.isEasel = true ∧ ((withCmd pop atHead).headCmd 1 4 = some pop) ∧ ((withCmd pop atHead).arch 1).easelFault pop.op = some (0x17, 0)) := by
  decide +kernel

theorem test_meets_EngineEvents_copy :
    let c := copyCmd .accepted
    let s := withCmd c atHead
    let b := copyCmd .begun
    let w := withCmd b atHead
    let all : Cmd := { b with landed := [0, 1] }
    (s.headCmd 1 0 = some c ∧ (s.arch 1).mayBegin (s.task 1).coord c = true ∧ c.again = false ∧
      (∀ p ∈ ownCopy.dPieces, firstDenied (s.ctl 1).d.lpa false .wr p.1 p.2 = none) ∧
      (∀ p ∈ ownCopy.sPieces, firstDenied (s.ctl 1).d.lpa false .rd p.1 p.2 = none)) ∧
    ((w.eng 1).find 0 = some b ∧ b.st = .begun ∧ (w.task 1).onCore = true ∧ 1 < ownCopy.words ∧ 1 ∉ b.landed ∧
      (rowAt ownCopy.dst ownCopy.dstr (1 / (ownCopy.rowb / 8))).toNat + 8 * (1 % (ownCopy.rowb / 8)) + 8 ≤ Config.undoBase) ∧
    ((w.eng 1).queue 0).head? = some b ∧ b.landed.length < ownCopy.words ∧ ownCopy.words ≤ all.landed.length ∧
    ((withCmd all w).eng 1).find 0 = some all ∧ (((withCmd all w).eng 1).queue 0).head? = some all := by decide +kernel

theorem test_meets_EngineEvents_complete :
    let b : Cmd := { someCmd with st := .begun, op := .ezzld 0 0 }
    let s := withCmd b atHead
    let p := s.setPoison (s.colKey 1 64) .poisoned
    ((s.eng 1).queue 4).head? = some b ∧ b.seen = [] ∧ (s.eng 1).find 0 = some b ∧ (s.task 1).onCore = true ∧ s.colPoison 1 [] 0 4096 = none ∧
    p.colPoison 1 [] 0 4096 = some (64, .poisoned) ∧ ((p.eng 1).queue 4).head? = some b := by decide +kernel

def aLoad : TloadD := ⟨0, 0, 65536, 10, 0, 0⟩
def loadCmd (st : CmdSt) : Cmd := { someCmd with queue := 0, op := .tload aLoad, st := st, sync := ⟨0, 0, false, 3, 0, true⟩ }

theorem test_meets_EngineEvents_tload :
    let c : Cmd := { loadCmd .accepted with op := .tload { aLoad with range := 65536 } }
    let s := withCmd c (withImage.write 0x120_2008 (codeFrame + 0x10_000F) 8)
    let w : State := { withCmd (loadCmd .begun) withImage with now := 10 }
    let none_ := { withCmd (loadCmd .begun) atHead with now := 10 }
    s.headCmd 1 0 = some c ∧ (s.arch 1).mayBegin (s.task 1).coord c = true ∧
    isErr ((s.flushBefore 1 c.slot c.after).rangeFrames (s.task 1).ctx 3 .r 65536 (aLoad.bytes / 65536)) (.absent, 65536) ∧
    (w.eng 1).find 0 = some (loadCmd .begun) ∧ aLoad.deadline ≤ w.now ∧ none_.tloadCode 0 aLoad [⟨0, false, 0x400_0000_0000, 1, false, 5⟩] = none ∧ w.tloadCode 0 aLoad (loadCmd .begun).leases = some 2 := by decide +kernel

theorem test_meets_EngineEvents_lease :
    let d : CopyD := { ownCopy with src := 0, sEnd := .level 3 }
    let l : PageLease := ⟨0, false, codeFrame, 1, false, 5⟩
    let c : Cmd := { someCmd with queue := 0, op := .copy d, st := .begun, leases := [l] }
    let s : State := { withCmd c withImage with now := 5 }
    let n : State := { withCmd c atHead with now := 5 }
    (s.eng 1).find 0 = some c ∧ c.leases[0]? = some l ∧ (s.task 1).onCore = true ∧ l.expiry ≤ s.now ∧ c.pageOpen l = true ∧
    (s.taskTranslate 1 (d.scopeOf l.write) .r (l.vpage * 65536)).isOk = true ∧
    (n.taskTranslate 1 (d.scopeOf l.write) .r (l.vpage * 65536)).isOk = false := by decide +kernel

/-! ### The control thread, registers, ends, groups -/

theorem test_meets_ControlThreadEvents_interrupts :
    let s := fun (f : Ctl → Ctl) => atHead.updCtl 1 f
    let on := fun (f : Ctl → Ctl) => (s f).updCtl 1 (fun c => { c with s := { c.s with sie := 0x70022, stimecmp := 0 } })
    let late := on (fun c => { c with d := { c.d with elV := true, mtfpend := 1, upPq := 1 } })
    let flt := on (fun c => { c with d := { c.d with mtfpend := 1, upPq := 1 } })
    let up := on (fun c => { c with d := { c.d with upPq := 1 }, s := { c.s with ssip := true } })
    let soft := on (fun c => { c with s := { c.s with ssip := true } })
    let timer := on id
    ((atHead.task 1).active = true ∧ (atHead.task 1).ending = false ∧ (atHead.task 1).st = .running ∧ (atHead.ctl 1).mode = .u ∧ (atHead.ctl 1).d.elV = false) ∧
    ((late.ctl 1).d.elV = true ∧ (late.ctl 1).s.sie.getLsbD 17 = true ∧ (late.ctl 1).mode = .u) ∧
    ((flt.ctl 1).d.elV = false ∧ (flt.ctl 1).d.mtfpend ≠ 0 ∧ (flt.ctl 1).s.sie.getLsbD 16 = true) ∧
    ((up.ctl 1).d.mtfpend = 0 ∧ (up.ctl 1).d.upPq ≠ 0 ∧ (up.ctl 1).s.sie.getLsbD 18 = true) ∧
    ((soft.ctl 1).d.upPq = 0 ∧ (soft.ctl 1).s.ssip = true ∧ (soft.ctl 1).s.sie.getLsbD 1 = true) ∧
    ((timer.ctl 1).s.ssip = false ∧ (timer.ctl 1).s.stimecmp.toNat ≤ timer.now ∧ (timer.ctl 1).s.sie.getLsbD 5 = true) := by decide +kernel

theorem test_meets_ControlThreadEvents_waits :
    let w := fun x => atHead.updCtl 1 (fun c => { c with wait := x })
    let m := w (.mtwait 5 6)
    let n := w (.mtwait 5 7)
    let c := w (.cbar 0 none 0 [])
    let d := (w (.cbar 9 none 0 [])).updCtl 1 (fun c => { c with sb := [⟨0, 8, 1, 0⟩] })
    let j : State := { w (.joink 5 9) with kernels := [(9, { oneKernel with st := .complete })] }
    let k : State := { w (.joink 5 9) with kernels := [(9, oneKernel)] }
    ((m.ctl 1).wait = .mtwait 5 6 ∧ (m.ctl 1).dflt = false ∧ (∀ i < 10, Nat.testBit 6 i = true → (m.slot 1 i).idle = true) ∧
      (n.slot 1 0).idle = false ∧ Nat.testBit 7 0 = true) ∧
    ((m.ctl 1).d.elV = false ∧ (m.ctl 1).d.mtfpend = 0 ∧ (m.ctl 1).d.upPq = 0 ∧ (m.ctl 1).s.ssip = false ∧ (m.ctl 1).s.sie.getLsbD 5 = false) ∧
    (let q := m.updCtl 1 (fun c => { c with s := { c.s with sie := 0x70022, ssip := true } })
     (q.ctl 1).wait = .mtwait 5 6 ∧ (q.ctl 1).mode = .u ∧ (q.ctl 1).s.ssip = true ∧ (q.ctl 1).s.sie.getLsbD 1 = true) ∧
    ((c.ctl 1).wait = .cbar 0 none 0 [] ∧ c.cbarOver 1 (max 0 0) [] = true ∧ d.cbarOver 1 (max 9 0) [] = false) ∧
    ((j.ctl 1).wait = .joink 5 9 ∧ j.kernel 9 = some { oneKernel with st := .complete } ∧ KSt.complete.over = true ∧ (j.task 1).halted = false ∧
      (j.task 1).st = .running) ∧ k.kernel 9 = some oneKernel ∧ oneKernel.st.over = false := by decide +kernel

theorem test_meets_RegisterWriteEvents :
    let s := atHead.write (atHead.colKey 1 0x400) 0x100 8
    let bad := atHead.write (atHead.colKey 1 0x400) 0x700 8
    let i : Inst := { Inst.new 0 1 0 [1] with st := .aborted }
    let r : State := { atHead with insts := [(instKey 0 1 0, i)] }
    let o : State := { atHead with insts := [(instKey 0 1 0, { i with st := .gathering })] }
    ((s.task 1).active = true ∧ (s.task 1).ending = false ∧ s.ctReadFault 1 0x400 8 = none ∧ postRefused (s.ctWords 1 0x400 8) = false ∧
      postRefused (bad.ctWords 1 0x400 8) = true ∧ bad.ctReadFault 1 0x400 8 = none) ∧
    (SMap.find r.insts (r.myInst 1 1) = some i ∧ (SMap.find o.insts (o.myInst 1 1)).isSome = true) ∧ (State.reset.task 1).active = false ∧
    (0x5D1 : BitVec 12).toNat / 1024 = 1 ∧ (0xC00 : BitVec 12).toNat / 1024 = 3 := by decide +kernel

theorem test_meets_RegisterWriteEvents_module :
    let r := State.reset
    let e : State := { r with mg := { r.mg with podEn := true } }
    let h : State := { r with pw := { r.pw with tj := 90 } }
    let w := fun (n : Nat) => n * 256 / 2 ^ 8 % 2 ^ 8
    (∀ e ∈ r.ctxs, e.2.st ≠ .resident) ∧ (∃ e ∈ queued.ctxs, e.2.st = .resident) ∧ 4194304 < 0x7F_FFFF % 2 ^ 23 ∧ r.mg.podEn = false ∧ e.mg.podEn = true ∧
    w 79 < 80 ∧ 105 < w 106 ∧ (80 ≤ w 80 ∧ w 105 ≤ 105 ∧ r.pw.tj ≤ w 80) ∧ (w 80 < h.pw.tj ∧ h.pw.hot = false) ∧
    (0x31 : Nat) % 4 = 1 ∧ (0x32 : Nat) % 4 = 2 ∧ (0x33 : Nat) % 4 = 3 := by decide +kernel

theorem test_meets_RegisterWriteEvents_append :
    let s := atHead.write (atHead.colKey 1 0x400) 0x100 8
    ∃ s' st idx, s.trapAppend 0 (postRecord (s.ctWords 1 0x400 8) s.now) (((s.ctWords 1 0x400 8).getD 0 0).getLsbD 16) = (s', st, idx) :=
  (fun p => ⟨p.1, p.2.1, p.2.2, rfl⟩ : ∀ p : State × Nat × Nat, ∃ a b c, p = (a, b, c)) _

theorem test_meets_TasksEndAndGroupsAreKilled :
    let s := atHead.updSlot 1 0 (fun x => { x with st := .waiting, line := LineSt.none })
    let g : State := { pair with kernels := [(9, oneKernel)] }
    let e := s.updTask 1 (fun k => { k with ending := true })
    let f := atHead.updTask 1 (fun k => { k with ending := true })
    let i : Inst := { Inst.new 4 1 0 [1, 2] with st := .gathering }
    let j : State := { g with insts := [(instKey 4 1 0, i)] }
    let c := g.updGroup 4 (fun x => { x with complete := true })
    ((s.task 1).active = true ∧ (s.task 1).ending = false ∧
      (∀ i < 10, (s.slot 1 i).st ≠ .travelling ∧ ((s.slot 1 i).st = .running → (s.slot 1 i).line.entered = false)) ∧ (s.eng 1).cmds = []) ∧
    ((e.task 1).ending = true ∧ (f.task 1).ending = true ∧ (e.eng 1).cmds = [] ∧ (e.slot 1 0).st = .waiting) ∧
    ((atHead.slot 1 0).st = .running ∧ (atHead.slot 1 0).line.entered = true ∧ (f.slot 1 0).line.entered = true) ∧
    (SMap.find j.insts (instKey 4 1 0) = some i ∧ i.group = (j.task 1).group ∧ i.live = true ∧ (j.task 2).live = true) ∧
    ((c.task 1).active = true ∧ (SMap.find c.groups (c.task 1).group).map (·.complete) = some true) ∧
    ((g.task 1).active = true ∧ (SMap.find g.groups (g.task 1).group).map (fun x => (x.kernel, x.complete, x.killed)) = some (9, false, false) ∧
      g.kernel 9 = some oneKernel) := by decide +kernel

theorem test_meets_KernelAndGroupEvents :
    let w : Kernel := { oneKernel with st := .waitdep, depend := some 8 }
    let s : State := { State.reset with kernels := [(9, w), (8, { oneKernel with handle := 4, st := .complete })] }
    let n : State := { State.reset with kernels := [(9, w), (8, { oneKernel with handle := 4, st := .running })] }
    let el : State := { s with dies := { s.dies with electing := true, fenced := 1, fencing := [(1, 5)] } }
    s.kernel 9 = some w ∧ s.dependMet 8 = true ∧ n.dependMet 8 = false ∧ el.dies.electing = true ∧ el.fencedDie 0 = true ∧ el.fencedDie 2 = false ∧
    (∀ e ∈ el.dies.fencing, e.1 ≠ 2) ∧ (∃ e ∈ el.dies.fencing, e.1 = 1) := by decide +kernel

/-- One kernel READY in context 0 on a module at rest. -/
def waitingKernel : State :=
  ({ State.reset with kernels := [(9, oneKernel)] } : State).updCtx 0 (fun c => { c with st := .resident, classes := 3 })

theorem test_meets_KernelAndGroupEvents_place :
    (waitingKernel.dies.electing = false ∧ waitingKernel.kernel 9 = some oneKernel ∧ waitingKernel.podHeld = [] ∧ oneKernel.st.over = false) ∧
    (∃ r, waitingKernel.ranked.head? = some r ∧ r.cand = .fresh 9 0) ∧ waitingKernel.candFits (.fresh 9 0) = true ∧
    (∃ all, waitingKernel.placesFor 9 oneKernel 0 = some all) := by
  refine ⟨by decide +kernel, ⟨_, rfl, by decide +kernel⟩, by decide +kernel, ?_⟩
  exact ⟨tileCoords 0 0, by decide +kernel⟩

theorem test_meets_KernelAndGroupEvents_starve :
    let s : State := { waitingKernel with now := 1_000_000 }
    s.kernel 9 = some oneKernel ∧ oneKernel.st = .ready ∧ (s.ctx 0).st = .resident ∧ oneKernel.todo = [] ∧ oneKernel.starving = [] ∧ oneKernel.first ≤ 0 ∧
    0 < oneKernel.count ∧ oneKernel.since + 1_000_000 ≤ s.now ∧ waitingKernel.now < oneKernel.since + 1_000_000 := by decide +kernel

/-- Every place of context 0 is taken by a task of a group of lower priority; kernel 10, of priority 1, waits. -/
def crowded : State :=
  let k : Kernel := { oneKernel with prio := 1, handle := 6, diemask := 1, shape := 1 }
  let g : Group := { kernel := 9, gidx := 0, top := 2, tasks := [1], placedAt := 0, prio := 0, order := 0, rbcnt := 0, nr := false, rolling := false,
                     reads := [], writes := [], podSeq := none, podRest := [], restSent := false, complete := false, killed := false }
  ({ atHead.updTask 1 (fun k => { k with group := 4 }) with groups := [(4, g)], kernels := [(9, { oneKernel with st := .placed, first := 1 }), (10, k)] } : State).updCtx 0
    (fun c => { c with st := .resident, classes := 3 })

theorem test_meets_KernelAndGroupEvents_save :
    (crowded.ranked.head?.map (fun r => (r.cand, r.prio))) = some (.fresh 10 0, 1) ∧ crowded.candFits (.fresh 10 0) = false ∧
    crowded.preempting (crowded.candDies (.fresh 10 0)) = false ∧ crowded.victimGroup 1 (crowded.candDies (.fresh 10 0)) = some 4 ∧
    (SMap.find crowded.groups 4).map (·.tasks) = some [1] ∧ (crowded.task 1).st = .running ∧ (crowded.task 1).ending = false := by decide +kernel

/-! ### Barriers, rollbacks and the pod -/

def anInst (l : Nat) (ms : List Nat) : Inst := { Inst.new 4 l 0 ms with st := .gathering, wdLimit := 100, wdRun := true }
def insts (l : Nat) (i : Inst) (s : State) : State := { s with insts := [(instKey 4 l 0, i)] }
/-- A packet to the root of level `l`. -/
def toRoot (l : Nat) (b : Body) (s : State) : State := { s with net := [Packet.new ⟨0, 0, 0⟩ (rootCoord l) 18 0 4 b] }

theorem test_meets_BarrierAndRollbackEvents_arrivals :
    let w : PendArr := ⟨none, none, [0], []⟩
    let s := pair.updBar 1 (fun b => b.setPend 1 (some w))
    let h := withCmd { someCmd with queue := 0, op := .copy ownCopy } s
    let i : Inst := { anInst 1 [1, 2] with arrived := [(2, none)] }
    let a := toRoot 1 (.arrival 1 1 none none) (insts 1 i pair)
    let c := toRoot 1 (.arrival 1 1 none (some 7)) (insts 1 i pair)
    let o := toRoot 1 (.arrival 1 1 (some (.add, some 5)) none) (insts 1 { i with arrived := [(2, some (.max, some 1))] } pair)
    let d := toRoot 1 (.arrival 1 1 none none) (insts 1 { i with st := .aborted } pair)
    let no := fun (x : Inst) => toRoot 1 (.arrival 1 1 none none) (insts 1 x pair)
    let held : State := no { i with pend := 1 }
    let late_ := no { i with wdCount := 100 }
    let gone : State := { a with net := a.net.map (fun p => { p with lost := true }) }
    let e := withCmd { someCmd with queue := 0, op := .copy ownCopy, met := true } s
    let b := withCmd (copyCmd .begun) (pair.updBar 1 (fun b => b.setPend 1 (some ⟨none, none, [], [0]⟩)))
    (((e.eng 1).find 0).map (fun c => (c.st, c.again, c.met)) = some (.accepted, false, true) ∧ ((b.eng 1).find 0).map (·.st) = some .begun ∧
      ((b.arch 1).bar.pendOf 1).map (·.lower) = some [0]) ∧
    ((s.arch 1).bar.pendOf 1 = some w ∧ (s.task 1).onCore = true ∧ (pair.eng 1).find 0 = none ∧ (pair.arch 1).bar.pendOf 1 = none) ∧
    (pair.nextPacket 0 = none ∧ (a.nextPacket 0).map (·.lost) = some false ∧ i.expired = false ∧ a.insts = [(instKey 4 1 0, i)] ∧
      a.myInst 1 1 = instKey 4 1 0 ∧ i.level = 1) ∧
    (SMap.find held.insts (held.myInst 1 1) = some { i with pend := 1 } ∧ (held.nextPacket 0).isSome = true) ∧
    ((SMap.find late_.insts (late_.myInst 1 1)).map Inst.expired = some true ∧ (late_.nextPacket 0).map (·.lost) = some false) ∧
    ((gone.nextPacket 0).map (·.lost) = some true ∧ SMap.find gone.insts (gone.myInst 1 1) = some i) ∧
    (((h.eng 1).find 0).map (·.met) = some false ∧ (h.arch 1).bar.pendOf 1 = some w) ∧
    ((a.nextPacket 0).map (·.body) = some (.arrival 1 1 none none) ∧ SMap.find a.insts (a.myInst 1 1) = some i ∧ i.live = true ∧ i.operator = none ∧
      i.pend ≤ 0 ∧ i.members ≠ [] ∧ (∀ u ∈ i.members, u = 1 ∨ ∃ e ∈ i.arrived, e.1 = u) ∧ (SMap.find a.groups i.group).map (·.top) = some 2) ∧
    ((c.nextPacket 0).map (·.body) = some (.arrival 1 1 none (some 7)) ∧ i.level ≠ 4) ∧
    ((o.nextPacket 0).isSome = true ∧ ((SMap.find o.insts (o.myInst 1 1)).map Inst.operator) = some (some .max) ∧ BarOp.add ≠ BarOp.max) ∧
    ((d.nextPacket 0).isSome = true ∧ ((SMap.find d.insts (d.myInst 1 1)).map Inst.live) = some false) := by decide +kernel

theorem test_meets_BarrierAndRollbackEvents_top :
    let i : Inst := { anInst 1 [1, 2] with arrived := [(2, none)] }
    let a := toRoot 1 (.arrival 1 1 none none) (insts 1 i pair)
    let top := a.updGroup 4 (fun x => { x with top := 1 })
    let top := (top.updSlot 1 0 (fun x => { x with line := LineSt.none })).updTask 2 (fun k => { k with arch := Arch.reset })
    ((SMap.find top.groups i.group).map (·.top) = some 1 ∧ (top.nextPacket 0).isSome = true ∧ SMap.find top.insts (top.myInst 1 1) = some i ∧
      (∀ e ∈ top.tasks, e.2.group = i.group → e.2.cutRes = none) ∧
      ∀ m ∈ i.members, (top.task m).group = i.group ∧ (top.arch m).seq = none ∧ top.cores.marked.contains (top.task m).phys = false ∧
        (top.eng m).cmds = [] ∧ ∀ q < 10, (top.slot m q).st = .running → (top.slot m q).line.entered = false) := by decide +kernel

theorem test_meets_BarrierAndRollbackEvents_watchdog :
    let i := anInst 1 [1, 2]
    let late_ : Inst := { i with wdCount := 100 }
    SMap.find (insts 1 late_ pair).insts (instKey 4 1 0) = some late_ ∧ late_.st = .gathering ∧ (insts 1 late_ pair).counts late_ = true ∧
    0 < late_.wdLimit ∧ late_.wdLimit ≤ late_.wdCount ∧ i.wdCount < i.wdLimit := by decide +kernel

theorem test_meets_BarrierAndRollbackEvents_group :
    let m := toRoot 2 (.nrMark 4 1) pair
    let r := toRoot 2 (.rbTrigger 4 1 0) pair
    let n := r.updGroup 4 (fun x => { x with nr := true })
    let d := r.updGroup 4 (fun x => { x with rolling := true })
    let old : State := { m with net := m.net.map (fun p => { p with old := true }) }
    let gone : State := { r with net := r.net.map (fun p => { p with lost := true }) }
    let up : State := { r.updGroup 4 (fun x => { x with top := 4 }) with mg := { r.mg with podIdx := 5, podEn := true } }
    (old.nextPacket 0).map (fun p => (p.body, p.old)) = some (.nrMark 4 1, true) ∧ (gone.nextPacket 0).map (fun p => (p.body, p.lost)) = some (.rbTrigger 4 1 0, true) ∧
    ((SMap.find up.groups 4).bind up.podAbove = some 0 ∧ (up.nextPacket 0).isSome = true) ∧ ((SMap.find r.groups 4).map r.podAbove = some none) ∧
    (m.nextPacket 0).map (fun p => (p.body, p.old, p.lost)) = some (.nrMark 4 1, false, false) ∧ (r.nextPacket 0).map (·.body) = some (.rbTrigger 4 1 0) ∧
    (SMap.find r.groups 4).map (fun x => (x.top, x.nr, x.rolling, x.complete, x.killed, x.rbcnt)) = some (2, false, false, false, false, 0) ∧
    (SMap.find n.groups 4).map (fun x => (x.nr, x.rolling)) = some (true, false) ∧ (SMap.find d.groups 4).map (·.rolling) = some true := by decide +kernel

/-- Task 1 halted by a rollback of group 4, with the snapshot it started with. -/
def rollingBack : State :=
  ((pair.updTask 1 (fun k => { k with halted := true, snap := some Arch.reset })).updSlot 1 0 (fun x => { x with st := .ready, line := LineSt.none })).updGroup 4
    (fun x => { x with rolling := true, tasks := [1] })

theorem test_meets_BarrierAndRollbackEvents_restore :
    let u := rollingBack.updBar 1 (fun b => { b with undo := [64] })
    let d := rollingBack.updTask 1 (fun k => { k with restored := true })
    (rollingBack.canRestore 1 = true ∧ (rollingBack.eng 1).cmds = [] ∧ (rollingBack.task 1).cutRes = none ∧ (rollingBack.task 1).snap = some Arch.reset ∧
      Arch.reset.msgs.arrivals.length ≤ 16 ∧ (rollingBack.arch 1).bar.undo = []) ∧
    (u.canRestore 1 = true ∧ (u.arch 1).bar.undo = [64] ∧ 64 + 64 ≤ Config.undoBase) ∧
    (rollingBack.groupOf 1).map (·.tasks) = some [1] ∧ (∀ u ∈ [1], (rollingBack.task u).cutRes = none ∧ (rollingBack.eng u).cmds = []) ∧
    ((SMap.find d.groups 4).map d.podAbove = some none ∧ (SMap.find d.groups 4).map (·.top) = some 2) ∧
    (let p : State := { d.updGroup 4 (fun x => { x with top := 4, podRest := d.podChildren }) with mg := { d.mg with podIdx := 5, podEn := true, podCnt := 6 } }
     (SMap.find p.groups 4).bind p.podAbove = some 0 ∧ (SMap.find p.groups 4).map (fun x => (x.rolling, x.restSent)) = some (true, false) ∧ p.podChildren = []) ∧
    d.canRestore 1 = false ∧ (SMap.find d.groups 4).map (·.rolling) = some true ∧ (∀ j ∈ [1], (d.task j).live = true → (d.task j).restored = true) := by
  decide +kernel

/-- Pair as group 4 of a pod kernel: its job is enabled and module 3 is below module 0. -/
def podPair (idx : Nat) : State :=
  { pair.updGroup 4 (fun x => { x with top := 4, podSeq := some 2 }) with
    kernels := [(9, { oneKernel with st := .running })], mg := { pair.mg with podIdx := idx, podCnt := 20, podEn := true, podJob := 1 } }
def aFrame (b : PodBody) : PodFrame := { job := 1, podtag := 0, seqnum := 2, src := 1, serial := 5, contrib := none, body := b }

theorem test_meets_PodEvents_arrivals :
    let i : Inst := { anInst 4 [1, 2] with arrived := [(1, none), (2, none)], podKids := [] }
    let s := insts 4 i (podPair 5)
    let r : State := { insts 4 i (podPair 0) with mg := { (podPair 0).mg with podCnt := 0 } }
    (SMap.find s.insts (instKey 4 4 0) = some i ∧ i.level = 4 ∧ i.live = true ∧ i.full = true ∧ i.pend ≤ 0 ∧ i.podSent = false ∧ i.expired = false ∧ s.mg.podRefuse = false ∧
      s.mg.podEn = true ∧ s.kidsIn i = true ∧ s.mg.podIdx ≠ 0) ∧
    (SMap.find s.groups i.group).map (fun x => (x.kernel, x.podSeq)) = some (9, some 2) ∧ (s.kernel 9).isSome = true ∧
    (r.mg.podIdx = 0 ∧ r.mg.podCnt = 0 ∧ r.kidsIn i = true) ∧ (podPair 5).mg.podIdx = 5 ∧ pair.mg.podEn = false := by decide +kernel

theorem test_meets_PodEvents_frames :
    let s := insts 4 (anInst 4 [1, 2]) ((podPair 0).updCtx 0 (fun c => { c with podtag := 0, podSeq := 3, st := .resident, caps := 16 }))
    let f := aFrame .arrival
    let o : State := { s with podOut := [(aFrame .arrival, 1, 3, 0)], now := 100_000 }
    let late : State := { s with podOut := [(aFrame .arrival, 1, 4, 0)], now := 100_000 }
    (s.mg.podEn = true ∧ f.job = s.mg.podJob ∧ f.body ≠ .ack ∧ s.podGroup f = some 4 ∧ s.mg.podRefuse = false ∧ s.mg.podSeen = []) ∧
    (let r : State := { s with mg := { s.mg with podRefuse := true, podSeen := [(1, 5)] } }
     r.mg.podRefuse = true ∧ r.mg.podSeen.contains (f.src, f.serial) = true ∧ (anInst 4 [1, 2]).podSent = false ∧ (aFrame .release).body = .release ∧ (anInst 4 [1, 2]).expired = false) ∧
    (SMap.find s.insts (instKey 4 4 0) = some (anInst 4 [1, 2]) ∧ (anInst 4 [1, 2]).live = true ∧ (anInst 4 [1, 2]).podKids = [] ∧ f.contrib = none) ∧
    (s.podGroup { f with podtag := 9 } = none ∧ s.podCtx 9 = none) ∧ (s.podGroup { f with seqnum := 3 } = none ∧ s.podCtx 0 = some 0 ∧ (s.ctx 0).podSeq ≤ 3) ∧ s.podAgain 0 1 = false ∧
    (let k : State := { s with kernels := [(9, { oneKernel with todo := [⟨0, some 1, [], 0⟩] })] }
     k.podAgain 0 1 = true ∧ k.podGroup { f with seqnum := 1, podtag := 0 } = none ∧ k.podCtx 0 = some 0) ∧
    (s.podGroup { f with seqnum := 1 } = none ∧ 1 < (s.ctx 0).podSeq) ∧ (aFrame .rollback).body = .rollback ∧
    o.podOut[0]? = some (f, 1, 3, 0) ∧ 0 + 100_000 ≤ o.now ∧ late.podOut[0]? = some (f, 1, 4, 0) ∧ { o with now := 5 }.now < 0 + 100_000 := by decide +kernel

theorem test_meets_PodEvents_pages :
    let p : PodPage := ⟨0, 7, [], [], none, none⟩
    let s : PodPage → State := fun (p : PodPage) =>
      { State.reset.updLink 256 (fun l => { l with st := .active }) with pg := { State.reset.pg with pod := [(2, p)], pool := 4 } }
    let busy : PodPage := { p with moves := [0, 0, 0, 0] }
    let still : PodPage := { p with settled := some 5 }
    (s p).podPort 3 (s p).podCh = some 256 ∧ State.reset.podPort 3 0 = none ∧ (s p).activePorts = [256] ∧ SMap.find (s p).pg.pod 2 = some p ∧ p.home = (s p).mg.podIdx ∧ (s p).mg.podIdx ≠ 3 ∧ p.moving = none ∧ p.settled = none ∧
    (p.moves.filter (fun t => decide ((s p).now < t + 2_000_000))).length < 4 ∧ 4 ≤ (busy.moves.filter (fun t => decide ((s busy).now < t + 2_000_000))).length ∧
    still.settled = some 5 ∧ (s still).now < 5 ∧ { s still with now := 5 }.now = 5 ∧ { p with moving := some 3 }.moving = some 3 ∧
    { p with home := 3 }.home ≠ (s p).mg.podIdx ∧ ((s { p with home := 3 }).freeFrame 0).isSome = true ∧ SMap.find (s p).pg.pod 3 = none ∧ ((s p).freeFrame 0).isSome = true := by decide +kernel

/-! ### Pages, links, dies, power, boot -/

/-- Context 0 has page 0 at TIER 0 with EPH, and PGVA and PGCNT name it. -/
def withPage (e : Nat) : State :=
  let s : State := ((State.reset.mapPage).write 0x120_2000 (codeFrame + e) 8).updCtx 0 (fun c => { c with st := .resident, ptroot := tableRoot })
  { s with pg := { s.pg with cnt := 1 } }

theorem test_meets_PageEvents_commands :
    let s := withPage 0x8F
    let e : State := { withPage 0x48F with pg := { (withPage 0x48F).pg with arg := 1000 } }
    let bad : State := { s with pg := { s.pg with cnt := 0 } }
    let odd : State := { s with pg := { s.pg with arg := 1 } }
    (s.ctx 0).st = .resident ∧ (State.reset.ctx 0).st = .undefined ∧ s.pg.cnt ≠ 0 ∧ s.pg.va + 65536 * s.pg.cnt ≤ 2 ^ 56 ∧ s.pg.arg.toNat % 8 = 0 ∧
    s.pg.jobs = [] ∧ (s.stageable 0 s.pageRange).2 = false ∧ (List.range s.pg.cnt).flatMap (fun i => s.residentOf 0 (s.pg.va / 65536 + i)) = [] ∧
    s.pg.frameWait = [] ∧ s.pg.arg = 0 ∧ bad.pg.cnt = 0 ∧ odd.pg.arg.toNat % 8 ≠ 0 ∧ s.pg.arg.toNat ≤ s.now ∧ e.now < e.pg.arg.toNat ∧
    e.pg.arg.toNat ≤ e.now + 32_000_000 ∧ e.ephFrame 0 (e.pg.va / 65536) = some 289 := by decide +kernel

theorem test_meets_PageEvents_harvest :
    let s := withPage 0x48F
    let g : State := { s with pg := { s.pg with gathered := [(0, (true, true, []))], jobs := [.harvest 0 0 1 0 0] } }
    let p : State := { s with now := 1, pg := { s.pg with jobs := [.harvest 0 0 1 0 (1 + Config.leaseLen), .shoot 0 0 1 0 1 []] } }
    g.pg.jobs[0]? = some (.harvest 0 0 1 0 0) ∧ (g.ctx 0).ptroot % 8 = 0 ∧ SMap.find g.pg.gathered (0 * 2 ^ 40 + 0) = some (true, true, []) ∧
    (g.leafAddr (0 * 65536) 4 (g.ctx 0).ptroot).isSome = true ∧ (∀ a ∈ g.leafAddr (0 * 65536) 4 (g.ctx 0).ptroot, g.writeHeld a = false) ∧
    p.ofShoot 0 0 1 (1 + Config.leaseLen) = true ∧ p.now < 1 + Config.leaseLen ∧ p.ofShoot 0 0 1 7 = false := by decide +kernel

theorem test_meets_PageEvents_jobs :
    let j : PgJob := .shoot 0 0 1 0 5 []
    let s : State := { State.reset with now := 10, pg := { State.reset.pg with jobs := [j, .harvest 0 0 1 0 10], ileases := [⟨⟨0, 0, 0⟩, 0, 0, 1, 0, 3⟩] } }
    let o : State := { s with pg := { s.pg with ileases := [] } }
    let p := fun (st : ResSt) => ({ State.reset with pg := { State.reset.pg with resid := [(64, { Resid.blank with st := st, frame := 65536 })] } } : State)
    s.pg.jobs[0]? = some j ∧ s.oldLease 0 0 1 5 = true ∧ o.oldLease 0 0 1 5 = false ∧ o.framesGone [] = true ∧
    s.pg.jobs[1]? = some (.harvest 0 0 1 0 10) ∧ (s.pg.ileases[0]?).map (·.granted) = some 3 ∧ s.now < 3 + Config.leaseLen ∧
    3 + Config.leaseLen ≤ { s with now := 100_000 }.now ∧
    ((p .staging).resid 64).st = .staging ∧ ((p .staging).resid 64).leaving = false ∧ (p .staging).pw.step = 0 ∧ ({ Power.reset with step := 1 } : Power).step = 1 ∧ (p .staging).pg.jobs = [] ∧ (p .staging).pg.held = [] ∧ (p .staging).pg.frameWait = [] ∧ (p .staging).insts = [] ∧
    s.pg.jobs.contains (.harvest 0 0 1 0 (5 + Config.leaseLen)) = false ∧
    ({ o with pg := { o.pg with jobs := [j, .harvest 0 0 1 0 (5 + Config.leaseLen)] } } : State).pg.jobs.contains (.harvest 0 0 1 0 (5 + Config.leaseLen)) = true ∧
    ({ p .writeback with pg := { (p .writeback).pg with jobs := [] } } : State).framesGone [64] = false ∧ (p .staging).tasks = [] ∧
    ((p .writeback).resid 64).st = .writeback ∧ ((p .writeback).resid 64).holds = [] ∧ (s.ephOf 0).deadline ≤ s.now ∧
    s.now < ({ s with pg := { s.pg with eph := [(0, ⟨20, []⟩)] } }.ephOf 0).deadline := by decide +kernel

/-- A flit of these low bits with its CRC (R420). -/
def flitWith (w : Nat) : Nat := w + crc32c ((List.range 60).map (fun i => bits w (8 * i + 7) (8 * i))) * 2 ^ 480

def linkIs (f : Link → Link) : State := State.reset.updLink 0 (fun l => f { l with st := .active })

theorem test_meets_LinkEvents_flits :
    let a := linkIs id
    let c := linkIs (fun l => { l with crcTimes := List.replicate 63 0 })
    let r := linkIs (fun l => { l with retrains := [0, 0, 0] })
    let w := fun n => linkIs (fun l => { l with chans := [(chanKey 0 false 3, { Chan.reset with tx := [⟨0, none, false, n⟩], since := 0 })] })
    let later := fun n => ({ w n with now := 500 } : State)
    let n := linkIs (fun l => { l with chans := [(chanKey 0 false 0, { Chan.reset with tx := [⟨0, none, false, 0⟩, ⟨5, none, false, 0⟩], naked := true })] })
    let k := linkIs (fun l => { l with acks := [(0, flitWord (ackBits (chanKey 1 false 0) 0 false)), (0, flitWord (ackBits (chanKey 1 false 0) 0 true))] })
    let ack := fun (x : Bool) => flitWord (ackBits (chanKey 1 false 0) 0 x)
    ((n.link 0).carries (chanKey 0 false 0) 0 = true ∧ (n.link 0).carries (chanKey 0 false 0) 5 = true ∧ (a.link 0).carries (chanKey 0 false 0) 4000 = true ∧
      (a.link 0).carries (chanKey 0 false 0) 5 = false ∧ (SMap.get Chan.reset (n.link 0).chans 0).naked = true ∧ Chan.reset.naked = false) ∧
    (∀ x, flitOk (ack x).toNat = true ∧ (flitOf (ack x).toNat).type = 1 ∧ (flitOf (ack x).toNat).nak = x ∧ (k.link 0).acked 0 (ack x) (flitOf (ack x).toNat) = true ∧
      (a.link 0).acked 0 (ack x) (flitOf (ack x).toNat) = false) ∧
    Chan.reset.exp < 4096 ∧ (a.link 0).st = .active ∧ (State.reset.link 0).st = .down ∧ flitOk 1 = false ∧ (c.link 0).crcTimes.length = 63 ∧ (r.link 0).retrains.length = 3 ∧
    flitOk (flitWith 0) = true ∧ (flitOf (flitWith 0)).av = false ∧ (flitOf (flitWith 0)).type = 0 ∧ (flitOf (flitWith (5 * 2 ^ 8))).seq = 5 ∧
    flitOk (flitWith (4000 * 2 ^ 8)) = true ∧ (flitOf (flitWith (4000 * 2 ^ 8))).seq = 4000 ∧
    flitOk (flitWith (2 ^ 6 + 2 ^ 30)) = true ∧ (flitOf (flitWith (2 ^ 6 + 2 ^ 30))).av = true ∧ (flitOf (flitWith (2 ^ 6 + 2 ^ 30))).nak = false ∧
    (flitOf (flitWith (2 ^ 6 + 2 ^ 30))).type = 1 ∧ (flitOf (flitWith (2 ^ 6))).av = false ∧
    (SMap.get Chan.reset ((later 7).link 0).chans (chanKey 0 false 3)).tx = [⟨0, none, false, 7⟩] ∧ 0 + 500 ≤ (later 6).now ∧
    (w 6).now < (SMap.get Chan.reset ((w 6).link 0).chans (chanKey 0 false 3)).since + 500 := by decide +kernel

theorem test_meets_LinkEvents_states :
    let o := State.reset.updLink 0 (fun _ => Link.enabled)
    let t := o.updLink 0 (fun l => { l with attempts := 2 })
    let r := State.reset.updLink 0 (fun l => { l with st := .retrain, retrainAt := 0 })
    let q : State := { linkIs id with dies := { State.reset.dies with warm := some 0, phase := 1, fenced := 1 } }
    let b : State := { linkIs (fun l => { l with chans := [(0, { Chan.reset with tx := [⟨0, none, false, 0⟩] })] }) with dies := q.dies }
    (o.link 0).st = .training ∧ (o.link 0).attempts < 2 ∧ (t.link 0).attempts = 2 ∧ (t.link 0).st = .training ∧ (r.link 0).st = .retrain ∧ r.now < 10_000 ∧
    (r.link 0).chans = [] ∧ 10_000 ≤ { r with now := 10_000 }.now ∧ q.dies.warm = some 0 ∧ q.dies.phase = 1 ∧ q.fencedDie 0 = true ∧ 0 ∈ linkDies (linkKey 0) ∧
    (q.link 0).chans = [] ∧ (∃ c ∈ (b.link 0).chans, c.2.tx ≠ []) ∧ State.reset.dies.warm = none := by decide +kernel

theorem test_meets_DieEvents :
    let r := State.reset
    let b : State := { r with dies := { r.dies with busy := true } }
    let f : State := { r with dies := { r.dies with fenced := 8 } }
    let w := fun (x : Nat) => ({ r with dies := { r.dies with warm := some 3, phase := x, busy := true, fenced := 8, cmdDie := 3 } } : State)
    let due : State := { atHead with dies := { r.dies with fencing := [(0, 5)], cmdDie := 0, busy := true } }
    let g : State := { pair with dies := due.dies }
    b.dies.busy = true ∧ f.fencedDie 3 = true ∧ f.dies.busy = false ∧ r.fencedDie 3 = false ∧ (∀ e ∈ r.dies.fencing, e.1 ≠ 3) ∧
    (let n : State := { r with dies := { r.dies with fencing := [(3, 5)] } }; n.fencedDie 3 = false ∧ n.dies.busy = false ∧ ∃ e ∈ n.dies.fencing, e.1 = 3) ∧
    (let k : State := { g with kernels := [(9, oneKernel)] }
     k.kernel 9 = some oneKernel ∧ (SMap.find k.groups 4).map (·.kernel) = some 9 ∧ (∀ l ∈ linksAt 0, k.unacked l = [])) ∧
    (∃ e ∈ due.dies.fencing, e.1 = 0) ∧ due.groups = [] ∧ (SMap.find g.groups 4).map (fun x => (x.complete, x.killed, x.tasks)) = some (false, false, [1, 2]) ∧
    (g.groups.length = 1 ∧ (g.task 1).onDie 0 = true) ∧ due.queues = [] ∧ r.dies.warm = none ∧ (w 3).dies.phase = 3 ∧ (w 3).dirtyFrames 3 = [] ∧
    ({ w 3 with lk := { r.lk with tab := (List.range 273).map (fun n => (n, { Link.down with st := .failed })) } } : State).spillRoute 3 = false ∧
    (w 4).dies.warm = some 3 ∧ (w 6).dies.spilled = [] ∧ (w 7).dies.phase = 7 := by decide +kernel

theorem test_meets_DieEvents_spill :
    let up : State := { State.reset with lk := { State.reset.lk with tab := (List.range 273).map (fun n => (n, { Link.down with st := .active })) } }
    let s : State := { up with dies := { State.reset.dies with warm := some 3, phase := 3, busy := true, cmdDie := 3, written := [3 * 65536 + 5, 3 * 65536 + 65535], spilled := [5, 65535] } }
    s.spillRoute 3 = true ∧ s.dirtyFrames 3 = [5, 65535] ∧ s.pg.gathered = [] ∧ s.dies.warm = some 3 ∧ s.dies.phase = 3 ∧ (∀ f ∈ s.dies.spilled, f < 65536) := by decide +kernel

theorem test_meets_PowerEvents :
    let p := Power.reset
    let eff := fun (q : Power) => min (min q.cap (vget 80 q.pre q.pstep)) q.thermal
    let q : Power := { p with step := 3 }
    let s : State := { State.reset with now := 2_000_000 }
    let t : State := { State.reset with pw := { p with trap := some (0, 1) } }
    let l : State := { State.reset with pw := { p with pfAddr := 0x1000, pfCount := 1 } }
    let i : State := { State.reset with flash := { Flash.reset with img := true, image := [(3, 7)], imageLen := 6, controlLen := 2 } }
    let deep : Power := { p with step := 23, draw := 299 }
    eff { p with cap := 40 } < eff p ∧ eff p ≤ eff { p with cap := 90 } ∧ (p.lastAdd + 20_000 ≤ s.now ∧ 25 * eff p < 3000 % 65536 ∧ p.step < 23) ∧
    State.reset.now < p.lastAdd + 20_000 ∧ (q.lastRemove + 100_000 ≤ s.now ∧ 0 < q.step ∧ 100 * 10 ≤ 95 * (25 * eff q)) ∧ p.step = 0 ∧
    (p.warn < 96 ∧ p.hot = false ∧ (96 : Nat) < 110) ∧ deep.most 0 = 299 ∧ p.most 0 = 65535 ∧ ({ p with lastDecrease := some 0 } : Power).most 1_000_000 = 25 * eff p ∧
    (t.pw.most 100_000 = 300) ∧ ({ p with step := 1 } : Power).step = 1 ∧ (p.thermalAt + 1_000_000 ≤ s.now ∧ 90 < p.warn ∧ p.warn ≤ 100 ∧ ({ p with hot := true } : Power).hot = true ∧ p.warn = 95) ∧
    State.reset.now < p.thermalAt + 1_000_000 ∧ p.trap = none ∧ State.reset.stopped = false ∧ t.pw.trap = some (0, 1) ∧ t.tasks = [] ∧ t.persistList = [] ∧
    l.persistList = [(0, 0)] ∧ i.flash.img = true ∧ 1 * 65536 + i.flash.imageLen ≤ 2 ^ 36 ∧ 2 ^ 36 < 0xFFFFF * 65536 + 65537 ∧ State.reset.flash.img = false ∧
    p.pfBusy = none ∧ Memory.wf i.flash.image = true ∧ i.flash.controlLen ≤ i.flash.imageLen ∧ (∀ c ∈ i.flash.image, i.flash.controlLen + c.1 < i.flash.imageLen) := by decide +kernel

theorem test_meets_BootAndHostEvents :
    let f := fun (x : Flash) => ({ State.reset with flash := x } : State)
    let w := { State.reset.bt with okBy := some 5 }
    let up := State.reset.updLink 272 (fun l => { l with st := .active })
    let two : State := { State.reset with cores := { State.reset.cores with errs := [(0, [(0, 1)])] } }
    let fails := fun (x : FlashRec Nat) => ({ x with next := none } : FlashRec Nat).value 0
    fails (f { Flash.reset with starts := FlashRec.first 3 }).flash.starts = 3 ∧ (fails Flash.reset.starts ≠ 3 ∧ Flash.reset.found.startFails = 0) ∧
    ({ Flash.reset with pufOk := false } : Flash).found.startFails ≠ 0 ∧ Flash.reset.pufOk = true ∧
    (Flash.reset.minVer.ok = true ∧ Flash.reset.harvest.ok = true ∧ Flash.reset.starts.ok = true ∧ Flash.reset.helper.ok = true) ∧
    (⟨none, none, none⟩ : FlashRec Nat).ok = false ∧ Flash.reset.fwA = some ⟨1, []⟩ ∧ fails Flash.reset.minVer ≤ 1 ∧
    ({ Flash.reset with minVer := FlashRec.first 2 } : Flash).found.startFails = 1 ∧ Flash.reset.starts.next = none ∧ Flash.reset.starts.newest = some (1, 1) ∧ State.reset.bt.waiting = true ∧ State.reset.bt.okBy = none ∧
    ({ State.reset.bt with minimal := true } : Boot).minimal = true ∧ (w.waiting = true ∧ { State.reset with now := 6 }.now ≤ 6) ∧
    w.okBy = some 5 ∧ 5 < { State.reset with now := 6 }.now ∧ (State.reset.link 272).st ≠ .active ∧ (up.link 272).st = .active ∧
    SMap.find up.pg.eph (0x1000 / 8 * 8 / 65536) = none ∧ up.served 0x1000 = 0x1000 ∧ columnOf 0x1000 = none ∧
    columnOf (columnKey ⟨0, 0, 0⟩ 0) = some (⟨0, 0, 0⟩, 0) ∧ (SMap.get [] two.cores.errs (Phys.index ⟨0, 0, 0⟩) = [(0, 1)]) := by decide +kernel

/-! ### Encodings and steps -/

theorem test_meets_DecodeEncodeAgree :
    WellFormed.ok (.alu .add 3 3 2 (.on 1)) = true ∧ (Decode.rawOf (.alu .add 3 3 2 (.on 1))).isSome = true ∧ (Decode.encodeDt (.dtBcast 10 11 12)).isSome = true ∧
    (Decode.recOf (.semwait .ge 7 0x1000)).isSome = true := by decide +kernel

theorem test_meets_GuardedOffHeadHasNoEffect :
    ((Decode.rawOf (.alu .add 3 3 2 (.on 1))).map Decode.guardOf = some (.on 1)) ∧ atHead.fSlot < 10 ∧ atHead.cur.getP 1 = false := by decide +kernel

theorem test_meets_StepRunsTheDecodedInstruction :
    let s : State := { atHead with turns := [.pipe 1] }
    let stop : State := { s with stopped := true }
    let e : State := { atHead with turns := [.event .bootok] }
    s.stopped = false ∧ s.bt.halted = false ∧ (s.task 1).onCore = true ∧ (s.arch 1).runner = some 0 ∧ (s.slot 1 0).line.entered = true ∧
    (s.slot 1 0).line.img = some (oneHeadLine 0 0 0) ∧ (s.slot 1 0).line.next ≤ lineHeads (oneHeadLine 0 0 0) ∧
    isOk (Decode.decodeHead (slotOf (oneHeadLine 0 0 0) 1) (tailAt (oneHeadLine 0 0 0) 1)) .nop ∧ placeOk (oneHeadLine 0 0 0) 1 .nop = true ∧
    stop.stopped = true ∧ isEvent .bootok = true ∧ e.listens .bootok = true ∧ isEvent .nop = false := by decide +kernel

def atWord : State := { State.reset.placeCtWord 0x0010_102B with turns := [.control 1] }
theorem test_meets_StepRunsTheDecodedInstruction_control :
    atWord.ctRuns 1 = true ∧ (atWord.ctl 1).dfltStart = false ∧ (atWord.ctl 1).dfltWait = false ∧ Decode.decodeCt 0x0000_0000 = none ∧ (atWord.ctl 1).dflt = false ∧ (Decode.decodeCt 0x0010_102B).map (·.1) = some (.dtNxset true) := by decide +kernel
theorem test_meets_StepRunsTheDecodedInstruction_fetch :
    ({ atWord with turns := [] }.ctFetch 1).2.toOption = some 0x0010_102B := by decide +kernel

theorem test_meets_EveryStepKeepsMemoryCanonical :
    Memory.wf State.reset.mem = true ∧ ∃ t, step { State.reset with turns := [.tick 1 1] } = .next t ∧ t.now = 1 :=
  ⟨by decide +kernel, _, rfl, by decide +kernel⟩

/-- R162, R317, R321: the word of dt.nxset with 1 and a SEMSET record, each placed where the next step fetches it. -/
theorem test_step_runs_word_and_record :
    (match step (State.reset.withFetchWord 32 0x0010_102B) with | .next t => (t.eng 1).nx | _ => false) = true ∧
    (match step (State.reset.withFetchWord 128 (0x03 + 9 * 2 ^ 16 + (2 ^ 63 + 0x2000) * 2 ^ 64)) with | .next t => t.read (hostKey 0x2000) 8 | _ => 0) = 9 := by
  decide +kernel

end Sys2Proof.Tests
end

/-! SUPPORT. Values at reset, the CSR instructions of the control thread, and the register writes of the runtime and the host. -/
namespace Sys2Proof.Machine

/-! ### Reset (R10, R56, R155, R381, R424, R428, R432) -/

/-- The power block reads the caps of every power step, WARN and TRIP, and an empty persist list (R428, R432). -/
theorem reset_powerRead : (State.reset.mgmtRead 0x000).toNat = 80 ∧
    (State.reset.mgmtRead 0x008).toNat = 80 + 80 * 2 ^ 8 + 80 * 2 ^ 16 + 80 * 2 ^ 24 ∧
    (State.reset.mgmtRead 0x010).toNat = 80 + 2 ^ 32 ∧ (State.reset.mgmtRead 0x018).toNat = 95 * 2 ^ 8 + 110 * 2 ^ 16 ∧
    (State.reset.mgmtRead 0x020).toNat = 0 := ⟨rfl, rfl, rfl, rfl, rfl⟩

/-- BARWDOG holds the timeouts of the four levels (R381). -/
theorem reset_barwdog : (State.reset.mgmtRead 0x1070).toNat = 100 + 200 * 2 ^ 16 + 1000 * 2 ^ 32 + 10000 * 2 ^ 48 := rfl

/-- Every slot is free, whatever its number: one that is missing reads as a slot at reset. -/
theorem reset_slot (i : Nat) : Arch.reset.slot i = Slot.reset := by
  simp only [Arch.slot, Arch.reset, vget, Vector.getElem?_replicate]
  split <;> rfl

theorem reset_lpa {i : Nat} (h : i < 16) : vget 1 Arch.reset.ctl.d.lpa i = 0 := by
  have hz : Arch.reset.ctl.d.lpa = Vector.replicate 16 0 := rfl
  rw [hz, vget, Vector.getElem?_replicate, if_pos h]
  rfl

/-- Settles O58: the registers are read off the reset state, and the areas and slots are copies of an empty one. -/
theorem resetValues : Obligations.ResetValues := by
  obtain ⟨hcap, hstep, heff, htherm, hpersist⟩ := reset_powerRead
  refine ⟨hcap, hstep, heff, htherm, hpersist, reset_barwdog, ?zeros, rfl, rfl, rfl, fun i hi => reset_lpa hi, rfl, rfl, rfl,
    fun i _ => congrArg Slot.st (reset_slot i)⟩
  case zeros => decide

/-- Settles O60: no byte is held and no damage is listed. -/
theorem resetIsCanonical : Obligations.ResetIsCanonical := ⟨rfl, rfl⟩

/-! ### Changes of one control thread -/

@[simp] theorem ctl_updCtl_same (s : State) (t : Nat) (f : Ctl → Ctl) : (s.updCtl t f).ctl t = f (s.ctl t) := by
  simp [ctl_updCtl]

@[simp] theorem updCtl_updCtl (s : State) (t : Nat) (f g : Ctl → Ctl) :
    (s.updCtl t f).updCtl t g = s.updCtl t (fun c => g (f c)) :=
  updArch_updArch s t _ _

/-- A change of one control thread is told by what that thread holds after it. -/
theorem updCtl_eq_const (s : State) (t : Nat) (f : Ctl → Ctl) : s.updCtl t f = s.updCtl t (fun _ => f (s.ctl t)) := rfl

theorem sameBytes_of_mem {s t : State} (h : t.mem = s.mem) : sameBytes s t := fun k => by
  simp only [State.readByte, h]

/-! ### What a write of a CSR puts in its field -/

/-- The numbers of the standard CSRs that keep what is written, in the order of `SCsr.write` (R145). -/
def stdCsrNumbers : List Nat :=
  [0x100, 0x104, 0x105, 0x106, 0x10A, 0x140, 0x141, 0x142, 0x143, 0x144, 0x14D, 0x180]

/-- The numbers of the device CSRs whose write changes the control thread alone (R10, R155, R248). -/
def devCsrNumbers : List Nat := [0x5D0, 0x5D1, 0x5D2, 0x5D3, 0x5D4, 0x5D5]

/-- A write of such a device CSR, as `State.csrWrite` makes it (R10, R152, R155, R248). -/
def DCsr.write (d : DCsr) (n : Nat) (v : Word) : DCsr :=
  if n = 0x5D0 then d.clearEl v
  else if n = 0x5D1 then d.clearMtf v
  else if n = 0x5D3 then { d with fibre := bits v.toNat 21 9 * 512 }
  else if n = 0x5D4 then d.writeSync v
  else if n = 0x5D5 then { d with ecsel := v.setWidth 8 }
  else d

/-- FIBRE keeps bits 21 to 9 of what is written, at their places (R155). -/
theorem fibre_bits (v : Nat) : bits v 21 9 * 512 = v % 2 ^ 22 / 512 * 512 := by
  rw [bits_eq]
  omega

theorem csrWrite_std {s : State} {t n : Nat} (v : Word) (h : n ∈ stdCsrNumbers) :
    s.csrWrite t n v = s.updCtl t (fun c => { c with s := c.s.write n v }) := by
  have hn : n < 0x200 := by
    simp only [stdCsrNumbers, List.mem_cons, List.not_mem_nil, or_false] at h
    omega
  simp [State.csrWrite, hn]

/-- UPINFO is read-only, and its write leaves the state as it is; the others change the thread's device registers. -/
theorem csrWrite_dev {s : State} {t n : Nat} (v : Word) (h : n ∈ devCsrNumbers) :
    s.csrWrite t n v = s.updCtl t (fun c => { c with d := c.d.write n v }) ∨
      s.csrWrite t n v = s ∧ (s.ctl t).d.write n v = (s.ctl t).d := by
  simp only [devCsrNumbers, List.mem_cons, List.not_mem_nil, or_false] at h
  obtain rfl | rfl | rfl | rfl | rfl | rfl := h
  case inr.inr.inl => exact .inr ⟨rfl, rfl⟩
  all_goals exact .inl rfl

/-! ### LPAREA (R56, R57) -/

@[simp] theorem keepLag_ctl (a : Arch) : a.keepLag.ctl = a.ctl := by unfold Arch.keepLag; split <;> rfl

theorem ctl_writeLpa (s : State) (t i : Nat) (v : Word) :
    (s.writeLpa t i v).ctl t = { s.ctl t with d := { (s.ctl t).d with lpa := vset (s.ctl t).d.lpa i (v &&& lpaMask) } } := by
  simp [State.writeLpa, State.ctl, Arch.updD, Arch.updCtl]

theorem csrWrite_lpa (s : State) (t : Nat) (k : Fin 16) (v : Word) : s.csrWrite t (0x5C0 + k) v = s.writeLpa t k v := by
  have h1 : ¬ 0x5C0 + k.val < 0x200 := by omega
  have h2 : 0x5C0 ≤ 0x5C0 + k.val ∧ 0x5C0 + k.val ≤ 0x5CF := by omega
  simp only [State.csrWrite, if_neg h1, if_pos h2, Nat.add_sub_cancel_left]

theorem vget_eq_getElem {α : Type} {n : Nat} (d : α) (v : Vector α n) (i : Fin n) : vget d v i = v[i] := by
  simp [vget]

/-- The entries of LPAREA after a write of one. -/
theorem lpa_vset (l : Vector Word 16) (k : Fin 16) (w : Word) :
    (vset l k w)[k] = w ∧ ∀ j : Fin 16, j ≠ k → (vset l k w)[j] = l[j] := by
  have hset : ∀ j : Fin 16, (vset l k w)[j] = if k.val = j.val then w else l[j] := fun j => by
    rw [← vget_eq_getElem 0, vget_vset _ _ _ _ _ k.isLt, vget_eq_getElem]
  exact ⟨(hset k).trans (if_pos rfl), fun j hj => (hset j).trans (if_neg (fun h => hj (Fin.ext h).symm))⟩

/-! ### Which accesses are legal (R146, R154) -/

theorem csrAllowed_eq_false_iff (c : Ctl) (n : Nat) (wr : Bool) (hn : n < 4096) :
    c.csrAllowed n wr = false ↔ (n / 256 % 4 = 1 ∧ c.mode = .u) ∨ 2 ≤ n / 256 % 4 ∨ (wr = true ∧ n / 1024 = 3) ∨
      (c.mode = .u ∧ 0xC00 ≤ n ∧ n ≤ 0xC02 ∧ c.s.scounteren.getLsbD (n - 0xC00) = false) := by
  have hlow : bits n 9 8 = n / 256 % 4 := bits_eq n 9 8
  have htop : bits n 11 10 = n / 1024 := (bits_eq n 11 10).trans (Nat.mod_eq_of_lt (by omega))
  have hmode : (decide (n / 256 % 4 = 0) || (decide (n / 256 % 4 = 1) && decide (c.mode = .s))) = false ↔
      (n / 256 % 4 = 1 ∧ c.mode = .u) ∨ 2 ≤ n / 256 % 4 := by
    cases c.mode <;> simp <;> omega
  have hwrite : (!(wr && decide (n / 1024 = 3))) = false ↔ wr = true ∧ n / 1024 = 3 := by simp
  have hcount : (decide (c.mode = .s) || c.counterOk n) = false ↔
      c.mode = .u ∧ 0xC00 ≤ n ∧ n ≤ 0xC02 ∧ c.s.scounteren.getLsbD (n - 0xC00) = false := by
    cases c.mode <;> simp [Ctl.counterOk, bit, BitVec.getLsbD, and_assoc]
  rw [Ctl.csrAllowed, hlow, htop, Bool.and_eq_false_iff, Bool.and_eq_false_iff, hmode, hwrite, hcount, or_assoc, or_assoc]

/-- In S-mode a number of the supervisor's read-write range may be read and written. -/
theorem csrAllowed_of_supervisor (c : Ctl) (n : Nat) (wr : Bool) (hm : c.mode = .s) (h1 : n / 256 % 4 = 1) (h3 : n / 1024 < 3) :
    c.csrAllowed n wr = true := by
  have hlow : bits n 9 8 = 1 := (bits_eq n 9 8).trans h1
  have htop : bits n 11 10 ≠ 3 := by rw [bits_eq]; omega
  simp [Ctl.csrAllowed, hm, hlow, htop]

/-! ### CSR instructions (R145, R146, R154) -/

section
variable {s : State} {op : CsrOp} {rd : XReg} {n : Nat} {src : CsrSrc} {old : Word}

theorem rvCsr_unknown (h : s.csrValue s.fTask n = none) : s.rvCsr op rd n src = s.rvIllegal false := by
  simp only [State.rvCsr, h]

theorem rvCsr_refused (h : s.csrValue s.fTask n = some old) (ha : (s.ctl s.fTask).csrAllowed n (csrWrites op src) = false) :
    s.rvCsr op rd n src = s.rvIllegal (decide ((s.ctl s.fTask).mode = .u ∧ 1 ≤ bits n 9 8)) := by
  simp only [State.rvCsr, h, ha, Bool.not_false, if_true]

theorem rvCsr_reads (h : s.csrValue s.fTask n = some old) (ha : (s.ctl s.fTask).csrAllowed n (csrWrites op src) = true)
    (hw : csrWrites op src = false) : s.rvCsr op rd n src = s.rvSet rd old := by
  rw [hw] at ha
  simp [State.rvCsr, h, ha, hw]

theorem rvCsr_writes (h : s.csrValue s.fTask n = some old) (ha : (s.ctl s.fTask).csrAllowed n (csrWrites op src) = true)
    (hw : csrWrites op src = true) (hn : n ≠ 0x5D6) :
    s.rvCsr op rd n src = (s.rvSet rd old).csrWrite s.fTask n (csrNew op old ((s.ctl s.fTask).csrSrc src)) := by
  rw [hw] at ha
  simp [State.rvCsr, h, ha, hw, hn]

theorem completes_csr {k : BitVec 12} {P : State → Prop} (h : P (s.rvCsr op rd k.toNat src)) :
    completes (.controlThreadInstruction (.csr op rd k src)) s P := ⟨_, rfl, h⟩

end

/-- The illegal-instruction exception of the current control thread; the spec leaves stval between the instruction and 0 (R145, log 24). -/
def illegalTrap (s t : State) : Prop :=
  ∃ w, (w = 0 ∨ w = BitVec.ofNat 64 s.fWord) ∧ trapsTo s t s.fTask false 2 w

theorem illegalTrap_rvIllegal (s : State) (b : Bool) : illegalTrap s (s.rvIllegal b) := by
  refine ⟨_, ?_, trapsTo_ctTrap s s.fTask 2 _⟩
  split
  · exact .inr rfl
  · exact .inl rfl

theorem trapsTo_rvIllegal_stated (s : State) : trapsTo s (s.rvIllegal true) s.fTask false 2 (BitVec.ofNat 64 s.fWord) :=
  trapsTo_ctTrap s s.fTask 2 _

section
variable {s : State} {op : CsrOp} {rd : XReg} {n : BitVec 12} {src : CsrSrc} {old : Word}

theorem csr_unknown_traps (h : s.csrValue s.fTask n.toNat = none) :
    completes (.controlThreadInstruction (.csr op rd n src)) s (illegalTrap s) :=
  completes_csr (by rw [rvCsr_unknown h]; exact illegalTrap_rvIllegal s _)

/-- An access that is not legal traps, whether or not the number names a register. -/
theorem csr_refused_traps (ha : (s.ctl s.fTask).csrAllowed n.toNat (csrWrites op src) = false) :
    completes (.controlThreadInstruction (.csr op rd n src)) s (illegalTrap s) := by
  cases hval : s.csrValue s.fTask n.toNat with
  | none => exact csr_unknown_traps hval
  | some old => exact completes_csr (by rw [rvCsr_refused hval ha]; exact illegalTrap_rvIllegal s _)

/-- Below the number's lowest mode stval holds the instruction (R140, log 24). -/
theorem csr_below_mode_traps (h : s.csrValue s.fTask n.toNat = some old)
    (ha : (s.ctl s.fTask).csrAllowed n.toNat (csrWrites op src) = false) (hm : (s.ctl s.fTask).mode = .u) (h1 : n.toNat / 256 % 4 = 1) :
    completes (.controlThreadInstruction (.csr op rd n src)) s
      (fun t => trapsTo s t s.fTask false 2 (BitVec.ofNat 64 s.fWord)) := by
  apply completes_csr
  have hstated : decide ((s.ctl s.fTask).mode = .u ∧ 1 ≤ bits n.toNat 9 8) = true :=
    decide_eq_true ⟨hm, by rw [bits_eq]; exact Nat.le_of_eq h1.symm⟩
  rw [rvCsr_refused h ha, hstated]
  exact trapsTo_rvIllegal_stated s

theorem csr_reads (h : s.csrValue s.fTask n.toNat = some old) (ha : (s.ctl s.fTask).csrAllowed n.toNat (csrWrites op src) = true)
    (hw : csrWrites op src = false) :
    completes (.controlThreadInstruction (.csr op rd n src)) s (fun t => ctWrites s t rd old) :=
  completes_csr (by rw [rvCsr_reads h ha hw]; exact ctWrites_ctNext s rd old)

end

/-- What a CSR instruction leaves besides the register it writes: the old value in rd, and the next pc. -/
def csrRest (s t : State) (rd : XReg) (old : Word) : Prop :=
  (t.ctl s.fTask).getX rd = (if rd = 0 then 0 else old) ∧
  (∀ r, r ≠ rd → (t.ctl s.fTask).getX r = (s.ctl s.fTask).getX r) ∧
  (t.ctl s.fTask).pc = (s.ctl s.fTask).pc + BitVec.ofNat 64 s.fLen ∧ (t.ctl s.fTask).mode = (s.ctl s.fTask).mode ∧ sameBytes s t

/-- A CSR instruction that writes gives `x` and `d` as the registers of its control thread, and changes nothing but that thread. -/
def csrWrote (s t : State) (rd : XReg) (old : Word) (x : SCsr) (d : DCsr) : Prop :=
  (t.ctl s.fTask).s = { x with instret := (s.ctl s.fTask).s.instret + 1 } ∧ (t.ctl s.fTask).d = d ∧
  t = s.updCtl s.fTask (fun _ => t.ctl s.fTask) ∧ csrRest s t rd old

theorem csrWrote_rvSet (s : State) (rd : XReg) (old : Word) :
    csrWrote s (s.rvSet rd old) rd old (s.ctl s.fTask).s (s.ctl s.fTask).d := by
  obtain ⟨hrd, hother, hpc, hs, hd, hmode, -, heq, hmem⟩ := ctWrites_ctNext s rd old
  exact ⟨hs, hd, heq, hrd, hother, hpc, hmode, hmem⟩

theorem csrRest.trans {s t u : State} {rd : XReg} {old : Word} (h : csrRest s t rd old)
    (hx : (u.ctl s.fTask).x = (t.ctl s.fTask).x) (hpc : (u.ctl s.fTask).pc = (t.ctl s.fTask).pc)
    (hmode : (u.ctl s.fTask).mode = (t.ctl s.fTask).mode) (hmem : u.mem = t.mem) : csrRest s u rd old := by
  obtain ⟨hrd, hother, hpc', hmode', hb⟩ := h
  have hX : ∀ r, (u.ctl s.fTask).getX r = (t.ctl s.fTask).getX r := fun r => by simp only [Ctl.getX, hx]
  exact ⟨(hX rd).trans hrd, fun r hr => (hX r).trans (hother r hr), hpc.trans hpc', hmode.trans hmode',
    fun k => (sameBytes_of_mem hmem k).trans (hb k)⟩

/-- A CSR write after the old value has gone to rd changes the two register files of the thread and nothing else. -/
theorem csrWrote.updCtl {s t : State} {rd : XReg} {old : Word} {x x' : SCsr} {d d' : DCsr} (h : csrWrote s t rd old x d)
    (f : Ctl → Ctl) (hx : (f (t.ctl s.fTask)).x = (t.ctl s.fTask).x) (hpc : (f (t.ctl s.fTask)).pc = (t.ctl s.fTask).pc)
    (hmode : (f (t.ctl s.fTask)).mode = (t.ctl s.fTask).mode)
    (hs : (f (t.ctl s.fTask)).s = { x' with instret := (t.ctl s.fTask).s.instret }) (hd : (f (t.ctl s.fTask)).d = d') :
    csrWrote s (t.updCtl s.fTask f) rd old x' d' := by
  obtain ⟨hs0, -, heq, hrest⟩ := h
  have hc : (t.updCtl s.fTask f).ctl s.fTask = f (t.ctl s.fTask) := ctl_updCtl_same ..
  refine ⟨?_, ?_, ?_, hrest.trans ?_ ?_ ?_ rfl⟩
  · rw [hc, hs, hs0]
  · rw [hc, hd]
  · rw [hc]
    calc t.updCtl s.fTask f = t.updCtl s.fTask (fun _ => f (t.ctl s.fTask)) := updCtl_eq_const ..
      _ = (s.updCtl s.fTask (fun _ => t.ctl s.fTask)).updCtl s.fTask (fun _ => f (t.ctl s.fTask)) :=
        congrArg (fun r : State => r.updCtl s.fTask (fun _ => f (t.ctl s.fTask))) heq
      _ = s.updCtl s.fTask (fun _ => f (t.ctl s.fTask)) := updCtl_updCtl ..
  · rw [hc, hx]
  · rw [hc, hpc]
  · rw [hc, hmode]

theorem SCsr.write_instret (c : SCsr) {n : Nat} (v k : Word) (hn : n ∈ stdCsrNumbers) :
    ({ c with instret := k } : SCsr).write n v = { c.write n v with instret := k } := by
  simp only [stdCsrNumbers, List.mem_cons, List.not_mem_nil, or_false] at hn
  obtain rfl | rfl | rfl | rfl | rfl | rfl | rfl | rfl | rfl | rfl | rfl | rfl := hn <;> rfl

theorem csrWrote_csrWrite_std (s : State) (rd : XReg) (old : Word) {n : Nat} (v : Word) (hn : n ∈ stdCsrNumbers) :
    csrWrote s ((s.rvSet rd old).csrWrite s.fTask n v) rd old ((s.ctl s.fTask).s.write n v) (s.ctl s.fTask).d := by
  have h := csrWrote_rvSet s rd old
  rw [csrWrite_std v hn]
  refine h.updCtl _ rfl rfl rfl ?_ h.2.1
  rw [h.1]
  exact SCsr.write_instret _ _ _ hn

theorem csrWrote_csrWrite_dev (s : State) (rd : XReg) (old : Word) {n : Nat} (v : Word) (hn : n ∈ devCsrNumbers) :
    csrWrote s ((s.rvSet rd old).csrWrite s.fTask n v) rd old (s.ctl s.fTask).s ((s.ctl s.fTask).d.write n v) := by
  have h := csrWrote_rvSet s rd old
  have ⟨hs, hd, _⟩ := h
  obtain hw | ⟨hw, hsame⟩ := csrWrite_dev (s := s.rvSet rd old) (t := s.fTask) v hn
  · rw [hw]
    exact h.updCtl _ rfl rfl rfl (by rw [hs]) (by rw [hd])
  · rw [hd] at hsame
    rw [hw, hsame]
    exact h

theorem supervisorNumber_of_mem {n : Nat} (h : n ∈ stdCsrNumbers ++ devCsrNumbers) :
    n / 256 % 4 = 1 ∧ n / 1024 < 3 ∧ n ≠ 0x5D6 := by
  revert n
  decide

section
variable {s : State} {op : CsrOp} {rd : XReg} {n : BitVec 12} {src : CsrSrc} {old w : Word}

/-- In S-mode a CSR instruction that writes a supervisor's register other than TQPOST makes the register's write. -/
theorem rvCsr_supervisor_writes (h : s.csrValue s.fTask n.toNat = some old) (hm : (s.ctl s.fTask).mode = .s)
    (hw : csrWrites op src = true) (hnew : csrNew op old ((s.ctl s.fTask).csrSrc src) = w) (h1 : n.toNat / 256 % 4 = 1)
    (h3 : n.toNat / 1024 < 3) (hn : n.toNat ≠ 0x5D6) :
    s.rvCsr op rd n.toNat src = (s.rvSet rd old).csrWrite s.fTask n.toNat w := by
  rw [rvCsr_writes h (csrAllowed_of_supervisor _ _ _ hm h1 h3) hw hn, hnew]

/-- A CSR instruction that writes in S-mode completes with the write of a standard register. -/
theorem csr_writes_std (h : s.csrValue s.fTask n.toNat = some old) (hm : (s.ctl s.fTask).mode = .s) (hw : csrWrites op src = true)
    (hnew : csrNew op old ((s.ctl s.fTask).csrSrc src) = w) (hn : n.toNat ∈ stdCsrNumbers) :
    completes (.controlThreadInstruction (.csr op rd n src)) s
      (fun t => csrWrote s t rd old ((s.ctl s.fTask).s.write n.toNat w) (s.ctl s.fTask).d) := by
  apply completes_csr
  obtain ⟨h1, h3, h5⟩ := supervisorNumber_of_mem (List.mem_append_left devCsrNumbers hn)
  rw [rvCsr_supervisor_writes h hm hw hnew h1 h3 h5]
  exact csrWrote_csrWrite_std _ _ _ _ hn

/-- A CSR instruction that writes in S-mode completes with the write of a device register. -/
theorem csr_writes_dev (h : s.csrValue s.fTask n.toNat = some old) (hm : (s.ctl s.fTask).mode = .s) (hw : csrWrites op src = true)
    (hnew : csrNew op old ((s.ctl s.fTask).csrSrc src) = w) (hn : n.toNat ∈ devCsrNumbers) :
    completes (.controlThreadInstruction (.csr op rd n src)) s
      (fun t => csrWrote s t rd old (s.ctl s.fTask).s ((s.ctl s.fTask).d.write n.toNat w)) := by
  apply completes_csr
  obtain ⟨h1, h3, h5⟩ := supervisorNumber_of_mem (List.mem_append_right stdCsrNumbers hn)
  rw [rvCsr_supervisor_writes h hm hw hnew h1 h3 h5]
  exact csrWrote_csrWrite_dev _ _ _ _ hn

/-- A CSR instruction that writes in S-mode completes with the write of an LPAREA. -/
theorem csr_writes_lpa (h : s.csrValue s.fTask n.toNat = some old) (hm : (s.ctl s.fTask).mode = .s) (hw : csrWrites op src = true)
    (hnew : csrNew op old ((s.ctl s.fTask).csrSrc src) = w) (k : Fin 16) (hn : n.toNat = 0x5C0 + k) :
    completes (.controlThreadInstruction (.csr op rd n src)) s (fun t =>
      (t.ctl s.fTask).d.lpa[k] = w &&& lpaMask ∧ (∀ j : Fin 16, j ≠ k → (t.ctl s.fTask).d.lpa[j] = (s.ctl s.fTask).d.lpa[j]) ∧
      csrRest s t rd old) := by
  apply completes_csr
  rw [rvCsr_supervisor_writes h hm hw hnew (by omega) (by omega) (by omega), hn, csrWrite_lpa]
  obtain ⟨-, hd, -, hrest⟩ := csrWrote_rvSet s rd old
  have hc := ctl_writeLpa (s.rvSet rd old) s.fTask k w
  have hl : (((s.rvSet rd old).writeLpa s.fTask k w).ctl s.fTask).d.lpa = vset (s.ctl s.fTask).d.lpa k (w &&& lpaMask) := by rw [hc, hd]
  obtain ⟨hself, hother⟩ := lpa_vset (s.ctl s.fTask).d.lpa k (w &&& lpaMask)
  rw [hl]
  exact ⟨hself, hother, hrest.trans (by rw [hc]) (by rw [hc]) (by rw [hc]) rfl⟩

end

theorem csrWrites_iff (op : CsrOp) (src : CsrSrc) :
    csrWrites op src = true ↔ op = .rw ∨ match src with | .reg r => r ≠ 0 | .imm k => k ≠ 0 := by
  cases op <;> cases src <;> simp [csrWrites]

theorem csrSrc_eq (c : Ctl) (src : CsrSrc) : c.csrSrc src = match src with | .reg r => c.getX r | .imm k => BitVec.ofNat 64 k.toNat := by
  cases src with
  | reg r => rfl
  | imm k => exact (BitVec.ofNat_toNat 64 k).symm

/-- sstatus holds its fields below bit 20 (R145). -/
theorem sstatus_low (c : SCsr) : c.sstatus.toNat % 2 ^ 20 =
    b01 c.stSie * 2 + b01 c.stSpie * 32 + b01 c.stSpp * 256 + b01 c.stSum * 2 ^ 18 + b01 c.stMxr * 2 ^ 19 := by
  have hb : ∀ b, b01 b ≤ 1 := fun b => by cases b <;> decide
  have h1 := hb c.stSie; have h2 := hb c.stSpie; have h3 := hb c.stSpp; have h4 := hb c.stSum; have h5 := hb c.stMxr
  rw [SCsr.sstatus, BitVec.toNat_ofNat]
  omega

/-- Settles O32: an access that is unknown or refused traps, one that does not write gives the old value, and each register written changes its own field. -/
theorem csrInstructionsReadAndWrite : Obligations.CsrInstructionsReadAndWrite := by
  intro s rd n op src u c i v writes priv hidden illegal traps sstatus
  have hwr : csrWrites op src = true ↔ writes := csrWrites_iff op src
  have hillegal : c.csrAllowed n.toNat (csrWrites op src) = false ↔ illegal :=
    (csrAllowed_eq_false_iff c n.toNat _ n.isLt).trans (by rw [hwr])
  refine ⟨?values, ⟨_, rfl, sstatus_low c.s⟩, csr_unknown_traps, fun h => csr_refused_traps (hillegal.2 h), fun old hval => ⟨?_, ?_, ?_⟩⟩
  case values =>
    simp only [List.forall_mem_cons]
    exact ⟨rfl, rfl, rfl, rfl, rfl, rfl, rfl, rfl, rfl, rfl, rfl, rfl, rfl, rfl, fun _ h => absurd h List.not_mem_nil⟩
  · intro hpriv
    exact csr_below_mode_traps hval (hillegal.2 (.inl hpriv)) hpriv.2 hpriv.1
  · intro hlegal hno
    exact csr_reads hval (eq_true_of_ne_false (mt hillegal.1 hlegal)) (eq_false_of_ne_true (mt hwr.1 hno))
  · intro hm hwrites w others std dev
    have hw : csrWrites op src = true := hwr.2 hwrites
    have hnew : csrNew op old (c.csrSrc src) = w := by rw [csrSrc_eq]; cases op <;> rfl
    have hstd : ∀ k ∈ stdCsrNumbers, std k (c.s.write k w) := by
      rintro k hk rfl
      exact csr_writes_std hval hm hw hnew hk
    have hdev : ∀ k ∈ devCsrNumbers, dev k (c.d.write k w) := by
      rintro k hk rfl
      exact csr_writes_dev hval hm hw hnew hk
    exact ⟨hstd 0x100 (by decide), hstd 0x104 (by decide), hstd 0x105 (by decide), hstd 0x106 (by decide), hstd 0x10A (by decide),
      hstd 0x140 (by decide), hstd 0x141 (by decide), hstd 0x142 (by decide), hstd 0x143 (by decide), hstd 0x144 (by decide),
      hstd 0x14D (by decide), hstd 0x180 (by decide), hdev 0x5D2 (by decide), hdev 0x5D0 (by decide), hdev 0x5D1 (by decide),
      fibre_bits w.toNat ▸ hdev 0x5D3 (by decide), hdev 0x5D4 (by decide), hdev 0x5D5 (by decide), csr_writes_lpa hval hm hw hnew⟩

/-! ### Writes of the runtime to the registers of a running task (R210, R304, R382) -/

section
variable {i : Instr} {s u : State} {b : Bool}

theorem completes_of_guard {P : State → Prop} (hexec : exec i s = .next (if b = true then u else s)) (hb : b = true) (h : P u) :
    completes i s P := ⟨u, by rw [hexec, if_pos hb], h⟩

theorem completes_of_runs {P : State → Prop} (hrun : runs i s u) (h : P u) : completes i s P := ⟨u, hrun, h⟩

theorem runs_of_guard (hexec : exec i s = .next (if b = true then u else s)) (hb : b = true) : runs i s u := by
  rw [runs, hexec, if_pos hb]

theorem runs_of_guard_off (hexec : exec i s = .next (if b = true then u else s)) (hb : b = false) : runs i s s := by
  rw [runs, hexec, hb, if_neg Bool.false_ne_true]

end

/-- What a write of a device register of task `t` leaves: the general registers and the pc, memory, and every other task. -/
def ctlRest (s u : State) (t : Nat) : Prop :=
  (u.ctl t).x = (s.ctl t).x ∧ (u.ctl t).pc = (s.ctl t).pc ∧ sameBytes s u ∧ ∀ j, j ≠ t → u.task j = s.task j

theorem ctlRest.rfl' (s : State) (t : Nat) : ctlRest s s t := ⟨rfl, rfl, fun _ => rfl, fun _ _ => rfl⟩

theorem ctlRest_updArch {s : State} {t : Nat} {f : Arch → Arch} (hx : (f (s.arch t)).ctl.x = (s.ctl t).x)
    (hpc : (f (s.arch t)).ctl.pc = (s.ctl t).pc) : ctlRest s (s.updArch t f) t := by
  have hc : (s.updArch t f).ctl t = (f (s.arch t)).ctl := congrArg Arch.ctl (arch_updArch_same s t f)
  exact ⟨hc ▸ hx, hc ▸ hpc, fun _ => rfl, fun j hj => (task_updTask s t j _).trans (if_neg hj.symm)⟩

theorem ctlRest_updCtl {s : State} {t : Nat} {f : Ctl → Ctl} (hx : (f (s.ctl t)).x = (s.ctl t).x)
    (hpc : (f (s.ctl t)).pc = (s.ctl t).pc) : ctlRest s (s.updCtl t f) t := ctlRest_updArch hx hpc

theorem ctlRest_updD (s : State) (t : Nat) (f : DCsr → DCsr) : ctlRest s (s.updD t f) t := ctlRest_updCtl rfl rfl

theorem ctlRest_writeLpa (s : State) (t i : Nat) (v : Word) : ctlRest s (s.writeLpa t i v) t :=
  ctlRest_updArch (by simp [Arch.updD, Arch.updCtl, State.ctl]) (by simp [Arch.updD, Arch.updCtl, State.ctl])

theorem d_updD (s : State) (t : Nat) (f : DCsr → DCsr) : ((s.updD t f).ctl t).d = f (s.ctl t).d :=
  congrArg Ctl.d (ctl_updCtl_same s t _)

/-! ### TQPOST (R304, R305) -/

section
variable {s s' : State} {t st idx : Nat} {v : Word} {l : List Word}

theorem tqPost_refused_eq (hf : s.ctReadFault t (v.toNat / 64 % 65536 * 64) 8 = none)
    (hr : postRefused (s.ctWords t (v.toNat / 64 % 65536 * 64) 8) = true) :
    s.tqPost t v = (s.updD t (fun d => { d with tqSt := 3, tqIdx := (Config.freeWord s.free).toNat % 2 ^ 32 })).draw := by
  have hoff : bits v.toNat 21 6 = v.toNat / 64 % 65536 := bits_eq v.toNat 21 6
  simp only [State.tqPost, hoff, hf, hr, if_true]

theorem tqPost_appends_eq (hf : s.ctReadFault t (v.toNat / 64 % 65536 * 64) 8 = none)
    (hl : s.ctWords t (v.toNat / 64 % 65536 * 64) 8 = l) (hr : postRefused l = false)
    (ha : s.trapAppend (s.task t).ctx (postRecord l s.now) ((l.getD 0 0).getLsbD 16) = (s', st, idx)) :
    s.tqPost t v = (s'.updD t (fun d => { d with
      tqSt := st
      tqIdx := if st = 0 then idx else (Config.freeWord s.free).toNat % 2 ^ 32 })).draw := by
  have hoff : bits v.toNat 21 6 = v.toNat / 64 % 65536 := bits_eq v.toNat 21 6
  simp only [State.tqPost, hoff, hf, hl, hr, ha, Bool.false_eq_true, if_false]

end

/-! ### REARM (R382) -/

theorem SMap.find_upd {α : Type} (m : SMap α) (k : Nat) (f : α → α) : SMap.find (SMap.upd m k f) k = (SMap.find m k).map f := by
  induction m with
  | nil => rfl
  | cons e m ih =>
    by_cases h : e.1 = k
    · simp [SMap.upd, SMap.find, h]
    · simpa [SMap.upd, SMap.find, h] using ih

/-- A fold over a list keeps what each of its steps keeps. -/
theorem foldl_keeps {α β : Type} (p : State → α) {f : State → β → State} (h : ∀ s b, p (f s b) = p s) (l : List β) (s : State) :
    p (l.foldl f s) = p s := by
  induction l generalizing s with
  | nil => rfl
  | cons b l ih => exact (ih (f s b)).trans (h s b)

/-- What a member's barrier registers lose at a REARM. -/
def BarCore.disarm (l : Nat) (b : BarCore) : BarCore := (b.setPend l none).updMemb l (fun m => { m with arr := false })

theorem membOf_disarm (b : BarCore) {l : Nat} (h1 : 1 ≤ l) (h4 : l ≤ 4) : ((b.disarm l).membOf l).arr = false := by
  have hmemb : (b.disarm l).membOf l = { b.membOf l with arr := false } := by
    simp only [BarCore.disarm, BarCore.updMemb, BarCore.membOf, vget_vset _ _ _ _ _ (show l - 1 < 4 by omega), if_true]
    rfl
  rw [hmemb]

theorem bar_updBar (s : State) (t u : Nat) (f : BarCore → BarCore) :
    ((s.updBar t f).arch u).bar = if t = u then f (s.arch u).bar else (s.arch u).bar := by
  simp only [State.updBar, arch_updArch]
  split
  · next h => rw [h]; rfl
  · rfl

/-- Every task of a list comes to hold what each update gives. -/
theorem bar_foldl_updBar {P : BarCore → Prop} {f : BarCore → BarCore} (hf : ∀ b, P (f b)) (u : Nat) (l : List Nat) (s : State)
    (h : u ∈ l ∨ P (s.arch u).bar) : P (((l.foldl (fun (s : State) m => s.updBar m f) s).arch u).bar) := by
  induction l generalizing s with
  | nil => exact h.resolve_left List.not_mem_nil
  | cons m l ih =>
    refine ih _ ?_
    rw [bar_updBar]
    by_cases hm : m = u
    · exact .inr (by rw [if_pos hm]; exact hf _)
    · rw [if_neg hm]
      exact h.imp_left (fun hu => (List.mem_cons.1 hu).resolve_left (Ne.symm hm))

/-- What a REARM makes of a barrier that was aborted or has timed out. -/
def Inst.rearmed (i : Inst) : Inst :=
  { i with st := .open_, code := 0, arrived := [], wdRun := false, wdCount := 0, podKids := [], podSent := false }

/-- A packet that carries an arrival of one of the tasks `ms` at level `l`. -/
def Packet.arrivalFrom (ms : List Nat) (l : Nat) (p : Packet) : Bool :=
  match p.body with
  | .arrival u l' _ _ => l' == l && ms.contains u
  | _ => false

/-- The members are disarmed one after the other. -/
def State.disarmAll (s : State) (l : Nat) (ms : List Nat) : State := ms.foldl (fun s m => s.updBar m (BarCore.disarm l)) s

/-- The packets that satisfy `q` are lost. -/
def State.dropPackets (s : State) (q : Packet → Bool) : State := { s with net := s.net.filter (fun p => !q p) }

theorem rearm_eq {s : State} {t l : Nat} {i : Inst} (h : SMap.find s.insts (s.myInst t l) = some i) (hst : i.st = .aborted ∨ i.st = .timedout) :
    s.rearm t l = ((s.updInst (s.myInst t l) Inst.rearmed).disarmAll l i.members).dropPackets (Packet.arrivalFrom i.members l) := by
  have hno : ¬ (i.st ≠ .aborted ∧ i.st ≠ .timedout) := fun hn => hst.elim hn.1 hn.2
  have hkeep : ∀ p : Packet, (!p.arrivalFrom i.members l) =
      (match p.body with | .arrival u l' _ _ => !(l' == l && i.members.contains u) | _ => true) := by
    intro p
    unfold Packet.arrivalFrom
    cases p.body <;> rfl
  simp only [State.rearm, h, if_neg hno, State.dropPackets, hkeep]
  rfl

theorem rearm_live {s : State} {t l : Nat} {i : Inst} (h : SMap.find s.insts (s.myInst t l) = some i) (h1 : i.st ≠ .aborted)
    (h2 : i.st ≠ .timedout) : s.rearm t l = s := by
  simp only [State.rearm, h, if_pos (show i.st ≠ .aborted ∧ i.st ≠ .timedout from ⟨h1, h2⟩)]

section
variable {s : State} {t l : Nat} {i : Inst}

theorem insts_rearm (h : SMap.find s.insts (s.myInst t l) = some i) (hst : i.st = .aborted ∨ i.st = .timedout) :
    SMap.find (s.rearm t l).insts (s.myInst t l) = some i.rearmed := by
  have hi : (s.rearm t l).insts = SMap.upd s.insts (s.myInst t l) Inst.rearmed := by
    rw [rearm_eq h hst]
    exact foldl_keeps State.insts (fun _ _ => by rfl) _ _
  rw [hi, SMap.find_upd, h]
  rfl

theorem bar_rearm (h : SMap.find s.insts (s.myInst t l) = some i) (hst : i.st = .aborted ∨ i.st = .timedout) (h1 : 1 ≤ l) (h4 : l ≤ 4)
    (m : Nat) (hm : m ∈ i.members) : (((s.rearm t l).arch m).bar.membOf l).arr = false := by
  rw [rearm_eq h hst]
  exact bar_foldl_updBar (P := fun b => (b.membOf l).arr = false) (fun b => membOf_disarm b h1 h4) m _ _ (.inl hm)

theorem net_rearm (h : SMap.find s.insts (s.myInst t l) = some i) (hst : i.st = .aborted ∨ i.st = .timedout) {p : Packet}
    (hp : p ∈ (s.rearm t l).net) : p.arrivalFrom i.members l = false := by
  rw [rearm_eq h hst] at hp
  simpa using (List.mem_filter.1 hp).2

theorem mem_rearm (h : SMap.find s.insts (s.myInst t l) = some i) (hst : i.st = .aborted ∨ i.st = .timedout) : (s.rearm t l).mem = s.mem := by
  rw [rearm_eq h hst]
  exact foldl_keeps State.mem (fun _ _ => by rfl) _ _

end

/-! ### Registers of the module (R10, R296, R314, R381, R389, R414, R424, R428) -/

theorem exec_registerWrite_mgmt (s : State) (v : Word) (o : Nat) : exec (.registerWrite (.mgmt o) v) s =
    .next (if o < 0x1000 then s.powerWrite o v.toNat else s.blockWrite (o - 0x1000) v.toNat) := rfl

theorem exec_registerWrite_block (s : State) (v : Word) (o : Nat) :
    exec (.registerWrite (.mgmt (0x1000 + o)) v) s = .next (s.blockWrite o v.toNat) := by
  rw [exec_registerWrite_mgmt, if_neg (by omega), Nat.add_sub_cancel_left]

theorem exec_registerWrite_power (s : State) (v : Word) {o : Nat} (h : o < 0x1000) :
    exec (.registerWrite (.mgmt o) v) s = .next (s.powerWrite o v.toNat) := by
  rw [exec_registerWrite_mgmt, if_pos h]

theorem runs_registerWrite_block {s t : State} {v : Word} (o : Nat) (h : s.blockWrite o v.toNat = t) :
    runs (.registerWrite (.mgmt (0x1000 + o)) v) s t := h ▸ exec_registerWrite_block s v o

theorem runs_registerWrite_power {s t : State} {v : Word} {o : Nat} (ho : o < 0x1000) (h : s.powerWrite o v.toNat = t) :
    runs (.registerWrite (.mgmt o) v) s t := h ▸ exec_registerWrite_power s v ho

section
variable (s : State) (n : Nat)

theorem blockWrite_ctxtbase : s.blockWrite 0x000 n = { s with mg := { s.mg with ctxtbase := n / 4096 % 2 ^ 36 * 4096 } } := by
  simp [State.blockWrite, bits_eq]

theorem blockWrite_ctxcmd : s.blockWrite 0x008 n = s.ctxCommand (n % 16) (n / 65536 % 4096) := by
  simp [State.blockWrite, bits_eq]

theorem blockWrite_ctxfatal : s.blockWrite 0x018 n = { s with mg := { s.mg with fatalV := s.mg.fatalV && !n.testBit 31 } } := by
  simp [State.blockWrite, bit]

theorem blockWrite_qtbase : s.blockWrite 0x040 n = { s with mg := { s.mg with qtbase := n / 65536 % 2 ^ 32 * 65536 } } := by
  simp [State.blockWrite, bits_eq]

theorem blockWrite_qcmd : s.blockWrite 0x048 n = s.queueCommand (n % 16) (n / 65536 % 1024) := by
  simp [State.blockWrite, bits_eq]

theorem blockWrite_qdb : s.blockWrite 0x058 n = s.doorbell (n % 1024) (BitVec.ofNat 32 (n / 2 ^ 32)) := by
  simp [State.blockWrite, bits_eq]

theorem blockWrite_qerr : s.blockWrite 0x060 n = { s with mg := { s.mg with qerrV := s.mg.qerrV && !n.testBit 31 } } := by
  simp [State.blockWrite, bit]

theorem blockWrite_barwdog : s.blockWrite 0x070 n = { s with mg := { s.mg with barwdog := BitVec.ofNat 64 n } } := by
  simp [State.blockWrite]

theorem blockWrite_podbar : s.blockWrite 0x078 n = s.podbarWrite n := by
  simp [State.blockWrite]

theorem blockWrite_pgva : s.blockWrite 0x088 n = { s with pg := { s.pg with va := n / 65536 % 2 ^ 40 * 65536 } } := by
  simp [State.blockWrite, bits_eq]

theorem blockWrite_pgcnt : s.blockWrite 0x090 n = { s with pg := { s.pg with cnt := n % 2 ^ 32 } } := by
  simp [State.blockWrite, bits_eq]

theorem blockWrite_pgarg : s.blockWrite 0x098 n = { s with pg := { s.pg with arg := BitVec.ofNat 64 n } } := by
  simp [State.blockWrite]

theorem blockWrite_pool : s.blockWrite 0x0B0 n =
    if (∃ e ∈ s.ctxs, e.2.st = .resident) ∨ 4194304 < n % 2 ^ 23 then s else { s with pg := { s.pg with pool := n % 2 ^ 23 } } := by
  have hb : bits n 22 0 = n % 2 ^ 23 := by simp [bits_eq]
  have hw : s.blockWrite 0x0B0 n = if (s.ctxs.any (fun e => e.2.st = .resident)) = true ∨ 4194304 < bits n 22 0 then s
    else { s with pg := { s.pg with pool := bits n 22 0 } } := rfl
  have hany : ((s.ctxs.any (fun e => e.2.st = .resident)) = true ∨ 4194304 < n % 2 ^ 23) ↔
      (∃ e ∈ s.ctxs, e.2.st = .resident) ∨ 4194304 < n % 2 ^ 23 := by
    simp only [List.any_eq_true, decide_eq_true_eq]
  rw [hw, hb]
  by_cases h : (∃ e ∈ s.ctxs, e.2.st = .resident) ∨ 4194304 < n % 2 ^ 23
  · rw [if_pos h, if_pos (hany.2 h)]
  · rw [if_neg h, if_neg (mt hany.1 h)]

theorem blockWrite_chgsel : s.blockWrite 0x0C0 n = { s with pg := { s.pg with chgsel := n % 4096 } } := by
  simp [State.blockWrite, bits_eq]

theorem blockWrite_lksel : s.blockWrite 0x0E0 n = { s with lk := { s.lk with sel := n % 512 } } := by
  simp [State.blockWrite, bits_eq]

theorem blockWrite_diecmd : s.blockWrite 0x0F8 n =
    if n % 4 = 1 then s.dieCommandFence (n / 16 % 16) else if n % 4 = 2 then s.dieCommandWarm (n / 16 % 16) else s := by
  simp [State.blockWrite, bits_eq]

theorem podbarWrite_off (h : s.mg.podEn = false) : s.podbarWrite n = { s with mg := { s.mg with
    podIdx := n % 2 ^ 11
    podCnt := n / 2 ^ 12 % 2 ^ 11
    podJob := n / 2 ^ 32 % 2 ^ 16
    podEn := n.testBit 31
    podDown := s.mg.podDown && !n.testBit 48
    podRefuse := s.mg.podRefuse && !n.testBit 31 } } := by
  simp [State.podbarWrite, h, bits_eq, bit]

theorem podbarWrite_on (h : s.mg.podEn = true) : s.podbarWrite n = { s with mg := { s.mg with podEn := n.testBit 31 } } := by
  simp [State.podbarWrite, h, bit]

end

/-! ### Registers of the power block (R428 to R432) -/

/-- A draw that comes down to its bound changes the measured draw alone. -/
theorem boundDraw_eq (s : State) : ∃ free draw met, s.boundDraw = { s with
    free := free
    pw := { s.pw with
      draw := draw
      met := met } } := by
  simp only [State.boundDraw]
  split
  · exact ⟨s.free, s.pw.draw, s.pw.met, rfl⟩
  · exact ⟨_, _, _, rfl⟩

/-- A change of a cap changes the power's own record: the caps as `f` says, the throttle step and the draw as they follow. -/
theorem setCaps_eq (s : State) (f : Power → Power) : ∃ free dec add step draw met, s.setCaps f = { s with
    free := free
    pw := { f s.pw with
      lastDecrease := dec
      lastAdd := add
      step := step
      draw := draw
      met := met } } := by
  simp only [State.setCaps]
  split
  · obtain ⟨free, draw, met, h⟩ := boundDraw_eq { s with pw := { f s.pw with
      lastDecrease := some s.now
      lastAdd := s.now
      met := (f s.pw).within (f s.pw).draw
      step := max (f s.pw).step (min (Config.predictDepth (f s.pw).eff (f s.pw).draw) 23) } }
    exact ⟨free, _, _, _, draw, met, h⟩
  · exact ⟨s.free, _, _, _, _, _, rfl⟩

section
variable (s : State) (n : Nat)

theorem powerWrite_pwrpre : s.powerWrite 0x008 n =
    s.setCaps (fun p => { p with pre := #v[n % 2 ^ 7, n / 2 ^ 8 % 2 ^ 7, n / 2 ^ 16 % 2 ^ 7, n / 2 ^ 24 % 2 ^ 7] }) := by
  simp [State.powerWrite, bits_eq]

theorem powerWrite_therm : s.powerWrite 0x018 n =
    if 80 ≤ n / 2 ^ 8 % 2 ^ 8 ∧ n / 2 ^ 8 % 2 ^ 8 ≤ 105 then
      State.heat { s with pw := { s.pw with warn := n / 2 ^ 8 % 2 ^ 8 } } s.pw.tj
    else s := by
  simp [State.powerWrite, bits_eq]

theorem powerWrite_pfctl : s.powerWrite 0x020 n = { s with pw := { s.pw with
    pfAddr := n / 2 ^ 6 % 2 ^ 42 * 64
    pfCount := min 64 (n / 2 ^ 48 % 2 ^ 7) } } := by
  simp [State.powerWrite, bits_eq]

end

theorem heat_cool {s : State} {tj : Nat} (h : tj ≤ s.pw.warn ∨ s.pw.hot = true) :
    s.heat tj = { s with pw := { s.pw with
      tj := tj % 256
      hot := s.pw.hot && decide (s.pw.warn ≤ tj) } } := by
  have hno : ¬ (s.pw.warn < tj ∧ (!s.pw.hot) = true) := by
    rintro ⟨h1, h2⟩
    obtain h | h := h
    · omega
    · simp [h] at h2
  simp only [State.heat, if_neg hno]

theorem heat_hot {s : State} {tj : Nat} (h1 : s.pw.warn < tj) (h2 : s.pw.hot = false) : s.heat tj = s.capBelow tj := by
  simp only [State.heat, h2, Bool.not_false, and_true, if_pos h1]

section
variable (s : State) (v : Word)

/-- A write of the cap per power step changes no other cap, and no task or memory (R428, R429). -/
theorem pwrpre_write : completes (.registerWrite (.mgmt 0x008) v) s (fun u => (∀ j : Fin 4, u.pw.pre[j] = v.toNat / 2 ^ (8 * j.val) % 2 ^ 7) ∧
    u.pw.cap = s.pw.cap ∧ u.pw.thermal = s.pw.thermal ∧ u.tasks = s.tasks ∧ sameBytes s u) := by
  refine ⟨_, runs_registerWrite_power (by decide) (powerWrite_pwrpre ..), ?_⟩
  obtain ⟨free, dec, add, step, draw, met, h⟩ := setCaps_eq s _
  rw [h]
  refine ⟨fun j => ?_, rfl, rfl, rfl, fun _ => rfl⟩
  match j with
  | 0 => exact congrArg (· % 2 ^ 7) (Nat.div_one _).symm
  | 1 => rfl
  | 2 => rfl
  | 3 => rfl

/-- A WARN above the temperature, or one below it after the lowering has begun, is only written (R432). -/
theorem therm_write_cool (h1 : 80 ≤ v.toNat / 2 ^ 8 % 2 ^ 8) (h2 : v.toNat / 2 ^ 8 % 2 ^ 8 ≤ 105) (htj : s.pw.tj < 256)
    (hcool : s.pw.tj ≤ v.toNat / 2 ^ 8 % 2 ^ 8 ∨ s.pw.hot = true) :
    runs (.registerWrite (.mgmt 0x018) v) s { s with pw := { s.pw with
      warn := v.toNat / 2 ^ 8 % 2 ^ 8
      hot := s.pw.hot && decide (v.toNat / 2 ^ 8 % 2 ^ 8 ≤ s.pw.tj) } } := by
  refine runs_registerWrite_power (by decide) ?_
  rw [powerWrite_therm, if_pos ⟨h1, h2⟩, heat_cool hcool, Nat.mod_eq_of_lt htj]

/-- A WARN below the temperature begins the lowering: the thermal cap goes a unit below the effective cap (R432). -/
theorem therm_write_hot (h1 : 80 ≤ v.toNat / 2 ^ 8 % 2 ^ 8) (h2 : v.toNat / 2 ^ 8 % 2 ^ 8 ≤ 105)
    (hhot : v.toNat / 2 ^ 8 % 2 ^ 8 < s.pw.tj) (hfirst : s.pw.hot = false) :
    completes (.registerWrite (.mgmt 0x018) v) s (fun u =>
      u.pw.warn = v.toNat / 2 ^ 8 % 2 ^ 8 ∧ u.pw.thermal = max 12 (s.pw.eff - 1) ∧ u.tasks = s.tasks ∧ sameBytes s u) := by
  have hwrite : s.powerWrite 0x018 v.toNat = State.capBelow { s with pw := { s.pw with warn := v.toNat / 2 ^ 8 % 2 ^ 8 } } s.pw.tj :=
    (powerWrite_therm ..).trans ((if_pos ⟨h1, h2⟩).trans (heat_hot hhot hfirst))
  refine ⟨_, runs_registerWrite_power (by decide) hwrite, ?_⟩
  obtain ⟨free, dec, add, step, draw, met, h⟩ := setCaps_eq { s with pw := { s.pw with warn := v.toNat / 2 ^ 8 % 2 ^ 8 } } _
  rw [State.capBelow, h]
  exact ⟨rfl, rfl, rfl, fun _ => rfl⟩

end

/-! ### Command registers act as the command (R296, R314, R315, R424) -/

section
variable (s : State) (v : Word)

theorem exec_diecmd_fence (h : v.toNat % 4 = 1) :
    exec (.registerWrite (.mgmt 0x10F8) v) s = exec (.dieFence (v.toNat / 16 % 16)) s := by
  have hfence : exec (.dieFence (v.toNat / 16 % 16)) s = .next (s.dieCommandFence (v.toNat / 16 % 16 % 16)) := rfl
  rw [hfence, Nat.mod_mod, exec_registerWrite_block s v 0x0F8, blockWrite_diecmd, if_pos h]

theorem exec_diecmd_warm (h : v.toNat % 4 = 2) :
    exec (.registerWrite (.mgmt 0x10F8) v) s = exec (.warmReset (v.toNat / 16 % 16)) s := by
  have hwarm : exec (.warmReset (v.toNat / 16 % 16)) s = .next (s.dieCommandWarm (v.toNat / 16 % 16 % 16)) := rfl
  rw [hwarm, Nat.mod_mod, exec_registerWrite_block s v 0x0F8, blockWrite_diecmd, if_neg (by omega), if_pos h]

theorem exec_ctxcmd_evict (h : v.toNat % 16 = 3) :
    exec (.registerWrite (.mgmt 0x1008) v) s = exec (.contextEvict (v.toNat / 65536 % 4096)) s := by
  have hevict : exec (.contextEvict (v.toNat / 65536 % 4096)) s = .next (s.ctxCommand 3 (v.toNat / 65536 % 4096 % 4096)) := rfl
  rw [hevict, Nat.mod_mod, exec_registerWrite_block s v 0x008, blockWrite_ctxcmd, h]

theorem exec_qcmd_create (h : v.toNat % 16 = 1) :
    exec (.registerWrite (.mgmt 0x1048) v) s = exec (.queueCreate (v.toNat / 65536 % 1024)) s := by
  have hcreate : exec (.queueCreate (v.toNat / 65536 % 1024)) s = .next (s.queueCommand 1 (v.toNat / 65536 % 1024 % 1024)) := rfl
  rw [hcreate, Nat.mod_mod, exec_registerWrite_block s v 0x048, blockWrite_qcmd, h]

theorem exec_qdb_doorbell : exec (.registerWrite (.mgmt 0x1058) v) s =
    exec (.queueDoorbell (v.toNat % 1024) (BitVec.ofNat 32 (v.toNat / 2 ^ 32))) s := by
  have hring : exec (.queueDoorbell (v.toNat % 1024) (BitVec.ofNat 32 (v.toNat / 2 ^ 32))) s =
    .next (s.doorbell (v.toNat % 1024 % 1024) (BitVec.ofNat 32 (v.toNat / 2 ^ 32))) := rfl
  rw [hring, Nat.mod_mod, exec_registerWrite_block s v 0x058, blockWrite_qdb]

end

/-! ### CSRs of a running task (R10, R145, R155) -/

theorem csrValue_isSome_of_mem (s : State) (t : Nat) {n : Nat} (h : n ∈ stdCsrNumbers ++ devCsrNumbers) :
    (s.csrValue t n).isSome = true := by
  simp only [stdCsrNumbers, devCsrNumbers, List.cons_append, List.nil_append, List.mem_cons, List.not_mem_nil, or_false] at h
  obtain rfl | rfl | rfl | rfl | rfl | rfl | rfl | rfl | rfl | rfl | rfl | rfl | rfl | rfl | rfl | rfl | rfl | rfl := h <;> rfl

theorem csrValue_isSome_lpa (s : State) (t : Nat) (k : Fin 16) : (s.csrValue t (0x5C0 + k)).isSome = true := by
  have hdev : s.devCsr t (0x5C0 + k) = some (vget 0 (s.ctl t).d.lpa (0x5C0 + k - 0x5C0)) := if_pos (by omega)
  unfold State.csrValue
  split
  · rfl
  · rw [hdev]
    rfl

section
variable {s : State} {t : Nat} {n : BitVec 12} {v : Word}

theorem runs_csr_write (hw : s.writer t = true) (hval : (s.csrValue t n.toNat).isSome = true) (hn : n.toNat / 1024 < 3) :
    runs (.registerWrite (.csr t n) v) s (s.csrWrite t n.toNat v) := by
  have hro : bits n.toNat 11 10 ≠ 3 := by rw [bits_eq]; omega
  exact runs_of_guard rfl (by simp [hw, hval, hro])

/-- A read-only number is not written (R146). -/
theorem runs_csr_read_only (hn : n.toNat / 1024 = 3) : runs (.registerWrite (.csr t n) v) s s := by
  have hro : bits n.toNat 11 10 = 3 := by rw [bits_eq]; omega
  exact runs_of_guard_off (b := s.writer t && (s.csrValue t n.toNat).isSome && decide (bits n.toNat 11 10 ≠ 3)) rfl (by simp [hro])

theorem completes_csr_std (hw : s.writer t = true) (hn : n.toNat ∈ stdCsrNumbers) :
    completes (.registerWrite (.csr t n) v) s (fun u =>
      (u.ctl t).s = (s.ctl t).s.write n.toNat v ∧ (u.ctl t).d = (s.ctl t).d ∧ ctlRest s u t) := by
  have hmem := List.mem_append_left devCsrNumbers hn
  obtain ⟨-, h3, -⟩ := supervisorNumber_of_mem hmem
  refine completes_of_runs (runs_csr_write hw (csrValue_isSome_of_mem s t hmem) h3) ?_
  rw [csrWrite_std v hn, ctl_updCtl_same]
  exact ⟨rfl, rfl, ctlRest_updCtl rfl rfl⟩

theorem completes_csr_dev (hw : s.writer t = true) (hn : n.toNat ∈ devCsrNumbers) :
    completes (.registerWrite (.csr t n) v) s (fun u =>
      (u.ctl t).d = (s.ctl t).d.write n.toNat v ∧ (u.ctl t).s = (s.ctl t).s ∧ ctlRest s u t) := by
  have hmem := List.mem_append_right stdCsrNumbers hn
  obtain ⟨-, h3, -⟩ := supervisorNumber_of_mem hmem
  refine completes_of_runs (runs_csr_write hw (csrValue_isSome_of_mem s t hmem) h3) ?_
  obtain hd | ⟨hd, hsame⟩ := csrWrite_dev (s := s) (t := t) v hn
  · rw [hd, ctl_updCtl_same]
    exact ⟨rfl, rfl, ctlRest_updCtl rfl rfl⟩
  · rw [hd]
    exact ⟨hsame.symm, rfl, ctlRest.rfl' s t⟩

theorem completes_csr_lpa (hw : s.writer t = true) (k : Fin 16) :
    completes (.registerWrite (.csr t (BitVec.ofNat 12 (0x5C0 + k.val))) v) s (fun u =>
      (u.ctl t).d.lpa[k] = v &&& lpaMask ∧ (∀ j : Fin 16, j ≠ k → (u.ctl t).d.lpa[j] = (s.ctl t).d.lpa[j]) ∧ ctlRest s u t) := by
  have hk : (BitVec.ofNat 12 (0x5C0 + k.val)).toNat = 0x5C0 + k := by rw [BitVec.toNat_ofNat]; omega
  refine completes_of_runs (runs_csr_write hw (by rw [hk]; exact csrValue_isSome_lpa s t k) (by omega)) ?_
  obtain ⟨hself, hother⟩ := lpa_vset (s.ctl t).d.lpa k (v &&& lpaMask)
  rw [hk, csrWrite_lpa, ctl_writeLpa]
  exact ⟨hself, hother, ctlRest_writeLpa s t k v⟩

end

/-! ### Events of a running task (R152, R155, R210, R304, R382) -/

theorem writer_iff (s : State) (t : Nat) : s.writer t = true ↔ (s.task t).active = true ∧ (s.task t).ending = false := by
  rw [State.writer, Bool.and_eq_true, Bool.not_eq_true']

theorem exec_grpctlRearm (s : State) (t : Nat) (lv : BitVec 3) : exec (.grpctlRearm t lv) s =
    .next (if (s.writer t && decide (1 ≤ lv.toNat ∧ lv.toNat ≤ 4)) = true then s.rearm t lv.toNat else s) := rfl

section
variable {s : State} {t : Nat} (hw : s.writer t = true) (v : Word)
include hw

theorem tqpost_refused (hf : s.ctReadFault t (v.toNat / 64 % 65536 * 64) 8 = none)
    (hr : postRefused (s.ctWords t (v.toNat / 64 % 65536 * 64) 8) = true) :
    completes (.tqpost t v) s (fun u => (u.ctl t).d.tqSt = 3 ∧ ctlRest s u t) :=
  completes_of_guard rfl hw (by rw [tqPost_refused_eq hf hr]; exact ⟨congrArg DCsr.tqSt (d_updD s t _), ctlRest_updD s t _⟩)

/-- A record that may be posted goes to the trap queue, and TQRES tells its end. -/
theorem tqpost_appends {s' : State} {st idx : Nat} {l : List Word} (hf : s.ctReadFault t (v.toNat / 64 % 65536 * 64) 8 = none)
    (hl : s.ctWords t (v.toNat / 64 % 65536 * 64) 8 = l) (hr : postRefused l = false)
    (ha : s.trapAppend (s.task t).ctx (postRecord l s.now) ((l.getD 0 0).getLsbD 16) = (s', st, idx)) :
    completes (.tqpost t v) s (fun u => (u.ctl t).d.tqSt = st ∧ (st = 0 → (u.ctl t).d.tqIdx = idx) ∧ u.mem = s'.mem ∧ u.ctxs = s'.ctxs) := by
  refine completes_of_guard rfl hw ?_
  rw [tqPost_appends_eq hf hl hr ha]
  exact ⟨congrArg DCsr.tqSt (d_updD s' t _), fun h0 => (congrArg DCsr.tqIdx (d_updD s' t _)).trans (if_pos h0), rfl, rfl⟩

theorem elfaultClear_clears : completes (.elfaultClear t) s (fun u =>
    (u.ctl t).d.elV = false ∧ (u.ctl t).d.elMore = false ∧ (u.ctl t).d.elval = (s.ctl t).d.elval ∧ ctlRest s u t) := by
  refine completes_of_guard rfl hw ?_
  rw [d_updD]
  exact ⟨rfl, rfl, rfl, ctlRest_updD s t _⟩

theorem mtfpendClear_clears : completes (.mtfpendClear t v) s (fun u =>
    (∀ j < 10, (u.ctl t).d.mtfpend.getLsbD j = ((s.ctl t).d.mtfpend.getLsbD j && !v.getLsbD j)) ∧ ctlRest s u t) := by
  refine completes_of_guard rfl hw ⟨fun j hj => ?_, ctlRest_updD s t _⟩
  rw [d_updD]
  simp [DCsr.clearMtf, hj]

theorem ctsyncGo_sets : completes (.ctsyncGo t v) s (fun u =>
    (∀ j < 10, (u.ctl t).d.go.getLsbD j = ((s.ctl t).d.go.getLsbD j || v.getLsbD (16 + j))) ∧
    (u.ctl t).d.sig = (s.ctl t).d.sig ∧ ctlRest s u t) := by
  refine completes_of_guard rfl hw ⟨fun j hj => ?_, by rw [d_updD], ctlRest_updD s t _⟩
  rw [d_updD]
  simp [hj]

theorem lpareaWrite_writes (a : BitVec 4) : completes (.lpareaWrite t a v) s (fun u =>
    vget 0 (u.ctl t).d.lpa a.toNat = v &&& lpaMask ∧
    (∀ j < 16, j ≠ a.toNat → vget 0 (u.ctl t).d.lpa j = vget 0 (s.ctl t).d.lpa j) ∧ ctlRest s u t) := by
  refine completes_of_guard rfl hw ⟨?_, fun j _ hne => ?_, ctlRest_writeLpa s t _ v⟩ <;> rw [ctl_writeLpa, vget_vset _ _ _ _ _ a.isLt]
  · exact if_pos rfl
  · exact if_neg hne.symm

section
variable {lv : BitVec 3} {i : Inst} (h1 : 1 ≤ lv.toNat) (h4 : lv.toNat ≤ 4) (hi : SMap.find s.insts (s.myInst t lv.toNat) = some i)
include h1 h4 hi

theorem grpctlRearm_rearms (hst : i.st = .aborted ∨ i.st = .timedout) : completes (.grpctlRearm t lv) s (fun u =>
    (∃ j, SMap.find u.insts (s.myInst t lv.toNat) = some j ∧ j.st = .open_ ∧ j.code = 0 ∧ j.arrived = [] ∧ j.counter = i.counter ∧
      j.members = i.members) ∧
    (∀ m ∈ i.members, ((u.arch m).bar.membOf lv.toNat).arr = false) ∧
    (∀ p ∈ u.net, ∀ m op c, p.body = .arrival m lv.toNat op c → m ∉ i.members) ∧ sameBytes s u) := by
  refine completes_of_guard (exec_grpctlRearm s t lv) (by simp [hw, h1, h4]) ⟨⟨i.rearmed, insts_rearm hi hst, rfl, rfl, rfl, rfl, rfl⟩,
    bar_rearm hi hst h1 h4, fun p hp m op c hb hm => ?_, sameBytes_of_mem (mem_rearm hi hst)⟩
  have hgone := net_rearm hi hst hp
  simp [Packet.arrivalFrom, hb, hm] at hgone

theorem grpctlRearm_ignored (hst1 : i.st ≠ .aborted) (hst2 : i.st ≠ .timedout) : runs (.grpctlRearm t lv) s s := by
  have h := runs_of_guard (exec_grpctlRearm s t lv) (by simp [hw, h1, h4])
  rwa [rearm_live hi hst1 hst2] at h

end

end

/-- No event of the runtime acts for a task that does not run. -/
theorem runtime_events_ignored {s : State} {t : Nat} (h : (s.task t).active = false) (v : Word) (a : BitVec 4) (lv : BitVec 3) :
    runs (.elfaultClear t) s s ∧ runs (.mtfpendClear t v) s s ∧ runs (.ctsyncGo t v) s s ∧ runs (.lpareaWrite t a v) s s ∧
    runs (.tqpost t v) s s ∧ runs (.grpctlRollback t) s s ∧ runs (.grpctlRearm t lv) s s ∧ runs (.grpctlKill t) s s := by
  have hw : s.writer t = false := by rw [State.writer, h, Bool.false_and]
  exact ⟨runs_of_guard_off rfl hw, runs_of_guard_off rfl hw, runs_of_guard_off rfl hw, runs_of_guard_off rfl hw,
    runs_of_guard_off rfl hw, runs_of_guard_off rfl hw, runs_of_guard_off (exec_grpctlRearm s t lv) (by rw [hw, Bool.false_and]),
    runs_of_guard_off rfl hw⟩

/-- PODBAR while EN is 0 takes every field, and DOWN is cleared by a 1 (R389). -/
theorem podbar_write_off {s : State} (v : Word) (h : s.mg.podEn = false) : completes (.registerWrite (.mgmt 0x1078) v) s (fun u =>
    u.mg.podIdx = v.toNat % 2 ^ 11 ∧ u.mg.podCnt = v.toNat / 2 ^ 12 % 2 ^ 11 ∧ u.mg.podJob = v.toNat / 2 ^ 32 % 2 ^ 16 ∧
    u.mg.podEn = v.getLsbD 31 ∧ u.mg.podDown = (s.mg.podDown && !v.getLsbD 48) ∧ u.tasks = s.tasks ∧ sameBytes s u) :=
  ⟨_, runs_registerWrite_block 0x078 ((blockWrite_podbar ..).trans (podbarWrite_off _ _ h)), rfl, rfl, rfl, rfl, rfl, rfl, fun _ => rfl⟩

theorem pool_write {s : State} (v : Word) (hfree : ∀ e ∈ s.ctxs, e.2.st ≠ .resident) (hsize : v.toNat % 2 ^ 23 ≤ 4194304) :
    runs (.registerWrite (.mgmt 0x10B0) v) s { s with pg := { s.pg with pool := v.toNat % 2 ^ 23 } } := by
  refine runs_registerWrite_block 0x0B0 ((blockWrite_pool ..).trans (if_neg ?_))
  rintro (⟨e, he, hres⟩ | hbig)
  · exact hfree e he hres
  · omega

/-- Settles O44: a write acts through `csrWrite`, `powerWrite` or `blockWrite`, and the equation of its register says what changes. -/
theorem registerWriteEvents : Obligations.RegisterWriteEvents := by
  intro s s' t st idx i v a n lv k d off rest reg
  refine ⟨fun hact hend => ?running, fun h => runtime_events_ignored h v a lv,
    runs_registerWrite_block 0x000 (blockWrite_ctxtbase ..), runs_registerWrite_block 0x040 (blockWrite_qtbase ..),
    runs_registerWrite_block 0x018 (blockWrite_ctxfatal ..), runs_registerWrite_block 0x060 (blockWrite_qerr ..),
    runs_registerWrite_block 0x070 (by rw [blockWrite_barwdog, BitVec.ofNat_toNat, BitVec.setWidth_eq]),
    runs_registerWrite_block 0x088 (blockWrite_pgva ..), runs_registerWrite_block 0x090 (blockWrite_pgcnt ..),
    runs_registerWrite_block 0x098 (by rw [blockWrite_pgarg, BitVec.ofNat_toNat, BitVec.setWidth_eq]), pool_write v,
    fun hno => runs_registerWrite_block 0x0B0 ((blockWrite_pool ..).trans (if_pos hno)), podbar_write_off v,
    fun hon => runs_registerWrite_block 0x078 ((blockWrite_podbar ..).trans (podbarWrite_on _ _ hon)), pwrpre_write s v,
    ⟨fun hout => ?therm, therm_write_cool s v, therm_write_hot s v⟩, runs_registerWrite_power (by decide) (powerWrite_pfctl ..),
    exec_diecmd_fence s v, exec_diecmd_warm s v, fun hno => ?diecmd, runs_registerWrite_block 0x0C0 (blockWrite_chgsel ..),
    runs_registerWrite_block 0x0E0 (blockWrite_lksel ..), exec_ctxcmd_evict s v, exec_qcmd_create s v, exec_qdb_doorbell s v⟩
  case therm => exact runs_registerWrite_power (by decide) ((powerWrite_therm ..).trans (if_neg (by omega)))
  case diecmd => exact runs_registerWrite_block 0x0F8 ((blockWrite_diecmd ..).trans (by rw [if_neg (by omega), if_neg (by omega)]))
  case running =>
    have hw : s.writer t = true := (writer_iff s t).2 ⟨hact, hend⟩
    refine ⟨tqpost_refused hw v, fun hf => tqpost_appends hw v hf rfl, elfaultClear_clears hw, mtfpendClear_clears hw v, ctsyncGo_sets hw v,
      lpareaWrite_writes hw v a, runs_of_guard rfl hw, grpctlRearm_rearms hw, grpctlRearm_ignored hw, ?csrs, runs_csr_read_only⟩
    intro std dev c
    have hstd : ∀ n : BitVec 12, n.toNat ∈ stdCsrNumbers → std n (c.write n.toNat v) := fun n hn => completes_csr_std hw hn
    have hdev : ∀ n : BitVec 12, n.toNat ∈ devCsrNumbers → dev n (d.write n.toNat v) := fun n hn => completes_csr_dev hw hn
    exact ⟨hstd 0x100 (by decide), hstd 0x104 (by decide), hstd 0x105 (by decide), hstd 0x106 (by decide), hstd 0x10A (by decide),
      hstd 0x140 (by decide), hstd 0x141 (by decide), hstd 0x142 (by decide), hstd 0x143 (by decide), hstd 0x144 (by decide),
      hstd 0x14D (by decide), hstd 0x180 (by decide), hdev 0x5D2 (by decide), hdev 0x5D0 (by decide), hdev 0x5D1 (by decide),
      fibre_bits v.toNat ▸ hdev 0x5D3 (by decide), hdev 0x5D4 (by decide), hdev 0x5D5 (by decide), completes_csr_lpa hw⟩

end Sys2Proof.Machine

/-! SUPPORT. References that are refused or that use damage. -/
namespace Sys2Proof.Machine

/-! ### References that fault (R50, R57, R199, R297) -/

theorem completes_fault {j : Instr} {s : State} {cause val : Nat} (h10 : s.fSlot < 10) (hk : s.cur.kill = none) (hc : cause < 256)
    (he : exec j s = .next (s.fault cause val)) : completes j s (fun t => faultsWith s t cause val) :=
  ⟨_, he, faultsWith_fault s cause val h10 hk hc⟩

theorem reference_no_channel (s : State) (ea n : Nat) (need : Need) (k : Nat → State) (c : Coord) (ht : s.target ea n = .there c)
    (hc : s.hasCh s.me.ctx = false) : s.reference ea n need k = s.fault 0x03 0 := by
  simp [State.reference, ht, hc]

/-- The offset of a reference to the own column is a multiple of its size (R50). -/
theorem target_here_aligned {s : State} {ea n off : Nat} (h : s.target ea n = .here off) : off % n = 0 := by
  unfold State.target at h
  split at h
  · split at h
    · cases h
    · next ha => cases h; simpa using ha
  · unfold resolve at h
    split at h
    · cases h
    · split at h
      · cases h
      · next ha =>
        split at h
        · cases h; simpa using ha
        · cases h

theorem eax_eq (x : Slot) (a b : Reg) (n : Nat) : x.eax a b n = ((x.getM a).toNat + (x.getM b).toNat * n) % 2 ^ 64 := by
  simp only [Slot.eax, BitVec.toNat_add, BitVec.toNat_mul, BitVec.toNat_ofNat, Nat.add_mod_mod, Nat.mul_mod_mod]

theorem poisonCause_eq (p : Poison) : poisonCause p = if p = .expired then 0x0A else 0x09 := by cases p <;> rfl

theorem poisonCause_lt (p : Poison) : poisonCause p < 256 := by cases p <;> decide

/-! ### Damage met by the shared accesses (R64, R199) -/

section
variable {s : State} {ea off n l : Nat} {p : Poison}

theorem loadBytes_damaged (k : Nat → State) (hf : SMap.find s.cur.part (off / 8 * 8) = none)
    (hp : s.colPoison s.fTask s.cur.sb off n = some (l, p)) : s.loadBytes ea off n k = s.fault (poisonCause p) ea := by
  simp [State.loadBytes, hf, hp]

theorem storeBytes_damaged (v : Nat) (k : State → State) (hn : n < 8)
    (hp : s.colPoison s.fTask s.cur.sb off n = some (l, p)) : s.storeBytes ea off n v k = s.fault (poisonCause p) ea := by
  simp [State.storeBytes, hn, hp]

theorem halfPoison_of_unspoilt (ha : off % 8 = 0) (h : unspoilt s off 8) : s.halfPoison off = none := by
  rw [unspoilt, show off / 8 * 8 = off by omega] at h
  unfold State.halfPoison Slot.ahead
  rcases h with h | h
  · rw [if_pos h]
  · split
    · rfl
    · exact h

theorem halfPoison_of_fresh (ha : off % 8 = 0) (h : SMap.find s.cur.part (off / 8 * 8) = none) :
    s.halfPoison off = s.colPoison s.fTask s.cur.sb off 8 := by
  rw [show off / 8 * 8 = off by omega] at h
  simp [State.halfPoison, Slot.ahead, h]

/-- A load of two locations meets the damage of its lowest location that has any and has not been read ahead. -/
theorem loadPair_damaged (k : Nat → State) (ha : off % 16 = 0) {h : Nat} (hh : h < 2) (hu : ∀ h' < h, unspoilt s (off + 8 * h') 8)
    (hf : SMap.find s.cur.part ((off + 8 * h) / 8 * 8) = none)
    (hp : s.colPoison s.fTask s.cur.sb (off + 8 * h) 8 = some (l, p)) : s.loadPair ea off k = s.fault (poisonCause p) ea := by
  have hfirst : [off, off + 8].findSome? s.halfPoison = some (l, p) := by
    have hd : s.halfPoison (off + 8 * h) = some (l, p) := (halfPoison_of_fresh (by omega) hf).trans hp
    obtain rfl | rfl : h = 0 ∨ h = 1 := by omega
    · exact List.findSome?_cons_of_isSome (by rw [show off = off + 8 * 0 from rfl, hd]; rfl) |>.trans hd
    · have h0 : s.halfPoison off = none := halfPoison_of_unspoilt (by omega) (hu 0 (by omega))
      simp [List.findSome?, h0, show s.halfPoison (off + 8) = some (l, p) from hd]
  simp only [State.loadPair, hfirst]

theorem atomic_eq_reference (s : State) (o : AOrd) (w4 : Bool) (d a : Reg) (f : Nat → Option Nat) :
    ∃ k : Nat → State, s.atomic o w4 d a f = s.reference (s.cur.getM a).toNat (if w4 then 4 else 8) .rw k ∧
      ∀ off l p, s.colPoison s.fTask s.cur.sb off (if w4 then 4 else 8) = some (l, p) → k off = s.fault (poisonCause p) (s.cur.getM a).toNat :=
  ⟨_, rfl, fun off l p hp => by simp only [hp]⟩

end

/-! ### Heads that refer (R196, R201) -/

/-- A reference of head `j` that R50 or protection refuses, or that would travel without a channel, makes its slot FAULTED (R50, R57, R297). -/
def refusedFaults (s : State) (j : Instr) (g : Guard) (e n : Nat) (need : Need) : Prop :=
  ready s j g ∧ s.cur.kill = none →
    (∀ k v, k < 256 → s.target e n = .fault k v → completes j s (fun t => faultsWith s t k v)) ∧
    (∀ x, s.target e n = .there x → s.hasCh s.me.ctx = false → completes j s (fun t => faultsWith s t 0x03 0)) ∧
    (∀ off, s.target e n = .here off → s.me.arch.denied need off n = true → completes j s (fun t => faultsWith s t 0x04 e))

/-- The cause that the damage of `n` bytes at `off` raises (R199, R409). -/
def damageSays (s : State) (off n cause : Nat) : Prop :=
  ∃ l p, s.colPoison s.fTask s.cur.sb off n = some (l, p) ∧ cause = if p = .expired then 0x0A else 0x09

section
variable {s : State} {j : Instr} {g : Guard} {e n : Nat} {need : Need}

/-- A head whose effect is a reference faults where the reference is refused. -/
theorem refusedFaults_of_reference {k : Nat → State} (he : s.cur.holds g = true → exec j s = .next (s.reference e n need k)) :
    refusedFaults s j g e n need := by
  rintro ⟨⟨h10, -, hg⟩, hk⟩
  refine ⟨fun c v hc ht => ?_, fun x ht hch => ?_, fun off ht hd => ?_⟩
  · exact completes_fault h10 hk hc (by rw [he hg, reference_fault s e n need k c v ht])
  · exact completes_fault h10 hk (by decide) (by rw [he hg, reference_no_channel s e n need k x ht hch])
  · exact completes_fault h10 hk (by decide) (by rw [he hg, reference_denied s e n need k off ht hd])

/-- A reference that may act and meets damage faults with the cause of the damage. -/
theorem completes_damage {k : Nat → State} {off cause : Nat} {p : Poison} (hon : ready s j g ∧ s.cur.kill = none)
    (he : s.cur.holds g = true → exec j s = .next (s.reference e n need k)) (hr : refersTo s e n need off)
    (hd : k off = s.fault (poisonCause p) e) (hc : cause = if p = .expired then 0x0A else 0x09) :
    completes j s (fun t => faultsWith s t cause e) := by
  obtain ⟨⟨h10, -, hg⟩, hk⟩ := hon
  rw [hc, ← poisonCause_eq]
  exact completes_fault h10 hk (poisonCause_lt p) (by rw [he hg, reference_here s e n need k off hr, hd])

theorem load_faults {f : LdW} {d : Reg} (he : s.cur.holds g = true → exec j s = .next (s.load f d e)) :
    refusedFaults s j g e (ldBytes f) .rd ∧
    (ready s j g ∧ s.cur.kill = none → ∀ off k, refersTo s e (ldBytes f) .rd off → SMap.find s.cur.part (off / 8 * 8) = none →
      damageSays s off (ldBytes f) k → completes j s (fun t => faultsWith s t k e)) := by
  refine ⟨refusedFaults_of_reference he, ?_⟩
  rintro hon off k hr hf ⟨l, p, hp, hc⟩
  exact completes_damage hon he hr (loadBytes_damaged _ hf hp) hc

theorem loadPair_faults {k : Nat → State}
    (he : s.cur.holds g = true → exec j s = .next (s.reference e 16 .rd (fun off => s.loadPair e off k))) :
    refusedFaults s j g e 16 .rd ∧
    (ready s j g ∧ s.cur.kill = none → ∀ off c h, refersTo s e 16 .rd off → h < 2 → (∀ h' < h, unspoilt s (off + 8 * h') 8) →
      SMap.find s.cur.part ((off + 8 * h) / 8 * 8) = none → damageSays s (off + 8 * h) 8 c →
      completes j s (fun t => faultsWith s t c e)) := by
  refine ⟨refusedFaults_of_reference he, ?_⟩
  rintro hon off c h hr hh hu hf ⟨l, p, hp, hc⟩
  exact completes_damage hon he hr (loadPair_damaged _ (target_here_aligned hr.1) hh hu hf hp) hc

theorem store_faults {f : StW} {v : Word} (he : s.cur.holds g = true → exec j s = .next (s.store f v e)) :
    refusedFaults s j g e (stBytes f) .wr ∧
    (stBytes f < 8 → ready s j g ∧ s.cur.kill = none → ∀ off k, refersTo s e (stBytes f) .wr off → damageSays s off (stBytes f) k →
      completes j s (fun t => faultsWith s t k e)) := by
  refine ⟨refusedFaults_of_reference he, ?_⟩
  rintro hn hon off k hr ⟨l, p, hp, hc⟩
  exact completes_damage hon he hr (storeBytes_damaged _ _ hn hp) hc

theorem atomic_faults {o : AOrd} {w4 : Bool} {d a : Reg} {f : Nat → Option Nat}
    (he : s.cur.holds g = true → exec j s = .next (s.atomic o w4 d a f)) :
    refusedFaults s j g (s.cur.getM a).toNat (if w4 then 4 else 8) .rw ∧
    (ready s j g ∧ s.cur.kill = none → ∀ off k, refersTo s (s.cur.getM a).toNat (if w4 then 4 else 8) .rw off →
      damageSays s off (if w4 then 4 else 8) k → completes j s (fun t => faultsWith s t k (s.cur.getM a).toNat)) := by
  obtain ⟨k, heq, hd⟩ := atomic_eq_reference s o w4 d a f
  rw [heq] at he
  refine ⟨refusedFaults_of_reference he, ?_⟩
  rintro hon off c hr ⟨l, p, hp, hc⟩
  exact completes_damage hon he hr (hd off l p hp) hc

end

/-! ### Heads whose guard holds -/

/-- The logic of two values (R201). -/
def alogN (f : ALogOp) (a b : Nat) : Nat :=
  match f with
  | .and => a &&& b
  | .or => a ||| b
  | .xor => a ^^^ b

section
variable {s : State} {g : Guard} (hg : s.cur.holds g = true) (o : AOrd) (w4 : Bool) (d a b c : Reg) (i : Imm)
include hg

theorem vector_fv_on (hs : s.stalled = false) (k : State → State) : vector g .fv k s = .next (k s) := by
  simp [vector, hs, head_on g .fv k s hg rfl]

theorem exec_ld (f : LdW) : exec (.ld f d a i g) s = .next (s.load f d (s.cur.ea a i)) :=
  show execLd f d a i g s = _ from guarded_on g _ s hg
theorem exec_ldx (f : LdW) : exec (.ldx f d a b g) s = .next (s.load f d (s.cur.eax a b (ldBytes f))) :=
  show execLdx f d a b g s = _ from guarded_on g _ s hg
theorem exec_ldp : exec (.ldp d a i g) s = .next (s.reference (s.cur.ea a i) 16 .rd (fun off => s.loadPair (s.cur.ea a i) off (fun v =>
    s.retire (fun x => (x.setM d (BitVec.ofNat 64 v)).setM (d + 1) (BitVec.ofNat 64 (v / 2 ^ 64)))))) :=
  show execLdp d a i g s = _ from guarded_on g _ s hg
theorem exec_vld (hs : s.stalled = false) : exec (.vld d a i g) s = .next (s.reference (s.cur.ea a i) 16 .rd (fun off =>
    s.loadPair (s.cur.ea a i) off (fun v => s.retire (fun x => x.setQ d (BitVec.ofNat 128 v))))) := vector_fv_on hg hs _
theorem exec_st (f : StW) : exec (.st f d a i g) s = .next (s.store f (s.cur.getM d) (s.cur.ea a i)) :=
  show execSt f d a i g s = _ from guarded_on g _ s hg
theorem exec_stx (f : StW) : exec (.stx f d a b g) s = .next (s.store f (s.cur.getM d) (s.cur.eax a b (stBytes f))) :=
  show execStx f d a b g s = _ from guarded_on g _ s hg
theorem exec_stp : exec (.stp d a i g) s = .next (s.reference (s.cur.ea a i) 16 .wr (fun off =>
    (s.storePair off ((s.cur.getM d).toNat + (s.cur.getM (d + 1)).toNat * 2 ^ 64)).retire id)) :=
  show execStp d a i g s = _ from guarded_on g _ s hg
theorem exec_vst (hs : s.stalled = false) : exec (.vst d a i g) s = .next (s.reference (s.cur.ea a i) 16 .wr (fun off =>
    (s.storePair off (s.cur.getQ d).toNat).retire id)) := vector_fv_on hg hs _
theorem exec_aadd : exec (.aadd o w4 d a b g) s = .next (s.atomic o w4 d a (fun old => some (old + (s.cur.getM b).toNat))) :=
  show execAadd o w4 d a b g s = _ from guarded_on g _ s hg
theorem exec_alog (f : ALogOp) : exec (.alog f o w4 d a b g) s =
    .next (s.atomic o w4 d a (fun old => some (alogN f old (s.cur.getM b).toNat))) := by
  refine (show execAlog f o w4 d a b g s = _ from guarded_on g _ s hg).trans ?_
  cases f <;> rfl
theorem exec_amm (f : MmOp) : exec (.amm f o w4 d a b g) s = .next (s.atomic o w4 d a (fun old =>
    some (minmaxN f (if w4 then 32 else 64) old ((s.cur.getM b).toNat % 2 ^ (if w4 then 32 else 64))))) :=
  show execAmm f o w4 d a b g s = _ from guarded_on g _ s hg
theorem exec_aswp : exec (.aswp o w4 d a b g) s = .next (s.atomic o w4 d a (fun _ => some (s.cur.getM b).toNat)) :=
  show execAswp o w4 d a b g s = _ from guarded_on g _ s hg
theorem exec_acas : exec (.acas o w4 d a b c g) s = .next (s.atomic o w4 d a (fun old =>
    if old = (s.cur.getM c).toNat % 2 ^ (if w4 then 32 else 64) then some (s.cur.getM b).toNat else none)) :=
  show execAcas o w4 d a b c g s = _ from guarded_on g _ s hg

end

/-- Settles O9: every form is a reference, which faults where it is refused; what each does once it may act faults on damage. -/
theorem referencesFaultAtTheHead : Obligations.ReferencesFaultAtTheHead := by
  intro s o w4 d a b c i g ea ex at_ w faults on refused damage fresh spoilt spoiltLoad spoiltPair
  have hex : ∀ n, ex n = s.cur.eax a b n := fun n => (eax_eq s.cur a b n).symm
  refine ⟨fun f => ?ld, fun f => ?ldx, ?ldp, fun hs => ?vld, fun f => ?st, fun f => ?stx, ?stp, fun hs => ?vst,
    ?aadd, fun f => ?alog, fun f => ?amm, ?aswp, ?acas⟩
  case ld => exact load_faults (exec_ld · d a i f)
  case ldx => rw [hex]; exact load_faults (exec_ldx · d a b f)
  case ldp => exact loadPair_faults (exec_ldp · d a i)
  case vld => exact loadPair_faults (exec_vld · d a i hs)
  case st => exact store_faults (exec_st · d a i f)
  case stx => rw [hex]; exact store_faults (exec_stx · d a b f)
  case stp => exact refusedFaults_of_reference (exec_stp · d a i)
  case vst => exact refusedFaults_of_reference (exec_vst · d a i hs)
  case aadd => exact atomic_faults (exec_aadd · o w4 d a b)
  case alog => exact atomic_faults (exec_alog · o w4 d a b f)
  case amm => exact atomic_faults (exec_amm · o w4 d a b f)
  case aswp => exact atomic_faults (exec_aswp · o w4 d a b)
  case acas => exact atomic_faults (exec_acas · o w4 d a b c)

end Sys2Proof.Machine

/-! SUPPORT. POST and RECV: the send buffer, the mailbox, and what a message head changes of its slot. -/
namespace Sys2Proof.Machine

/-! ### Changes of the messages of a core -/

theorem arch_updMsgs_same (s : State) (t : Nat) (f : Msgs → Msgs) : (s.updMsgs t f).arch t = (s.arch t).updMsgs f :=
  arch_updArch_same s t _

@[simp] theorem cur_updMsgs (s : State) (t : Nat) (f : Msgs → Msgs) : (s.updMsgs t f).cur = s.cur := by
  show ((s.updMsgs t f).arch s.fTask).slot s.fSlot = (s.arch s.fTask).slot s.fSlot
  simp only [State.updMsgs, arch_updArch]
  split
  · next h => subst h; rfl
  · rfl

theorem msgs_retire (s : State) (t : Nat) (f : Slot → Slot) : ((s.retire f).arch t).msgs = (s.arch t).msgs := by
  simp only [State.retire, State.updCur, State.updSlot, arch_updArch]
  split
  · next h => subst h; rfl
  · rfl

@[simp] theorem atStop_msgs (i : Nat) (a : Arch) : (atStop i a).msgs = a.msgs := by
  show (if a.otherInLine i then a else a.dropLag).msgs = a.msgs
  split <;> rfl

theorem msgs_settle (s : State) (t i : Nat) (hk : (s.slot t i).kill = none) : ((s.settle t i).arch t).msgs = (s.arch t).msgs := by
  rw [settle_eq s t i hk, arch_updArch_same, atStop_msgs]

/-- A head that faults leaves the messages of its core as they were. -/
theorem msgs_fault (s : State) (cause val : Nat) (h10 : s.fSlot < 10) (hk : s.cur.kill = none) :
    ((s.fault cause val).arch s.fTask).msgs = s.me.arch.msgs := by
  unfold State.fault State.slotFault
  rw [msgs_settle, (keepsTasks_trigger _ _ _).arch, arch_updArch_same]
  · rfl
  · rw [(keepsTasks_trigger _ _ _).slot, State.slot, arch_updArch_same]
    exact (congrArg Slot.kill ((slot_setSlot _ _ _ _ h10).trans (if_pos rfl))).trans hk

/-- A fault at a head is one at the same head of the same slot. -/
theorem faultsWith_of_same_head {s u t : State} {cause val : Nat} (hcur : u.cur = s.cur) (hT : u.fTask = s.fTask) (hS : u.fSlot = s.fSlot)
    (h : faultsWith u t cause val) : faultsWith s t cause val := by
  unfold faultsWith at h ⊢
  rwa [hcur, hT, hS] at h

/-! ### The mailbox (R279) -/

section
variable {pre post : List Msg} {m : Msg} {tag : Nat}

theorem find_oldest (hm : m.tag = tag) (hpre : ∀ m' ∈ pre, m'.tag ≠ tag) :
    (pre ++ m :: post).find? (fun m => m.tag = tag) = some m :=
  List.find?_eq_some_iff_append.2 ⟨by simpa using hm, pre, post, rfl, fun m' h => by simpa using hpre m' h⟩

theorem eraseP_oldest (hm : m.tag = tag) (hpre : ∀ m' ∈ pre, m'.tag ≠ tag) :
    (pre ++ m :: post).eraseP (fun m => m.tag = tag) = pre ++ post := by
  rw [List.eraseP_append_right _ (fun m' h => by simpa using hpre m' h), List.eraseP_cons_of_pos (by simpa using hm)]

end

/-- The oldest message of a tag leaves the mailbox of the executing core. -/
def State.takeMsg (s : State) (tag : Nat) : State :=
  s.updMsgs s.fTask (fun q => { q with mailbox := s.me.arch.msgs.mailbox.eraseP (fun m => m.tag = tag) })

/-- The slot once RECV has written what it gives of message `m`. -/
def Slot.receive (x : Slot) (acq nw : Bool) (d b : Reg) (m : Msg) : Slot :=
  { x.setM d m.payload with
    pw := if nw then (x.setP b true).pw else x.pw
    part := if acq && m.rel then [] else x.part
    far := if acq && m.rel then none else x.far }

theorem mailbox_takeMsg {s : State} {tag : Nat} {m : Msg} {pre post : List Msg} (hbox : s.me.arch.msgs.mailbox = pre ++ m :: post)
    (hm : m.tag = tag) (hpre : ∀ m' ∈ pre, m'.tag ≠ tag) : (s.takeMsg tag).me.arch.msgs.mailbox = pre ++ post := by
  show ((s.takeMsg tag).arch s.fTask).msgs.mailbox = _
  rw [State.takeMsg, arch_updMsgs_same, hbox, eraseP_oldest hm hpre]
  rfl

@[simp] theorem cur_takeMsg (s : State) (tag : Nat) : (s.takeMsg tag).cur = s.cur := cur_updMsgs ..

@[simp] theorem eng_takeMsg (s : State) (tag : Nat) : (s.takeMsg tag).me.arch.eng = s.me.arch.eng := by
  show ((s.takeMsg tag).arch s.fTask).eng = _
  rw [State.takeMsg, arch_updMsgs_same]
  rfl

section
variable (x : Slot) (acq nw : Bool) (d b : Reg) (m : Msg)

theorem receive_eq : x.receive acq nw d b m =
    let y := if nw then (x.setM d m.payload).setP b true else x.setM d m.payload
    if acq && m.rel then y.reread else y := by
  unfold Slot.receive
  cases nw <;> cases acq && m.rel <;> rfl

/-- A RECV.NW that takes a message says so in its predicate, and a RECV writes no predicate (R279). -/
theorem receive_says : if nw then (x.receive acq nw d b m).getP b = true ∧ ∀ r, r ≠ b → (x.receive acq nw d b m).getP r = x.getP r
    else (x.receive acq nw d b m).pw = x.pw := by
  have hP : ∀ r, (x.receive acq true d b m).getP r = (x.setP b true).getP r := fun _ => rfl
  cases nw
  · rfl
  · exact ⟨by rw [hP, getP_setP, if_pos rfl], fun r hr => by rw [hP, getP_setP, if_neg (Ne.symm hr)]⟩

end

theorem tagOf_reg (x : Slot) (r : Reg) : x.tagOf (.reg r) = (x.getM r).toNat % 64 :=
  (bits_eq (x.getM r).toNat 5 0).trans (by simp)

theorem find_none_of_no_tag {l : List Msg} {tag : Nat} (h : ∀ m' ∈ l, m'.tag ≠ tag) : l.find? (fun m => m.tag = tag) = none :=
  List.find?_eq_none.2 (fun m' hm => by simpa using h m' hm)

/-- A map over a table that keeps each key, and of each value what `p` reads, keeps what `p` reads at every key. -/
theorem SMap.get_map_keeps {α β : Type} (p : α → β) {f : Nat × α → Nat × α} (hkey : ∀ e, (f e).1 = e.1)
    (hval : ∀ e, p (f e).2 = p e.2) (d : α) (m : SMap α) (k : Nat) : p (SMap.get d (m.map f) k) = p (SMap.get d m k) := by
  induction m with
  | nil => rfl
  | cons e m ih =>
    rw [List.map_cons, SMap.get, SMap.get, hkey]
    split
    · exact hval e
    · exact ih

/-- Noting the time of a wait changes no part of a core (R439). -/
theorem arch_noteMsgWait (s : State) (t : Nat) : s.noteMsgWait.arch t = s.arch t :=
  SMap.get_map_keeps Task.arch (fun e => by dsimp only; split <;> rfl) (fun e => by dsimp only; split <;> rfl) Task.blank s.tasks t

theorem waitsFor_noteMsgWait {s t : State} {w : Wr} {c : Cond} (h : waitsFor s t w c) : waitsFor s t.noteMsgWait w c := by
  have hcur : t.noteMsgWait.cur = t.cur := congrArg (fun a : Arch => a.slot t.fSlot) (arch_noteMsgWait t t.fTask)
  rwa [waitsFor, hcur]

section
variable {s : State} {acq nw : Bool} {d b : Reg} {src : TagSrc} {g : Guard}

theorem recv_dest_lt (hr : ready s (.recv acq nw d src b g) g) : d.toNat < 10 := by
  have hok := hr.2.1
  simp only [WellFormed.ok, WellFormed.mOk, Bool.and_eq_true, decide_eq_true_eq] at hok
  obtain ⟨⟨⟨hd, -⟩, -⟩, -⟩ := hok
  exact hd

theorem exec_recv_none (hr : ready s (.recv acq nw d src b g) g) (hno : ∀ m' ∈ s.me.arch.msgs.mailbox, m'.tag ≠ s.cur.tagOf src) :
    exec (.recv acq nw d src b g) s = .next (if nw then s.retire (fun x => (x.setM d 0).setP b false)
      else (s.waitAt .message (.message (s.cur.tagOf src))).noteMsgWait) := by
  obtain ⟨-, -, hg⟩ := hr
  refine (show execRecv acq nw d src b g s = _ from guarded_on g _ s hg).trans ?_
  simp only [find_none_of_no_tag hno]

theorem exec_recv_some {m : Msg} {pre post : List Msg} (hr : ready s (.recv acq nw d src b g) g)
    (hbox : s.me.arch.msgs.mailbox = pre ++ m :: post) (hm : m.tag = s.cur.tagOf src) (hpre : ∀ m' ∈ pre, m'.tag ≠ s.cur.tagOf src) :
    exec (.recv acq nw d src b g) s = .next (if s.cur.tagOf src ≠ 63 ∧ m.nx ≠ s.me.arch.eng.nx
      then (s.takeMsg (s.cur.tagOf src)).fault 0x0D 0
      else (s.takeMsg (s.cur.tagOf src)).retire (fun x => x.receive acq nw d b m)) := by
  have hfind : s.me.arch.msgs.mailbox.find? (fun m => m.tag = s.cur.tagOf src) = some m := hbox ▸ find_oldest hm hpre
  obtain ⟨-, -, hg⟩ := hr
  refine (show execRecv acq nw d src b g s = _ from guarded_on g _ s hg).trans ?_
  simp only [hfind, receive_eq]
  rw [← eng_takeMsg s (s.cur.tagOf src)]
  rfl

end

/-- The slot after a RECV that takes message `m`. -/
theorem cur_retire_takeMsg {s : State} (h10 : s.fSlot < 10) (tag : Nat) (acq nw : Bool) (d b : Reg) (m : Msg) :
    ((s.takeMsg tag).retire (fun x => x.receive acq nw d b m)).cur = (s.cur.receive acq nw d b m).advance :=
  (cur_retire (s.takeMsg tag) _ h10).trans (by rw [cur_takeMsg])

/-- A message of the other NX has left the mailbox when its RECV faults (R279). -/
theorem fault_takeMsg {s : State} (h10 : s.fSlot < 10) (hk : s.cur.kill = none) (tag cause val : Nat) (hc : cause < 256) :
    faultsWith s ((s.takeMsg tag).fault cause val) cause val ∧
    (((s.takeMsg tag).fault cause val).arch s.fTask).msgs = (s.takeMsg tag).me.arch.msgs := by
  have hk' : (s.takeMsg tag).cur.kill = none := by rw [cur_takeMsg]; exact hk
  exact ⟨faultsWith_of_same_head (cur_takeMsg s tag) rfl rfl (faultsWith_fault (s.takeMsg tag) cause val h10 hk' hc),
    msgs_fault (s.takeMsg tag) cause val h10 hk'⟩

/-! ### POST (R278) -/

/-- The entry of a POST in the send buffer: a snapshot of its words, and for a POST.REL what it waits for. -/
def State.postEnt (s : State) (rel trig : Bool) (b : Reg) (tag : BitVec 6) (c : Coord) : SendEnt :=
  let k := s.me
  ⟨{ payload := s.cur.getM b, tag := tag.toNat, trig := trig, src := k.coord, kh := k.kh, grp := k.gidx, nx := k.arch.eng.nx,
     ctx := k.ctx, rel := rel }, c, s.fSlot, if rel then some (k.arch.serial, k.arch.eng.copyUids) else none⟩

section
variable {s : State} {rel trig : Bool} {d a b : Reg} {tag : BitVec 6} {g : Guard} {c : Coord}

theorem exec_post_refused (hr : ready s (.post rel trig d a b tag g) g) (hc : coordOf s.me.coord (s.cur.getM a).toNat = none) :
    exec (.post rel trig d a b tag g) s = .next (s.fault 0x08 (s.cur.getM a).toNat) := by
  obtain ⟨-, -, hg⟩ := hr
  refine (show execPost rel trig d a b tag g s = _ from guarded_on g _ s hg).trans ?_
  simp only [hc]

theorem exec_post_no_channel (hr : ready s (.post rel trig d a b tag g) g) (hc : coordOf s.me.coord (s.cur.getM a).toNat = some c)
    (hne : c ≠ s.me.coord) (hch : s.hasCh s.me.ctx = false) : exec (.post rel trig d a b tag g) s = .next (s.fault 0x03 0) := by
  obtain ⟨-, -, hg⟩ := hr
  refine (show execPost rel trig d a b tag g s = _ from guarded_on g _ s hg).trans ?_
  simp [hc, hne, hch]

theorem exec_post (hr : ready s (.post rel trig d a b tag g) g) (hc : coordOf s.me.coord (s.cur.getM a).toNat = some c)
    (hway : c = s.me.coord ∨ s.hasCh s.me.ctx = true) : exec (.post rel trig d a b tag g) s =
      .next (if 16 ≤ s.me.arch.msgs.sendb.length then s.retire (fun x => x.setM d 1)
        else (s.updMsgs s.fTask (fun q => { q with sendb := q.sendb ++ [s.postEnt rel trig b tag c] })).retire (fun x => x.setM d 0)) := by
  have hsends : ¬(c ≠ s.me.coord ∧ !s.hasCh s.me.ctx) := by rintro ⟨hne, hch⟩; simp [hway.resolve_left hne] at hch
  obtain ⟨-, -, hg⟩ := hr
  refine (show execPost rel trig d a b tag g s = _ from guarded_on g _ s hg).trans ?_
  simp only [hc, if_neg hsends]
  rfl

theorem post_dest_lt (hr : ready s (.post rel trig d a b tag g) g) : d.toNat < 10 := by
  have hok := hr.2.1
  simp only [WellFormed.ok, WellFormed.mOk, Bool.and_eq_true, decide_eq_true_eq] at hok
  obtain ⟨⟨⟨⟨hd, -⟩, -⟩, -⟩, -⟩ := hok
  exact hd

theorem post_enters (hr : ready s (.post rel trig d a b tag g) g) (hc : coordOf s.me.coord (s.cur.getM a).toNat = some c)
    (hway : c = s.me.coord ∨ s.hasCh s.me.ctx = true) (hroom : s.me.arch.msgs.sendb.length < 16) :
    completes (.post rel trig d a b tag g) s (fun t => t.cur.getM d = 0 ∧ keepsRegsBut d s.cur t.cur ∧ advances s.cur t.cur ∧
      (t.arch s.fTask).msgs.sendb = s.me.arch.msgs.sendb ++ [s.postEnt rel trig b tag c]) := by
  refine ⟨_, (exec_post hr hc hway).trans (by rw [if_neg (by omega)]), ?_⟩
  obtain ⟨hval, hregs, -, -, hadv, -, -⟩ := writesM_retire
    (s.updMsgs s.fTask (fun q => { q with sendb := q.sendb ++ [s.postEnt rel trig b tag c] })) d 0 hr.1 (post_dest_lt hr)
  rw [cur_updMsgs] at hregs hadv
  exact ⟨hval, hregs, hadv, by rw [msgs_retire, arch_updMsgs_same]; rfl⟩

end

/-- Settles O16: a POST faults, answers 1 or enters its entry, and a RECV finds the oldest message of its tag or none. -/
theorem postAndRecvMoveMessages : Obligations.PostAndRecvMoveMessages := by
  intro s rel trig nw acq d a b tag src g k wanted
  have hw : wanted = s.cur.tagOf src := by
    cases src with
    | reg r => exact (tagOf_reg s.cur r).symm
    | imm v => rfl
  rw [hw]
  refine ⟨fun c hr hc hway hfull => ?full, fun c hr hc hway hroom => ?room, fun m pre post hr hbox hm hpre hnx => ?takes,
    fun m pre post hr hk hbox hm hpre h63 hnx => ?otherNx, fun hr hk hc => ?nowhere, fun c hr hk hc hne hch => ?noChannel,
    fun hr hno hnw => ?saysNone, fun hr hno hnw hk => ?waits⟩
  case full => exact ⟨_, (exec_post hr hc hway).trans (by rw [if_pos hfull]), writesM_retire s d 1 hr.1 (post_dest_lt hr)⟩
  case room =>
    obtain ⟨t, hexec, hval, hregs, hadv, hsendb⟩ := post_enters hr hc hway hroom
    exact ⟨t, hexec, hval, hregs, hadv, _, hsendb, rfl, rfl, rfl, rfl, rfl, rfl, by cases rel <;> rfl⟩
  case takes =>
    refine ⟨_, (exec_recv_some hr hbox hm hpre).trans (by rw [if_neg (fun h => hnx.elim h.1 h.2)]), ?_⟩
    simp only [cur_retire_takeMsg hr.1, msgs_retire]
    refine ⟨?_, fun r hne => ?_, rfl, receive_says s.cur acq nw d b m, ⟨rfl, rfl, rfl⟩, mailbox_takeMsg hbox hm hpre, rfl, fun _ => rfl⟩
    · exact (getM_setM s.cur d d _ (recv_dest_lt hr)).trans (if_pos rfl)
    · exact (getM_setM s.cur d r _ (recv_dest_lt hr)).trans (if_neg (Ne.symm hne))
  case otherNx =>
    obtain ⟨hfault, hmsgs⟩ := fault_takeMsg hr.1 hk (s.cur.tagOf src) 0x0D 0 (by decide)
    exact ⟨_, (exec_recv_some hr hbox hm hpre).trans (by rw [if_pos ⟨h63, hnx⟩]), hfault,
      (congrArg Msgs.mailbox hmsgs).trans (mailbox_takeMsg hbox hm hpre)⟩
  case nowhere => exact completes_fault hr.1 hk (by decide) (exec_post_refused hr hc)
  case noChannel => exact completes_fault hr.1 hk (by decide) (exec_post_no_channel hr hc hne hch)
  case saysNone =>
    refine ⟨_, (exec_recv_none hr hno).trans (by rw [if_pos hnw]), ?_⟩
    simp only [cur_retire _ _ hr.1]
    refine ⟨?_, ?_, advances_advance _, onlySlot_retire _ _⟩
    · exact (getM_setM s.cur d d 0 (recv_dest_lt hr)).trans (if_pos rfl)
    · rw [advance_getP, getP_setP, if_pos rfl]
  case waits =>
    exact ⟨_, (exec_recv_none hr hno).trans (by rw [if_neg (by simp [hnw])]),
      waitsFor_noteMsgWait (waitsFor_waitAt s _ _ hr.1 hk)⟩

end Sys2Proof.Machine

/-! SUPPORT. Encodings: the words of an instruction and back, and heads whose predicate is 0. -/
namespace Sys2Proof.Decode
open Sys2Proof Sys2Proof.Machine Sys2Proof.WellFormed

/-! ### Operation codes (R136 to R138) -/

/-- Every operation stands in its list, at the place that is its code. -/
theorem getElem?_code :
    (∀ f, aluOps[code aluOps f]? = some f) ∧ (∀ f, aluiOps[code aluiOps f]? = some f) ∧ (∀ f, shOps[code shOps f]? = some f) ∧
    (∀ f, mulOps[code mulOps f]? = some f) ∧ (∀ f, divOps[code divOps f]? = some f) ∧ (∀ f, mmOps[code mmOps f]? = some f) ∧
    (∀ f, bitOps[code bitOps f]? = some f) ∧ (∀ f, cmpOps[code cmpOps f]? = some f) ∧ (∀ f, plogOps[code plogOps f]? = some f) ∧
    (∀ f, idSels[code idSels f]? = some f) ∧ (∀ f, ldWs[code ldWs f]? = some f) ∧ (∀ f, stWs[code stWs f]? = some f) ∧
    (∀ f, alogOps[code alogOps f]? = some f) ∧ (∀ t, laneTs[code laneTs t]? = some t) ∧ (∀ o, ovfs[code ovfs o]? = some o) ∧
    (∀ f, vlogOps[code vlogOps f]? = some f) ∧ (∀ f, vshOps[code vshOps f]? = some f) ∧ (∀ f, vcmpOps[code vcmpOps f]? = some f) ∧
    (∀ f, vredOps[code vredOps f]? = some f) ∧ (∀ m, zipModes[code zipModes m]? = some m) ∧ (∀ f, packFs[code packFs f]? = some f) ∧
    (∀ f, barOps[code barOps f]? = some f) ∧ (∀ p, paths[code paths p]? = some p) ∧ (∀ c, qConds[code qConds c]? = some c) := by
  repeat' apply And.intro
  all_goals intro f; cases f <;> rfl

/-- The F field of an atomic is its ordering suffix, with its width above (R200). -/
theorem atomic_f : (∀ o, aOrds[code aOrds o % 4]? = some o) ∧ ∀ o w, 4 ≤ code aOrds o + 4 * b01 w ↔ w = true := by
  constructor <;> intro o <;> cases o <;> decide

/-- The F field of RECV is its acquire bit, with its no-wait bit above (R279). -/
theorem recv_f : (∀ acq, b01 acq % 2 = 1 ↔ acq = true) ∧ ∀ acq nw, 2 ≤ b01 acq + 2 * b01 nw ↔ nw = true := by
  decide

theorem b01_lt_two (v : Bool) : b01 v < 2 := by cases v <;> decide
@[simp] theorem b01_eq_one (v : Bool) : (b01 v = 1) = (v = true) := by cases v <;> simp [b01]

/-- The mode of EZZST and the policy of TLOAD are the lowest two bits of the immediate, whatever selector stands above. -/
theorem getElem?_low_code (n : Nat) :
    (∀ m, zstModes[(n * 2048 + code zstModes m) % 4]? = some m) ∧ (∀ p, tPols[(n * 2048 + code tPols p) % 4]? = some p) := by
  have low : ∀ k < 4, (n * 2048 + k) % 4 = k := by omega
  constructor <;> intro m <;> rw [low] <;> cases m <;> decide

/-! ### Operands -/

@[simp] theorem reg_toNat (d : Reg) : reg d.toNat = d := by simp [reg]

@[simp] theorem selector_selOf (y : Option Reg) : selector (selOf y) = y := by
  cases y <;> simp [selector, selOf]

theorem selOf_lt (y : Option Reg) : selOf y < 32 := by
  cases y <;> simp only [selOf] <;> omega

/-- A guard is read back from a head with a tail (R124). -/
theorem guardOf_mk {g : Guard} (major d f a b fx imm : Nat) {tc : Nat} (htc : tc ≠ 0) (hg : tailed g = true) :
    guardOf ⟨major, tc, d, f, a, b, geOf g, gpOf g, fx, imm⟩ = g := by
  cases g <;> simp_all [guardOf, tailed, geOf, gpOf]

/-- A guard is read back from a head that may have no tail (R124). -/
theorem guardOf_mk_tcOf (g : Guard) (major d f a b fx imm : Nat) :
    guardOf ⟨major, tcOf g, d, f, a, b, geOf g, gpOf g, fx, imm⟩ = g := by
  cases g <;> simp [guardOf, tcOf, geOf, gpOf]

theorem guardOf_mk_tcSync {y : Sync} {g : Guard} (major d f a b fx imm : Nat) (h : syncGuard y g = true) :
    guardOf ⟨major, tcSync y (tcOf g), d, f, a, b, geOf g, gpOf g, fx, imm⟩ = g := by
  cases y with
  | short => exact guardOf_mk_tcOf ..
  | field => exact guardOf_mk _ _ _ _ _ _ _ (by simp [tcSync]) h

theorem tcImm_ne_zero (i : Imm) : tcImm i ≠ 0 := by cases i <;> simp [tcImm]
theorem tcSync_one_ne_zero (y : Sync) : tcSync y 1 ≠ 0 := by cases y <;> simp [tcSync]

/-- An immediate is read back from a head of its tail class (R122). -/
theorem immOf_mk (i : Imm) (major d f a b gp fx : Nat) (ge : Bool) :
    immOf ⟨major, tcImm i, d, f, a, b, ge, gp, fx, immVal i⟩ = i := by
  cases i <;> simp [immOf, tcImm, immVal]

theorem bits_selOf (y : Option Reg) {low : Nat} (h : low < 2048) : bits (selOf y * 2048 + low) 15 11 = selOf y := by
  have hy := selOf_lt y
  rw [bits_eq]; omega

/-- A sync selector is read back, whatever the form keeps in the bits below it (R245). -/
theorem syncOf_mk (y : Sync) (major d f a b gp fx : Nat) (ge : Bool) {short low : Nat} (hs : short ≠ 2) (h : low < 2048) :
    syncOf ⟨major, tcSync y short, d, f, a, b, ge, gp, fx, selSync y * 2048 + low⟩ = y := by
  cases y with
  | short => simp [syncOf, tcSync, hs]
  | field y => simp [syncOf, tcSync, selSync, bits_selOf y h]
/-- The same for a form that keeps nothing there. -/
theorem syncOf_mk_zero (y : Sync) (major d f a b gp fx : Nat) (ge : Bool) {short : Nat} (hs : short ≠ 2) :
    syncOf ⟨major, tcSync y short, d, f, a, b, ge, gp, fx, selSync y * 2048⟩ = y := by
  simpa using syncOf_mk y major d f a b gp fx ge hs (low := 0) (by decide)

theorem tcOf_ne_two (g : Guard) : tcOf g ≠ 2 := by cases g <;> simp [tcOf]

/-- BEXT and BINS keep their width above their offset (R136). -/
theorem bitField_imm (w o : BitVec 7) :
    BitVec.ofNat 7 (w.toNat * 128 + o.toNat) = o ∧ BitVec.ofNat 7 ((w.toNat * 128 + o.toNat) / 128) = w :=
  ⟨by bv_omega, by bv_omega⟩

/-- LDL keeps its line delta above its offset in the line (R195, R197). -/
theorem ldl_imm (l : BitVec 10) (o : BitVec 6) :
    BitVec.ofNat 10 ((l.toNat * 64 + o.toNat) / 64) = l ∧ BitVec.ofNat 6 (l.toNat * 64 + o.toNat) = o :=
  ⟨by bv_omega, by bv_omega⟩

/-- REP keeps its heads, its stride and its passes in one immediate (R238). -/
theorem rep_imm (h : BitVec 3) (st : BitVec 4) (p : BitVec 8) :
    let imm := p.toNat * 256 + st.toNat * 8 + h.toNat
    BitVec.ofNat 3 imm = h ∧ BitVec.ofNat 4 (imm / 8) = st ∧ BitVec.ofNat 8 (imm / 256) = p :=
  ⟨by bv_omega, by bv_omega, by bv_omega⟩

/-- EZPUSH and EZPOP keep their sync selector above their count (R266). -/
theorem count_imm (n : BitVec 11) (y : Option Reg) :
    BitVec.ofNat 11 (selOf y * 2048 + n.toNat) = n ∧ bits (selOf y * 2048 + n.toNat) 15 11 = selOf y :=
  ⟨by bv_omega, bits_selOf y n.isLt⟩

/-- POST keeps its trigger bit above its tag (R278). -/
theorem post_imm (trig : Bool) (t : BitVec 6) :
    (64 ≤ b01 trig * 64 + t.toNat ↔ trig = true) ∧ BitVec.ofNat 6 (b01 trig * 64 + t.toNat) = t := by
  constructor
  · cases trig <;> simp [b01]; omega
  · bv_omega

/-- EZFMT keeps its code, palette, sparse bit and sync selector in one immediate (R266). -/
theorem ezfmt_imm (c : BitVec 4) (p : BitVec 2) (sp : Bool) (y : Option Reg) :
    let imm := selOf y * 2048 + b01 sp * 64 + p.toNat * 16 + c.toNat
    BitVec.ofNat 4 imm = c ∧ BitVec.ofNat 2 (imm / 16) = p ∧ bit imm 6 = sp ∧ bits imm 15 11 = selOf y := by
  have hy := selOf_lt y
  have hsp := b01_lt_two sp
  refine ⟨by bv_omega, by bv_omega, ?_, by rw [bits_eq]; omega⟩
  rw [bit, Nat.testBit_eq_decide_div_mod_eq, show (selOf y * 2048 + b01 sp * 64 + p.toNat * 16 + c.toNat) / 2 ^ 6 % 2 = b01 sp by omega]
  simp

/-- COPY keeps its third register above its sync selector (R252). -/
theorem copy_imm (c : Reg) (y : Option Reg) :
    (c.toNat * 268435456 + selOf y * 8388608) / 268435456 = c.toNat ∧ bits (c.toNat * 268435456 + selOf y * 8388608) 27 23 = selOf y := by
  have hy := selOf_lt y
  exact ⟨by omega, by rw [bits_eq]; omega⟩

/-! ### Fields and words (R121, R122) -/

/-- Every field is in its range, and the tail holds no more halfwords than its class says. -/
structure Raw.Fits (r : Raw) : Prop where
  major : r.major < 128
  tc : r.tc < 4
  d : r.d < 16
  f : r.f < 8
  a : r.a < 16
  b : r.b < 16
  gp : r.gp < 16
  fx : r.fx < 8
  tail : tailOf r < 2 ^ (16 * r.tc)

theorem headOf_lt {r : Raw} (h : r.Fits) : headOf r < 65536 := by
  obtain ⟨hm, htc, hd, hf, -⟩ := h
  unfold headOf; omega

/-- The fields are read back from the head and the tail that hold them. -/
theorem unpack_pack {r : Raw} (h : r.Fits) : unpack (headOf r) (tailOf r) = r := by
  obtain ⟨hm, htc, hd, hf, ha, hb, hgp, hfx, -⟩ := h
  have hge := b01_lt_two r.ge
  have hbit : bit (tailOf r) 7 = r.ge := by
    have : tailOf r / 2 ^ 7 % 2 = b01 r.ge := by unfold tailOf; omega
    rw [bit, Nat.testBit_eq_decide_div_mod_eq, this]
    simp
  simp only [unpack, hbit, bits_eq, Nat.shiftRight_eq_div_pow]
  congr 1 <;> simp only [headOf, tailOf] <;> omega

theorem two_pow_halves_succ (k : Nat) : 2 ^ (16 * (k + 1)) = 2 ^ 16 * 2 ^ (16 * k) := by
  rw [← Nat.pow_add]; congr 1; omega

/-- The number that the lowest `k` halfwords of `n` hold. -/
theorem ofHalves_halves (n k : Nat) :
    ofHalves ((List.range k).map (fun j => BitVec.ofNat 16 (n >>> (16 * j)))) = n % 2 ^ (16 * k) := by
  induction k generalizing n with
  | zero => simp [ofHalves, Nat.mod_one]
  | succ k ih =>
    have hshift : ∀ j, n >>> (16 * (j + 1)) = (n / 65536) >>> (16 * j) := fun j => by
      rw [Nat.mul_succ, Nat.add_comm, Nat.shiftRight_add, Nat.shiftRight_eq_div_pow n 16]
    rw [List.range_succ_eq_map, List.map_cons, List.map_map, ofHalves]
    simp only [Function.comp_def, hshift, ih (n / 65536), BitVec.toNat_ofNat]
    rw [two_pow_halves_succ, Nat.mod_mul, Nat.mul_comm (2 ^ 16)]
    rfl

/-! ### The fields of an instruction fit (R135 to R138) -/

theorem gpOf_lt (g : Guard) : gpOf g < 16 := by
  cases g <;> simp only [gpOf] <;> omega

/-- A code fits the field that holds it: F and FX have three bits, and modes and policies stand below a sync selector. -/
theorem code_lt :
    (∀ f, code aluOps f < 8) ∧ (∀ f, 2 + code aluiOps f < 8) ∧ (∀ f, code shOps f < 8) ∧ (∀ f, code mulOps f < 8) ∧ (∀ f, code divOps f < 8) ∧
    (∀ f, code mmOps f < 8) ∧ (∀ f, code bitOps f < 8) ∧ (∀ f, code cmpOps f < 8) ∧ (∀ f, code plogOps f < 8) ∧ (∀ f, code idSels f < 8) ∧
    (∀ f, code ldWs f < 8) ∧ (∀ f, code stWs f < 8) ∧ (∀ f, code alogOps f < 8) ∧ (∀ o w, code aOrds o + 4 * b01 w < 8) ∧
    (∀ t, code laneTs t < 8) ∧ (∀ o, code ovfs o < 8) ∧ (∀ f, code vlogOps f < 8) ∧ (∀ f, code vshOps f < 8) ∧ (∀ f, code vcmpOps f < 8) ∧
    (∀ f, code vredOps f < 8) ∧ (∀ f, code packFs f < 8) ∧ (∀ f, code barOps f < 8) ∧ (∀ p, code paths p < 8) ∧
    (∀ m, code zipModes m < 65536) ∧ (∀ m, code zstModes m < 2048) ∧ (∀ p, code tPols p < 2048) ∧ (∀ v, b01 v < 8) ∧
    (∀ v w, b01 v + 2 * b01 w < 8) := by
  repeat' apply And.intro
  all_goals intro f; cases f <;> decide

theorem toNat_lt : (∀ d : Reg, d.toNat < 16) ∧ (∀ l : BitVec 3, l.toNat < 8) ∧ (∀ p : BitVec 2, p.toNat < 8) :=
  ⟨fun d => d.isLt, fun l => l.isLt, fun p => by omega⟩

section
variable {major d f a b fx imm : Nat} {g : Guard}

theorem fits_rBare (hm : major < 128) (hd : d < 16) (hf : f < 8) : (rBare major d f g).Fits := by
  refine ⟨hm, ?_, hd, hf, Nat.zero_lt_succ _, Nat.zero_lt_succ _, gpOf_lt g, Nat.zero_lt_succ _, ?_⟩
  all_goals cases g <;> simp [rBare, tailOf, tcOf, geOf, gpOf, b01]
  omega

/-- A form with a tail fits when its fields do and its immediate fills no more than the halfwords above the lowest. -/
theorem fits_mk {k : Nat} (hi : imm < 2 ^ (16 * k)) (hk : k < 3) (hm : major < 128) (hd : d < 16) (hf : f < 8) (ha : a < 16) (hb : b < 16)
    (hx : fx < 8) : (Raw.mk major (k + 1) d f a b (geOf g) (gpOf g) fx imm).Fits := by
  have hgp := gpOf_lt g
  have hge := b01_lt_two (geOf g)
  refine ⟨hm, Nat.succ_lt_succ hk, hd, hf, ha, hb, hgp, hx, ?_⟩
  rw [two_pow_halves_succ]
  simp only [tailOf]; omega

theorem fits_r1 (hm : major < 128) (hd : d < 16) (hf : f < 8) (ha : a < 16) (hb : b < 16) (hx : fx < 8) :
    (r1 major d f a b fx g).Fits := fits_mk (k := 0) (by decide) (by decide) hm hd hf ha hb hx
theorem fits_r2 (hi : imm < 65536) (hm : major < 128) (hd : d < 16) (hf : f < 8) (ha : a < 16) (hb : b < 16) (hx : fx < 8) :
    (r2 major d f a b fx imm g).Fits := fits_mk (k := 1) hi (by decide) hm hd hf ha hb hx
theorem fits_r3 (hi : imm < 2 ^ 32) (hm : major < 128) (hd : d < 16) (hf : f < 8) (ha : a < 16) (hb : b < 16) (hx : fx < 8) :
    (r3 major d f a b fx imm g).Fits := fits_mk (k := 2) hi (by decide) hm hd hf ha hb hx
theorem fits_rImm {i : Imm} (hm : major < 128) (hd : d < 16) (hf : f < 8) (ha : a < 16) (hb : b < 16) (hx : fx < 8) :
    (rImm major d f a b fx i g).Fits := by
  cases i with
  | none => exact fits_r1 hm hd hf ha hb hx
  | i16 v => exact fits_r2 v.isLt hm hd hf ha hb hx
  | i32 v => exact fits_r3 v.isLt hm hd hf ha hb hx

/-- A sync form whose short form has a tail (R245). -/
theorem fits_rSync_tailed {y : Sync} {low : Nat} (hl : low < 2048) (hs : y = .short → low = 0)
    (hm : major < 128) (hd : d < 16) (hf : f < 8) (ha : a < 16) (hb : b < 16) : (rSync major d f a b low y 1 g).Fits := by
  cases y with
  | short => obtain rfl := hs rfl; exact fits_r1 hm hd hf ha hb (by decide)
  | field y => have := selOf_lt y; exact fits_r2 (by simp only [selSync]; omega) hm hd hf ha hb (by decide)

/-- A sync form whose short form has a tail only for its guard (R245). -/
theorem fits_rSync_bare {y : Sync} (hm : major < 128) (hd : d < 16) (hf : f < 8) : (rSync major d f 0 0 0 y (tcOf g) g).Fits := by
  cases y with
  | short => exact fits_rBare hm hd hf
  | field y => have := selOf_lt y; exact fits_r2 (by simp only [selSync]; omega) hm hd hf (by decide) (by decide) (by decide)

end

/-- The fields of every well-formed head fit. -/
theorem rawOf_fits {i : Instr} {r : Raw} (hok : WellFormed.ok i = true) (hr : rawOf i = some r) : r.Fits := by
  cases i with
  | nop => cases hr; exact fits_rBare (g := .bare) (by decide) (by decide) (by decide)
  | safept =>
    cases hr; exact fits_r3 (g := .always) (by omega) (by decide) (by decide) (by decide) (by decide) (by decide) (by decide)
  | rep =>
    cases hr; exact fits_r2 (g := .always) (by omega) (by decide) (by decide) (by decide) (by decide) (by decide) (by decide)
  | brx | stop | yield | fenceCore | id | pmov | pset | home | lrecv | lpeek | csyncSig | csyncWait | exch | bar | drain | cqst =>
    cases hr; apply fits_rBare <;> simp [toNat_lt, code_lt]
  | br | call | fetch | addi | alui | movi | cmpi | ld | st | ldp | stp | vld | vst =>
    cases hr; apply fits_rImm <;> simp [toNat_lt, code_lt]
  | callx | fetchReg | plog | pmovPw | alu | shf | mul | div | minmax | bitc | bextReg | binsReg | mkadr | mkrel | cmp | ldx | stx
  | aadd | alog | amm | aswp | spawn | go | barx | bara
  | vadd | vsub | vmul | vmin | vmax | vabs | vneg | vlog | vcmp | vdiv | vsqrt | vmulh | vavg | pdec | penc | pload | vshuf | vred | vdot
  | vmov | vmovQm | vmovMq | vsplat | vpack | vunpk | semrd | semini =>
    cases hr; apply fits_r1 <;> simp [toNat_lt, code_lt]
  | loop | rdsys | bext | bins | shfi | sel | ldl | acas | lsend | bind | unbind | rebind | barxNc | baraImm | vfma | vsel | vrot
  | vlaneExt | vlaneIns | ezqry | join | semw | sems =>
    cases hr; refine fits_r2 (by omega) ?_ ?_ ?_ ?_ ?_ ?_ <;> simp [toNat_lt, code_lt]
  | post rel trig =>
    have := b01_lt_two trig
    cases hr; refine fits_r2 (by omega) ?_ ?_ ?_ ?_ ?_ ?_ <;> simp [toNat_lt, code_lt]
  | movhi => cases hr; refine fits_r3 (by omega) ?_ ?_ ?_ ?_ ?_ ?_ <;> simp [toNat_lt]
  | recv _ _ _ t => cases t with
    | reg => cases hr; apply fits_r1 <;> simp [toNat_lt, code_lt]
    | imm => cases hr; refine fits_r2 (by omega) ?_ ?_ ?_ ?_ ?_ ?_ <;> simp [toNat_lt, code_lt]
  | vsh _ _ _ _ n => cases n with
    | reg => cases hr; apply fits_r1 <;> simp [toNat_lt, code_lt]
    | imm => cases hr; refine fits_r2 (by omega) ?_ ?_ ?_ ?_ ?_ ?_ <;> simp [toNat_lt, code_lt]
  | vcvt _ _ _ _ h => cases h with
    | none => cases hr; apply fits_r1 <;> simp [toNat_lt, code_lt]
    | some => cases hr; refine fits_r2 (by omega) ?_ ?_ ?_ ?_ ?_ ?_ <;> simp [toNat_lt, code_lt]
  | vzip _ m => cases m with
    | none => cases hr; apply fits_r1 <;> simp [toNat_lt, code_lt]
    | some => cases hr; apply fits_r2 <;> simp [toNat_lt, code_lt]
  | ezfmt _ _ _ sp y =>
    have := selOf_lt y
    have := b01_lt_two sp
    cases hr; refine fits_r2 (by omega) ?_ ?_ ?_ ?_ ?_ ?_ <;> simp [toNat_lt]
  | ezpush _ _ y | ezpop _ _ y =>
    have := selOf_lt y
    cases hr; refine fits_r2 (by omega) ?_ ?_ ?_ ?_ ?_ ?_ <;> simp [toNat_lt]
  | tload _ _ p y =>
    have := selOf_lt y
    have : code tPols p < 2048 := by simp [code_lt]
    cases hr; refine fits_r2 (by omega) ?_ ?_ ?_ ?_ ?_ ?_ <;> simp [toNat_lt]
  | copy _ _ _ _ y =>
    have := selOf_lt y
    cases hr; refine fits_r3 (by omega) ?_ ?_ ?_ ?_ ?_ ?_ <;> simp [toNat_lt]
  | ezmm | ezmms | ezring | ezzld | copy2 => cases hr; apply fits_rSync_tailed <;> simp [toNat_lt, code_lt]
  | ezzst _ _ m y =>
    have hraw : y = .short → code zstModes m = 0 := by
      rintro rfl
      simp only [WellFormed.ok, ne_eq, not_true_eq_false, decide_false, Bool.false_or, Bool.and_eq_true, decide_eq_true_eq] at hok
      rw [hok.2]; rfl
    cases hr; refine fits_rSync_tailed ?_ hraw ?_ ?_ ?_ ?_ ?_ <;> simp [toNat_lt, code_lt]
  | ezzclr | ezwf | ezchk => cases hr; apply fits_rSync_bare <;> simp [toNat_lt, code_lt]
  | _ => cases hr

/-! ### The instruction of the fields (R126, R135 to R138) -/

/-- The candidate for the fields of a well-formed head is the head, page by page of the majors. -/
theorem candidate_rawOf {i : Instr} {r : Raw} (hok : WellFormed.ok i = true) (hr : rawOf i = some r) : candidate r = some i := by
  cases i with
  | nop | br | brx | call | callx | loop | fetch | fetchReg | stop | yield | safept | rdsys | fenceCore | id | plog | pmov | pmovPw | pset =>
    cases hr
    simp [WellFormed.ok] at hok
    simp [candidate, cand0, rImm, r1, r2, rBare, guardOf_mk, guardOf_mk_tcOf, tcImm_ne_zero, immOf_mk, hok, getElem?_code]
  | alu | shf | mul | div | minmax | bitc | bext | bextReg | bins | binsReg | addi | shfi | movi | movhi | sel | mkadr | mkrel | cmp
  | cmpi =>
    cases hr
    simp [WellFormed.ok] at hok
    simp [candidate, cand1, rImm, r1, r2, r3, guardOf_mk, tcImm_ne_zero, immOf_mk, hok, getElem?_code, bitField_imm]
  | alui f =>
    have hf : ¬ 2 + code aluiOps f < 2 := by omega
    cases hr
    simp [WellFormed.ok] at hok
    change (if 2 + code aluiOps f < 2 then none else aluiOps[2 + code aluiOps f - 2]?.map _) = _
    rw [if_neg hf, Nat.add_sub_cancel_left]
    simp [rImm, guardOf_mk, tcImm_ne_zero, immOf_mk, hok, getElem?_code]
  | ld | st | ldl | ldp | stp | ldx | stx | aadd | alog | amm | aswp | acas =>
    cases hr
    simp [WellFormed.ok] at hok
    simp [candidate, cand2, rImm, r1, r2, guardOf_mk, tcImm_ne_zero, immOf_mk, hok, getElem?_code, atomic_f, ldl_imm]
  | spawn | go | home | lsend | lrecv | lpeek | csyncSig | csyncWait | post | bind | unbind | rebind | exch | bar | barx | barxNc
  | bara | baraImm =>
    cases hr
    simp [WellFormed.ok] at hok
    simp [candidate, cand3, rBare, r1, r2, guardOf_mk, guardOf_mk_tcOf, hok, getElem?_code, post_imm]
  | recv _ _ _ t => cases t with
    | reg | imm =>
      cases hr
      simp [WellFormed.ok] at hok
      simp [candidate, cand3, r1, r2, guardOf_mk, hok, recv_f]
  | vadd | vsub | vmul | vmin | vmax | vabs | vneg | vfma | vlog | vcmp | vsel | vdiv | vsqrt | vmulh | vavg =>
    cases hr
    simp [WellFormed.ok] at hok
    simp [candidate, cand4, r1, r2, guardOf_mk, hok, getElem?_code]
  | vsh _ _ _ _ n => cases n with
    | reg | imm =>
      cases hr
      simp [WellFormed.ok] at hok
      simp [candidate, cand4, r1, r2, guardOf_mk, hok, getElem?_code]
  | pdec | penc | pload | vshuf | vrot | vred | vdot | vld | vst | vmov | vmovQm | vmovMq | vsplat | vlaneExt | vlaneIns | rep | vpack | vunpk =>
    cases hr
    simp [WellFormed.ok] at hok
    simp [candidate, cand5, rImm, r1, r2, guardOf_mk, tcImm_ne_zero, immOf_mk, hok, getElem?_code, rep_imm]
  | vcvt _ _ _ _ h => cases h with
    | none | some =>
      cases hr
      simp [WellFormed.ok] at hok
      simp [candidate, cand5, r1, r2, guardOf_mk, hok, getElem?_code]
  | vzip _ m => cases m with
    | none | some =>
      cases hr
      simp [WellFormed.ok] at hok
      simp [candidate, cand5, r1, r2, guardOf_mk, hok, getElem?_code]
  | ezmm | ezmms | ezring | ezfmt | ezpush | ezpop | ezqry | ezzld | ezzst | ezzclr | ezwf | ezchk | copy | copy2 | tload | join | drain | cqst
  | semw | sems | semrd | semini =>
    cases hr
    simp [WellFormed.ok] at hok
    simp [candidate, cand6, rBare, rSync, r1, r2, r3, guardOf_mk, guardOf_mk_tcOf, guardOf_mk_tcSync, tcSync_one_ne_zero, syncOf_mk,
      syncOf_mk_zero, tcOf_ne_two, hok, getElem?_code, getElem?_low_code, code_lt, bits_selOf, ezfmt_imm, count_imm, copy_imm]
  | _ => cases hr

/-- What the decoder reads from fields is well formed and has exactly these fields (R126). -/
theorem decodeRaw_eq_ok {r : Raw} {i : Instr} (h : decodeRaw r = .ok i) : WellFormed.ok i = true ∧ rawOf i = some r := by
  unfold decodeRaw at h
  split at h
  · cases h
  · split at h
    · cases h
    · next hok =>
      split at h
      · cases h
      · next hraw => cases h; exact ⟨eq_true_of_ne_false hok, Decidable.not_not.mp hraw⟩

theorem decodeRaw_rawOf {i : Instr} {r : Raw} (hok : WellFormed.ok i = true) (hr : rawOf i = some r) : decodeRaw r = .ok i := by
  simp [decodeRaw, candidate_rawOf hok hr, hok, hr]

/-- The head and the tail of a well-formed head decode to it, and the tail has as many halfwords as its class says. -/
theorem decodeHead_encode {i : Instr} {r : Raw} (hok : WellFormed.ok i = true) (hr : rawOf i = some r) :
    ∃ h ts, encode i = some (h :: ts) ∧ ts.length = r.tc ∧ decodeHead h.toNat (ofHalves ts) = .ok i := by
  have hfit := rawOf_fits hok hr
  refine ⟨_, _, by rw [encode, hr], by simp, ?_⟩
  rw [ofHalves_halves, Nat.mod_eq_of_lt hfit.tail, BitVec.toNat_ofNat, Nat.mod_eq_of_lt (headOf_lt hfit), decodeHead, unpack_pack hfit]
  exact decodeRaw_rawOf hok hr

/-! ### Custom control-thread instructions (R139, R140) -/

@[simp] theorem xr_toNat (r : XReg) : xr r.toNat = r := by simp [xr]

theorem xreg_lt (r : XReg) : r.toNat < 32 := r.isLt

section
variable {f7 rs2 rs1 f3 rd op : Nat} (hf7 : f7 < 128) (hrs2 : rs2 < 32) (hrs1 : rs1 < 32) (hf3 : f3 < 8) (hrd : rd < 32) (hop : op < 128)
include hf7 hrs2 hrs1 hf3 hrd hop

/-- The fields are read back from a word of R139. -/
theorem dtWord_fields :
    let w := dtWord f7 rs2 rs1 f3 rd op
    bits w 31 25 = f7 ∧ bits w 24 20 = rs2 ∧ bits w 19 15 = rs1 ∧ bits w 14 12 = f3 ∧ bits w 11 7 = rd ∧ bits w 6 0 = op := by
  simp only [bits_eq, dtWord]
  omega

theorem dtWord_lt : dtWord f7 rs2 rs1 f3 rd op < 0x1_0000_0000 := by
  unfold dtWord; omega
end

theorem decodeDt_encodeDt {i : Instr} {w : Nat} (h : encodeDt i = some w) : decodeDt w = some i ∧ w < 0x1_0000_0000 := by
  cases i with
  | dtNxset nx => cases h; cases nx <;> decide
  | dtBcast | dtStart | dtMtstat | dtMtkill | dtMtwait | dtMtgo | dtCbar | dtLaunch | dtLaunchW | dtTrigger | dtJoink | dtPark | dtResume
  | dtLmigr | dtCaps | dtHarvest =>
    cases h
    simp [decodeDt, dtWord_fields, dtWord_lt, xreg_lt]
  | _ => cases h

theorem rawOf_of_encodeDt {i : Instr} {w : Nat} (h : encodeDt i = some w) : rawOf i = none := by
  cases i with
  | dtBcast | dtStart | dtMtstat | dtMtkill | dtMtwait | dtMtgo | dtCbar | dtLaunch | dtLaunchW | dtTrigger | dtJoink | dtPark | dtResume
  | dtLmigr | dtCaps | dtHarvest | dtNxset => rfl
  | _ => cases h

/-- The two halfwords of a custom word decode to the instruction. -/
theorem decodeDt_encode {i : Instr} {w : Nat} (h : encodeDt i = some w) :
    ∃ ws, encode i = some ws ∧ ws.length = 2 ∧ decodeDt (ofHalves ws) = some i := by
  obtain ⟨hdec, hlt⟩ := decodeDt_encodeDt h
  refine ⟨_, by rw [encode, rawOf_of_encodeDt h, h], rfl, ?_⟩
  have hw : ofHalves [BitVec.ofNat 16 w, BitVec.ofNat 16 (w >>> 16)] = w :=
    (ofHalves_halves w 2).trans (Nat.mod_eq_of_lt hlt)
  rw [hw, hdec]

/-! ### Queue records (R317) -/

/-- Every field of a record is in its range. -/
structure Rec.Fits (r : Rec) : Prop where
  op : r.op < 256
  fl : r.fl < 256
  a : r.a < 2 ^ 48
  b : r.b < 2 ^ 64

theorem packRec_lt {r : Rec} (h : r.Fits) : packRec r < 2 ^ 128 := by
  obtain ⟨hop, hfl, ha, hb⟩ := h
  unfold packRec; omega

theorem unpackRec_packRec {r : Rec} (h : r.Fits) : unpackRec (packRec r) = r := by
  obtain ⟨hop, hfl, ha, hb⟩ := h
  simp only [unpackRec, bits_eq]
  congr 1 <;> simp only [packRec] <;> omega

/-- QBAR keeps its second operand above its barrier number (R317). -/
theorem qbar_imm (bid n : BitVec 6) :
    BitVec.ofNat 6 (n.toNat * 256 + bid.toNat) = bid ∧ BitVec.ofNat 6 ((n.toNat * 256 + bid.toNat) / 256) = n :=
  ⟨by bv_omega, by bv_omega⟩

/-- Operands and codes of a record in their fields' ranges. -/
theorem record_lt :
    (∀ v : BitVec 48, v.toNat < 281474976710656) ∧ (∀ e : BitVec 11, e.toNat < 281474976710656) ∧
    (∀ b : Word, b.toNat < 18446744073709551616) ∧ (∀ c, code qConds c < 256) ∧ ∀ v, b01 v < 256 :=
  ⟨fun v => v.isLt, fun e => by omega, fun b => b.isLt, fun c => by cases c <;> decide, by decide⟩

/-- The fields of a record fit, and the record is the one they can belong to. -/
theorem candRec_recOf {i : Instr} {r : Rec} (h : recOf i = some r) : r.Fits ∧ candRec r = some i := by
  cases i with
  | nopq | semwait | semsig | semset | klaunch | kcopy | intr | jump | callq | retq | waitidle | stamp | fenceq =>
    cases h
    refine ⟨⟨?_, ?_, ?_, ?_⟩, ?_⟩
    all_goals simp [candRec, getElem?_code, record_lt]
  | qbar bid n =>
    cases h
    exact ⟨⟨by simp, by simp, by simp only; omega, by simp⟩, by simp [candRec, qbar_imm]⟩
  | _ => cases h

theorem not_head_of_recOf {i : Instr} {r : Rec} (h : recOf i = some r) : rawOf i = none ∧ encodeDt i = none := by
  cases i with
  | nopq | semwait | semsig | semset | klaunch | kcopy | qbar | intr | jump | callq | retq | waitidle | stamp | fenceq => exact ⟨rfl, rfl⟩
  | _ => cases h

/-- The eight halfwords of a record decode to it. -/
theorem decodeRec_encode {i : Instr} {r : Rec} (h : recOf i = some r) :
    ∃ ws, encode i = some ws ∧ ws.length = 8 ∧ decodeRec (ofHalves ws) = .ok i := by
  obtain ⟨hfit, hcand⟩ := candRec_recOf h
  obtain ⟨hraw, hdt⟩ := not_head_of_recOf h
  refine ⟨_, by rw [encode, hraw, hdt, h]; rfl, by simp, ?_⟩
  rw [ofHalves_halves, Nat.mod_eq_of_lt (packRec_lt hfit), decodeRec, unpackRec_packRec hfit, hcand]
  simp [h]

end Sys2Proof.Decode

namespace Sys2Proof.Machine
open Sys2Proof.Decode

/-- Settles O55: a head, a custom word and a record are each read back from the halfwords that the encoder writes. -/
theorem decodeEncodeAgree : Obligations.DecodeEncodeAgree := by
  unfold Obligations.DecodeEncodeAgree
  exact ⟨fun _ _ => decodeHead_encode, fun _ _ => decodeDt_encode, fun _ _ => decodeRec_encode⟩

/-- Settles O54: the decoders are evaluated on the words. -/
theorem decodedWords : Obligations.DecodedWords := by
  unfold Obligations.DecodedWords
  decide

/-! ### Heads whose predicate is 0 (R124) -/

theorem guardOf_eq_on {r : Raw} {p : Reg} (h : guardOf r = .on p) : r.ge = true ∧ reg r.gp = p := by
  unfold guardOf at h
  split at h
  · cases h
  · split at h
    · next hge => exact ⟨hge, Guard.on.inj h⟩
    · cases h

/-- The guard operand of a head whose fields name a predicate that is 0 does not hold. -/
theorem holds_of_guardOf_on {r : Raw} {p : Reg} {g : Guard} {x : Slot} (hr : guardOf r = .on p) (hge : r.ge = geOf g) (hgp : r.gp = gpOf g)
    (hp : x.getP p = false) : x.holds g = false := by
  obtain ⟨hon, hreg⟩ := guardOf_eq_on hr
  cases g with
  | bare | always => rw [hge] at hon; cases hon
  | on q =>
    rw [hgp] at hreg
    have hq : q = p := (reg_toNat q).symm.trans hreg
    exact hq ▸ hp

theorem easelHead_off (g : Guard) (l : State → List Letter) (k : State → State) (s : State) (h : s.cur.holds g = false) :
    easelHead g l k s = .next (s.retire id) := guarded_off _ _ _ h

/-- A head whose predicate is 0 only goes on to the next head. -/
theorem exec_of_guardOf_on {s : State} {i : Instr} {r : Raw} {p : Reg} (hr : rawOf i = some r) (hg : guardOf r = .on p)
    (hp : s.cur.getP p = false) : exec i s = .next (s.retire id) := by
  cases i with
  | nop | safept | rep => cases hr; cases hg
  | vadd | vsub | vmul | vmin | vmax | vabs | vneg | vfma | vlog | vcmp | vsel | vdiv | vsqrt | vmulh | vavg
  | pdec | penc | pload | vshuf | vrot | vred | vdot | vld | vst | vmov | vmovQm | vmovMq | vsplat | vlaneExt | vlaneIns | vpack | vunpk =>
    cases hr
    exact vector_off _ _ _ _ (holds_of_guardOf_on hg rfl rfl hp)
  | vsh _ _ _ _ n => cases n with
    | reg | imm => cases hr; exact vector_off _ _ _ _ (holds_of_guardOf_on hg rfl rfl hp)
  | vcvt _ _ _ _ h => cases h with
    | none | some => cases hr; exact vector_off _ _ _ _ (holds_of_guardOf_on hg rfl rfl hp)
  | vzip _ m => cases m with
    | none | some => cases hr; exact vector_off _ _ _ _ (holds_of_guardOf_on hg rfl rfl hp)
  | ezmm | ezmms => cases hr; unfold exec; exact easelHead_off _ _ _ _ (holds_of_guardOf_on hg rfl rfl hp)
  | ezfmt => cases hr; unfold exec; exact head_off _ _ _ _ (holds_of_guardOf_on hg rfl rfl hp)
  | recv _ _ _ t => cases t with
    | reg | imm => cases hr; unfold exec; exact guarded_off _ _ _ (holds_of_guardOf_on hg rfl rfl hp)
  | br | brx | call | callx | loop | fetch | fetchReg | stop | yield | rdsys | fenceCore | id | plog | pmov | pmovPw | pset
  | alu | shf | mul | div | minmax | bitc | bextReg | binsReg | addi | alui | shfi | movi | movhi | sel | mkadr | mkrel | cmp | cmpi
  | bext | bins | ldl | ld | st | ldp | stp | ldx | stx | aadd | alog | amm | aswp | acas
  | spawn | go | home | lsend | lrecv | lpeek | csyncSig | csyncWait | bind | unbind | rebind | exch | bar | barx | barxNc | bara | baraImm | post
  | ezring | ezqry | ezzld | ezzst | ezzclr | ezwf | ezchk | copy2 | tload | join | drain | cqst | semw | sems | semrd | semini
  | ezpush | ezpop | copy =>
    cases hr
    unfold exec
    exact guarded_off _ _ _ (holds_of_guardOf_on hg rfl rfl hp)
  | _ => cases hr

/-- Settles O56: a head whose predicate is 0 retires with nothing done, and the fields of NOP, SAFEPT and REP hold no predicate. -/
theorem guardedOffHeadHasNoEffect : Obligations.GuardedOffHeadHasNoEffect := by
  unfold Obligations.GuardedOffHeadHasNoEffect
  refine ⟨fun s i r p hslot hr hg hp => ?_, fun r p i hi hg => ?_, fun r h0 => if_pos h0⟩
  · refine ⟨s.retire id, exec_of_guardOf_on hr hg hp, writesNothing_retire s hslot, ?_⟩
    rw [cur_retire _ _ hslot]
    exact ⟨rfl, rfl⟩
  · obtain ⟨-, hr⟩ := decodeRaw_eq_ok hi
    refine ⟨?_, fun m => ?_, fun h st ps => ?_⟩ <;> rintro rfl <;> cases hr <;> cases hg

end Sys2Proof.Machine

/-! SUPPORT. BIND, UNBIND and REBIND; the engine semaphores and what waits on the engines. -/
namespace Sys2Proof.Machine

/-! ### Handler tags (R280, R281) -/

section
variable {s : State} {d : Reg} {tag : BitVec 6} {g : Guard}

theorem unpark_of_none {t : Nat} (h : (s.arch t).msgs.parking = []) : s.unpark t = s.updMsgs t (fun q => { q with parking := [] }) := by
  simp [State.unpark, h]

/-- A head leaves tag `i` with state `v`, gives the state the tag had, and changes no other tag. -/
def setsTag (s t : State) (d : Reg) (i : Nat) (v : TagSt) : Prop :=
  (t.arch s.fTask).msgs.tag i = v ∧ (∀ j < 64, j ≠ i → (t.arch s.fTask).msgs.tag j = s.me.arch.msgs.tag j) ∧
  (t.cur.getM d).toNat = (match s.me.arch.msgs.tag i with | .unbound => 0 | .bound _ => 1 | .rebinding => 2) ∧
  keepsRegsBut d s.cur t.cur ∧ advances s.cur t.cur ∧ sameBytes s t

theorem tag_code (v : TagSt) : (BitVec.ofNat 64 v.code).toNat = match v with | .unbound => 0 | .bound _ => 1 | .rebinding => 2 := by
  cases v <;> rfl

/-- With nothing parked, a tag that takes a state wakes no message. -/
theorem setTag_eq (hp : s.me.arch.msgs.parking = []) (i : Nat) (v : TagSt) : s.setTag d i v =
    (s.updMsgs s.fTask (fun q => { q with tags := vset q.tags i v, parking := [] })).retire
      (fun x => x.setM d (BitVec.ofNat 64 (s.me.arch.msgs.tag i).code)) := by
  have hp' : ((s.updMsgs s.fTask (fun q => { q with tags := vset q.tags i v })).arch s.fTask).msgs.parking = [] := by
    rw [arch_updMsgs_same]
    exact hp
  have hunpark : (s.updMsgs s.fTask (fun q => { q with tags := vset q.tags i v })).unpark s.fTask =
      s.updMsgs s.fTask (fun q => { q with tags := vset q.tags i v, parking := [] }) :=
    (unpark_of_none hp').trans (updArch_updArch s s.fTask _ _)
  exact congrArg (fun u : State => u.retire (fun x => x.setM d (BitVec.ofNat 64 (s.me.arch.msgs.tag i).code))) hunpark

theorem setsTag_setTag (h10 : s.fSlot < 10) (hd : d.toNat < 10) (hp : s.me.arch.msgs.parking = []) (v : TagSt) :
    setsTag s (s.setTag d tag.toNat v) d tag.toNat v := by
  have htag : ∀ j, ((s.setTag d tag.toNat v).arch s.fTask).msgs.tag j = if tag.toNat = j then v else s.me.arch.msgs.tag j := fun j => by
    rw [setTag_eq hp, msgs_retire, arch_updMsgs_same]
    exact vget_vset _ _ _ _ _ tag.isLt
  obtain ⟨hval, hregs, -, -, hadv, -, -, hmem⟩ := writesM_retire
    (s.updMsgs s.fTask (fun q => { q with tags := vset q.tags tag.toNat v, parking := [] })) d
    (BitVec.ofNat 64 (s.me.arch.msgs.tag tag.toNat).code) h10 hd
  rw [cur_updMsgs] at hregs hadv
  refine ⟨(htag _).trans (if_pos rfl), fun j _ hj => (htag j).trans (if_neg hj.symm), ?_⟩
  rw [setTag_eq hp, hval]
  exact ⟨tag_code _, hregs, hadv, hmem⟩

theorem completes_setTag {i : Instr} (hr : ready s i g) (hd : d.toNat < 10) (hp : s.me.arch.msgs.parking = []) {v : TagSt}
    (he : exec i s = .next (s.setTag d tag.toNat v)) : completes i s (fun t => setsTag s t d tag.toNat v) :=
  ⟨_, he, setsTag_setTag hr.1 hd hp v⟩

theorem bind_dest_lt {a : Reg} (hr : ready s (.bind d a tag g) g) : d.toNat < 10 := by
  have hok := hr.2.1
  simp only [WellFormed.ok, WellFormed.mOk, Bool.and_eq_true, decide_eq_true_eq] at hok
  obtain ⟨⟨⟨hd, -⟩, -⟩, -⟩ := hok
  exact hd

theorem unbind_dest_lt (hr : ready s (.unbind d tag g) g) : d.toNat < 10 := by
  have hok := hr.2.1
  simp only [WellFormed.ok, WellFormed.mOk, Bool.and_eq_true, decide_eq_true_eq] at hok
  obtain ⟨⟨hd, -⟩, -⟩ := hok
  exact hd

theorem rebind_dest_lt (hr : ready s (.rebind d tag g) g) : d.toNat < 10 := by
  have hok := hr.2.1
  simp only [WellFormed.ok, WellFormed.mOk, Bool.and_eq_true, decide_eq_true_eq] at hok
  obtain ⟨⟨hd, -⟩, -⟩ := hok
  exact hd

theorem exec_bind {a : Reg} (hr : ready s (.bind d a tag g) g) (hline : (s.cur.getM a).toNat < 2 ^ 56) (halign : (s.cur.getM a).toNat % 64 = 0) :
    exec (.bind d a tag g) s = .next (s.setTag d tag.toNat (.bound (s.cur.getM a))) := by
  have hhigh : bits (s.cur.getM a).toNat 63 56 = 0 := by rw [bits_eq]; omega
  have hlow : bits (s.cur.getM a).toNat 5 0 = 0 := by rw [bits_eq]; omega
  obtain ⟨-, -, hg⟩ := hr
  refine (show execBind d a tag g s = _ from guarded_on g _ s hg).trans ?_
  simp [hhigh, hlow]

end

/-- Settles O17: each of the three sets its tag through `setTag`, which with nothing parked changes no other tag. -/
theorem tagHeadsChangeOneTag : Obligations.TagHeadsChangeOneTag := by
  intro s d a tag g hp old sets
  refine ⟨fun hr hline halign => completes_setTag hr (bind_dest_lt hr) hp (exec_bind hr hline halign), fun hr => ?unbind, fun hr => ?rebind⟩
  case unbind => exact completes_setTag hr (unbind_dest_lt hr) hp (show execUnbind d tag g s = _ from guarded_on g _ s hr.2.2)
  case rebind => exact completes_setTag hr (rebind_dest_lt hr) hp (show execRebind d tag g s = _ from guarded_on g _ s hr.2.2)

/-! ### Engine semaphores (R246, R249 to R251) -/

theorem sem_setSem (e : Eng) (i j : Nat) (v : BitVec 16) : (e.setSem i v).sem j = if i = j then v else e.sem j := SMap.get_set ..

theorem eng_updEng_same (s : State) (t : Nat) (f : Eng → Eng) : (s.updEng t f).eng t = f (s.eng t) :=
  congrArg Arch.eng (arch_updArch_same s t _)

@[simp] theorem slot_updEng (s : State) (t u i : Nat) (f : Eng → Eng) : (s.updEng t f).slot u i = s.slot u i := by
  simp only [State.slot, State.updEng, arch_updArch]
  split
  · next h => subst h; rfl
  · rfl

theorem vget_map {α : Type} {n : Nat} (d : α) (v : Vector α n) (f : α → α) (i : Nat) (hd : f d = d) :
    vget d (v.map f) i = f (vget d v i) := by
  simp only [vget, Vector.getElem?_map]
  cases v[i]? <;> simp [hd]

/-- A slot whose registers and place in its line are as they were. -/
def keepsPlace (x y : Slot) : Prop := keepsRegs x y ∧ y.line = x.line

theorem keepsPlace_wakeSems (a : Arch) (i : Nat) : keepsPlace (a.slot i) (a.wakeSems.slot i) := by
  simp only [Arch.slot, Arch.wakeSems]
  rw [vget_map _ _ _ _ (by rfl)]
  split
  · split <;> exact ⟨⟨rfl, rfl, rfl⟩, rfl⟩
  · exact ⟨⟨rfl, rfl, rfl⟩, rfl⟩

/-- What `judge` does is to mark commands. -/
theorem judge_marks (a : Arch) (me : Coord) : ∃ f : List Cmd → List Cmd, a.judge me = a.updEng (fun e => { e with cmds := f e.cmds }) := by
  unfold Arch.judge
  split
  · exact ⟨id, rfl⟩
  · exact ⟨_, rfl⟩

section
variable (s : State) (t u : Nat)

theorem sem_semsMoved (j : Nat) : ((s.semsMoved t).eng u).sem j = (s.eng u).sem j := by
  unfold State.semsMoved
  split
  · obtain ⟨f, hf⟩ := judge_marks (s.arch t).wakeSems (s.task t).coord
    simp only [State.eng, arch_updArch]
    split
    · next h => rw [hf, h]; rfl
    · rfl
  · rfl

theorem keepsPlace_semsMoved (i : Nat) : keepsPlace (s.slot u i) ((s.semsMoved t).slot u i) := by
  unfold State.semsMoved
  split
  · obtain ⟨f, hf⟩ := judge_marks (s.arch t).wakeSems (s.task t).coord
    simp only [State.slot, arch_updArch]
    split
    · next h => rw [hf, ← h]; exact keepsPlace_wakeSems _ i
    · exact ⟨⟨rfl, rfl, rfl⟩, rfl⟩
  · exact ⟨⟨rfl, rfl, rfl⟩, rfl⟩

theorem semsMoved_frame : (s.semsMoved t).mem = s.mem ∧ (s.semsMoved t).fTask = s.fTask ∧ (s.semsMoved t).fSlot = s.fSlot := by
  unfold State.semsMoved
  split <;> exact ⟨rfl, rfl, rfl⟩

end

/-- `u` is `s` with `v` in semaphore `i` of the executing core, and in the executing slot the same registers and place in the line. -/
def putsSem (s u : State) (i : Nat) (v : BitVec 16) : Prop :=
  (∀ j, (u.eng s.fTask).sem j = if i = j then v else (s.eng s.fTask).sem j) ∧ keepsPlace s.cur u.cur ∧ u.mem = s.mem ∧
    u.fTask = s.fTask ∧ u.fSlot = s.fSlot

theorem keepsPlace.trans {x y z : Slot} (h : keepsPlace x y) (k : keepsPlace y z) : keepsPlace x z := by
  obtain ⟨⟨hm, hq, hpw⟩, hl⟩ := h
  obtain ⟨⟨km, kq, kpw⟩, kl⟩ := k
  exact ⟨⟨km.trans hm, kq.trans hq, kpw.trans hpw⟩, kl.trans hl⟩

/-- A semaphore that changes, with what waits on it judged before the change or not at all, and after it. -/
theorem putsSem_updEng {s u : State} {i : Nat} {v : BitVec 16} {f : Eng → Eng} (hsem : ∀ j, (u.eng s.fTask).sem j = (s.eng s.fTask).sem j)
    (hcur : keepsPlace s.cur u.cur) (hmem : u.mem = s.mem) (hT : u.fTask = s.fTask) (hS : u.fSlot = s.fSlot)
    (hf : f (u.eng s.fTask) = (u.eng s.fTask).setSem i v) : putsSem s ((u.updEng s.fTask f).semsMoved s.fTask) i v := by
  obtain ⟨fmem, fT, fS⟩ := semsMoved_frame (u.updEng s.fTask f) s.fTask
  refine ⟨fun j => ?_, hcur.trans ?_, fmem.trans hmem, fT.trans hT, fS.trans hS⟩
  · rw [sem_semsMoved, eng_updEng_same, hf, sem_setSem, hsem]
  · have hplace := keepsPlace_semsMoved (u.updEng s.fTask f) s.fTask u.fTask u.fSlot
    rw [slot_updEng] at hplace
    show keepsPlace u.cur (((u.updEng s.fTask f).semsMoved s.fTask).slot _ _)
    rw [fT, fS]
    exact hplace

/-- A head that changes one semaphore leaves the others, its registers and memory as they were. -/
def setsSem (s t : State) (i n : Nat) : Prop :=
  ((t.eng s.fTask).sem i).toNat = n ∧ (∀ j, j ≠ i → (t.eng s.fTask).sem j = (s.eng s.fTask).sem j) ∧ keepsRegs s.cur t.cur ∧
    advances s.cur t.cur ∧ sameBytes s t

theorem setsSem_retire {s u : State} {i : Nat} {v : BitVec 16} (h : putsSem s u i v) (h10 : s.fSlot < 10) :
    setsSem s (u.retire id) i v.toNat := by
  obtain ⟨hsem, ⟨hregs, hline⟩, hmem, hT, hS⟩ := h
  have heng : (u.retire id).eng s.fTask = u.eng s.fTask := eng_updSlot ..
  rw [setsSem, cur_retire _ _ (by rw [hS]; exact h10), heng]
  refine ⟨by rw [hsem, if_pos rfl], fun j hj => (hsem j).trans (if_neg hj.symm), hregs, ?_, sameBytes_of_mem hmem⟩
  have himg : u.cur.line.img = s.cur.line.img := congrArg LineSt.img hline
  exact ⟨congrArg (fun l : LineSt => l.next + 1) hline, himg, rfl⟩

/-! ### Heads that read or wait (R251, R261, R262, R267) -/

section
variable {s : State} {i : Instr} {d : Reg} {g : Guard}

theorem semrd_dest_lt {a : Reg} (hr : ready s (.semrd d a g) g) : d.toNat < 10 := by
  have hok := hr.2.1
  simp only [WellFormed.ok, WellFormed.mOk, Bool.and_eq_true, decide_eq_true_eq] at hok
  obtain ⟨⟨hd, -⟩, -⟩ := hok
  exact hd

theorem cqst_dest_lt (hr : ready s (.cqst d g) g) : d.toNat < 10 := by
  have hok := hr.2.1
  simpa only [WellFormed.ok, WellFormed.mOk, decide_eq_true_eq] using hok

theorem ezqry_dest_lt {k : BitVec 3} (hr : ready s (.ezqry d k g) g) : d.toNat < 10 := by
  have hok := hr.2.1
  simp only [WellFormed.ok, WellFormed.mOk, Bool.and_eq_true, decide_eq_true_eq] at hok
  obtain ⟨hd, -⟩ := hok
  exact hd

theorem writesNothing_retireOrd (h : s.fSlot < 10) : writesNothing s (s.retireOrd id) := by
  refine ⟨?_, ?_, ?_, ?_, ?_, onlySlot_retire _ _⟩ <;> rw [State.retireOrd, cur_retire _ _ h]
  · rfl
  · rfl
  · rfl
  · exact ⟨⟨rfl, rfl, rfl, rfl, rfl, rfl, rfl, rfl⟩, rfl⟩
  · exact ⟨rfl, rfl, rfl⟩

theorem completes_retireOrd (hr : ready s i g) (he : exec i s = .next (s.retireOrd id)) : completes i s (fun t => writesNothing s t) :=
  ⟨_, he, writesNothing_retireOrd hr.1⟩

theorem cur_waitAt (s : State) (w : Wr) (c : Cond) (h10 : s.fSlot < 10) (hk : s.cur.kill = none) :
    (s.waitAt w c).cur = { s.cur with st := .waiting, wr := w, cond := c, since := s.now } := by
  have hcur : (s.updCur (fun x => { x with st := .waiting, wr := w, cond := c, since := s.now })).slot s.fTask s.fSlot =
      { s.cur with st := .waiting, wr := w, cond := c, since := s.now } := cur_updCur _ _ h10
  have hslot : (s.waitAt w c).slot s.fTask s.fSlot = _ :=
    (settle_of_no_kill _ s.fTask s.fSlot (by rw [hcur]; exact hk)).1 s.fTask s.fSlot
  rw [← hcur, ← hslot, State.waitAt, settle_eq _ _ _ (by rw [hcur]; exact hk)]
  rfl

/-- A JOIN or DRAIN that waits keeps the cut of its first issue (R261). -/
theorem completes_waitCut {c : Cond} (hr : ready s i g) (hk : s.cur.kill = none) (cut : List Nat)
    (he : exec i s = .next ((s.updCur (fun x => { x with cut := some cut })).waitAt .levelCopy c)) :
    completes i s (fun t => waitsFor s t .levelCopy c ∧ t.cur.cut = some cut) := by
  have hcur : (s.updCur (fun x => { x with cut := some cut })).cur = { s.cur with cut := some cut } := cur_updCur _ _ hr.1
  have hwait := waitsFor_waitAt (s.updCur (fun x => { x with cut := some cut })) .levelCopy c hr.1 (by rw [hcur]; exact hk)
  rw [waitsFor, hcur] at hwait
  exact ⟨_, he, hwait, (congrArg Slot.cut (cur_waitAt (s.updCur _) _ c hr.1 (by rw [hcur]; exact hk))).trans (congrArg Slot.cut hcur)⟩

end

theorem ringQuery_lt (r : Ring) : r.query < 2 ^ 64 := by
  have hb : b01 r.sparse ≤ 1 := by cases r.sparse <;> decide
  unfold Ring.query
  omega

theorem ringQuery_eq (r : Ring) : r.query = r.head % 2 ^ 10 + r.count % 2 ^ 11 * 2 ^ 10 + r.fmt % 16 * 2 ^ 21 + r.pal % 4 * 2 ^ 25 +
    (if r.sparse then 2 ^ 27 else 0) := by
  unfold Ring.query
  cases r.sparse <;> rfl


/-- Settles O26: a change of a semaphore judges what waits on it and moves nothing else; a head that waits keeps its cut, and a query reads. -/
theorem semaphoresAndEngineWaits : Obligations.SemaphoresAndEngineWaits := by
  intro s d a k v mask p g e sem i r others
  have hidx : ∀ r, s.semIdx r = (s.cur.getM r).toNat % 256 := fun r => (bits_eq _ _ _).trans (by simp)
  refine ⟨fun hr => ?sems, fun hr => ?semini, fun hr => ?semrd, fun hr hle => ?passes, fun hr hlt hk => ?waits, fun hr hj => ?joined,
    fun hr hj hk => ?joins, fun hr hp => ?drained, fun hr hp hk => ?drains, fun hr => ?cqst, fun hr => ?ezqry⟩
  case sems =>
    have hput : putsSem s _ (s.semIdx d) _ := putsSem_updEng (u := s) (f := fun e => e.addSem (s.semIdx d) v.toNat) (fun _ => rfl)
      ⟨⟨rfl, rfl, rfl⟩, rfl⟩ rfl rfl rfl rfl
    refine ⟨_, (show execSems d v g s = _ from guarded_on g _ s hr.2.2), ?_⟩
    have hset := setsSem_retire hput hr.1
    have hmin : min (sem i + v.toNat) 0xFFFF % 2 ^ 16 = min (sem i + v.toNat) 0xFFFF := Nat.mod_eq_of_lt (by omega)
    rw [BitVec.toNat_ofNat, hidx] at hset
    rw [hidx, ← hmin]
    exact hset
  case semini =>
    obtain ⟨fmem, fT, fS⟩ := semsMoved_frame s s.fTask
    have hcur : keepsPlace s.cur (s.semsMoved s.fTask).cur := by
      show keepsPlace _ ((s.semsMoved s.fTask).slot _ _)
      rw [fT, fS]
      exact keepsPlace_semsMoved s s.fTask s.fTask s.fSlot
    have hput := putsSem_updEng (f := fun e => e.setSem (s.semIdx d) ((s.cur.getM a).setWidth 16)) (sem_semsMoved s s.fTask s.fTask)
      hcur fmem fT fS rfl
    refine ⟨_, (show execSemini d a g s = _ from guarded_on g _ s hr.2.2), ?_⟩
    have hset := setsSem_retire hput hr.1
    rw [hidx, BitVec.toNat_setWidth] at hset
    exact hset
  case semrd =>
    refine ⟨_, (show execSemrd d a g s = _ from guarded_on g _ s hr.2.2), _, ?_, writesM_retire s d _ hr.1 (semrd_dest_lt hr)⟩
    rw [hidx, BitVec.toNat_setWidth]
    exact Nat.mod_eq_of_lt (by omega)
  case passes =>
    refine completes_retireOrd hr ((show execSemw d v g s = _ from guarded_on g _ s hr.2.2).trans ?_)
    rw [hidx, if_pos hle]
  case waits =>
    refine ⟨_, (show execSemw d v g s = _ from guarded_on g _ s hr.2.2).trans ?_, waitsFor_waitAt s _ _ hr.1 hk⟩
    rw [hidx, if_neg (Nat.not_le.2 hlt)]
  case joined => exact completes_retireOrd hr ((show execJoin mask g s = _ from guarded_on g _ s hr.2.2).trans (by rw [if_pos hj]))
  case joins =>
    refine completes_waitCut hr hk _ ((show execJoin mask g s = _ from guarded_on g _ s hr.2.2).trans ?_)
    rw [if_neg (by rw [hj]; decide)]
  case drained => exact completes_retireOrd hr ((show execDrain p g s = _ from guarded_on g _ s hr.2.2).trans (by rw [if_pos hp]))
  case drains =>
    refine completes_waitCut hr hk _ ((show execDrain p g s = _ from guarded_on g _ s hr.2.2).trans ?_)
    rw [if_neg (by rw [hp]; decide)]
  case cqst => exact ⟨_, (show execCqst d g s = _ from guarded_on g _ s hr.2.2), writesM_retire s d _ hr.1 (cqst_dest_lt hr)⟩
  case ezqry =>
    refine ⟨_, (show execEzqry d k g s = _ from guarded_on g _ s hr.2.2), _, ?_, writesM_retire s d _ hr.1 (ezqry_dest_lt hr)⟩
    rw [BitVec.toNat_ofNat, Nat.mod_eq_of_lt (ringQuery_lt _), ringQuery_eq]

end Sys2Proof.Machine

/-! SUPPORT. Two statements that speak of every state fail at one whose table lists a key twice. -/
namespace Sys2Proof.Machine

/-! ### A barrier instance that is passed twice (R372, R381) -/

/-- An instance of level 1 of group 0 whose only member is task 0. -/
def loneInst : Inst := Inst.new 0 1 0 [0]

/-- Its member has arrived, a byte is pending and its watchdog has nothing left: OPEN it does not expire, DRAINING it does. -/
def spentInst : Inst := { loneInst with arrived := [(0, none)], pend := 1, wdLimit := 1, wdCount := 1 }

/-- Group 0, of rollback level 2. -/
def loneGroup : Group :=
  { kernel := 0, gidx := 0, top := 2, tasks := [0], placedAt := 0, prio := 0, order := 0, rbcnt := 0, nr := false, rolling := false,
    reads := [], writes := [], podSeq := none, podRest := [], restSent := false, complete := false, killed := false }

/-- The arrival of task 0 at level 1 has come to its root. -/
def loneArrival : Packet := Packet.new ⟨0, 0, 0⟩ (rootCoord 1) 18 0 0 (.arrival 0 1 none none)

/-- The head of task 0 waits on level 1, its arrival is the last one of its instance, and the table lists another instance of its level twice. -/
def instListedTwice : State :=
  { State.reset.updSlot 0 0 (fun x => { x with st := .waiting, wr := .barrier, cond := .barrier 1 }) with
    groups := [(0, loneGroup)], net := [loneArrival], insts := [(0, spentInst), (0, spentInst), (instKey 0 1 0, loneInst)] }

/-- The first entry makes the instance drain, the second one expires it before the last arrival completes the level: the head has faulted. -/
theorem instListedTwice_head_faults : ∃ u, exec (.barrierArrival 0) instListedTwice = .next u ∧ (u.slot 0 0).barEnd = none :=
  ⟨_, rfl, by decide +kernel⟩

/-- No instance of the table beside that of the arrival has expired or can complete before it. -/
theorem instListedTwice_calm : ∀ e ∈ instListedTwice.insts, e.1 ≠ instKey 0 1 0 → e.2.expired = false ∧ (e.2.live = true → e.2.full = true → 0 < e.2.pend) := by
  decide +kernel

/-- The arrival reaches an instance that takes it, and its task is the only member. -/
theorem loneArrival_last :
    loneArrival.body = .arrival 0 1 none none ∧ (loneArrival.lost = false ∧ loneInst.expired = false ∧ loneInst.live = true) ∧
      (∀ (o : BarOp) (v : Option Word), none = some (o, v) → loneInst.operator = none ∨ loneInst.operator = some o) ∧ loneInst.level = 1 ∧ 1 ≤ 1 ∧ 1 < 4 ∧
      loneInst.members ≠ [] ∧ ∀ u ∈ loneInst.members, u = 0 ∨ ∃ e ∈ loneInst.arrived, e.1 = u :=
  ⟨rfl, by decide, by simp, rfl, by decide, by decide, by decide, by decide⟩

/-- Refutes O47: where the table lists another instance twice, the pass over it lets that one drain and then expire before the last arrival completes its own, and the head that waits on the level faults and does not return. -/
theorem not_barrierAndRollbackEvents : ¬ Obligations.BarrierAndRollbackEvents := by
  unfold Obligations.BarrierAndRollbackEvents
  intro h
  obtain ⟨-, -, -, hroot, -⟩ := h instListedTwice 0 1 0 0 0 (instKey 0 1 0) 0 loneArrival loneInst loneGroup Arch.reset ⟨none, none, [], []⟩ none
  obtain ⟨-, -, hlast, -⟩ := hroot (by decide +kernel) (by decide +kernel) (by decide +kernel)
  obtain ⟨u, hu, -, hreturns⟩ := hlast loneArrival_last (by decide) instListedTwice_calm (by decide) (by decide)
  obtain ⟨u', hu', hend⟩ := instListedTwice_head_faults
  obtain rfl : u = u' := Host.Outcome.next.inj (hu.symm.trans hu')
  obtain ⟨-, hret⟩ := hreturns 0 (by decide)
  have hdone := hret 0 (by decide) (by decide +kernel) (by decide +kernel)
  rw [hend] at hdone
  cases hdone

/-! ### A page that is listed twice (R404, R415) -/

/-- Page 64 is being staged into pool frame 65536, for a STAGE that holds it. -/
def stagedPage : Resid := { Resid.blank with st := .staging, frame := 65536, holds := [.stage 0] }

/-- Page 64 is told to leave, in an entry that does not count. -/
def leavingPage : Resid := { Resid.blank with st := .resident, frame := 65536, leaving := true }

/-- The table lists page 64 twice: first in staging, then as a page to leave. -/
def pageListedTwice : State :=
  { State.reset with pg := { State.reset.pg with resid := [(64, stagedPage), (64, leavingPage)], jobs := [.stage 0 [64] 0 0] } }

/-- The STAGE is over when the page has been staged; its hold ends, and by the second entry the page leaves. -/
theorem pageListedTwice_page_leaves : ∃ u, exec (.stagingDone 64) pageListedTwice = .next u ∧ (u.resid 64).st = .home :=
  ⟨_, rfl, by decide +kernel⟩

/-- Refutes O49: where the table lists the staged page a second time as one that leaves, the end of a STAGE sends it home at the event that made it resident, though its first entry is not leaving. -/
theorem not_pageEvents : ¬ Obligations.PageEvents := by
  unfold Obligations.PageEvents
  intro h
  obtain ⟨-, -, -, -, -, -, -, -, -, -, -, -, -, -, hstaged, -⟩ := h pageListedTwice 0 0 64 0 0 0 0 0 [] ⟨⟨0, 0, 0⟩, 0, 0, 0, 0, 0⟩
  obtain ⟨u, hu, hres, -⟩ := hstaged (by decide +kernel) (by decide +kernel) (by decide +kernel) (by decide +kernel)
  obtain ⟨u', hu', hhome⟩ := pageListedTwice_page_leaves
  obtain rfl : u = u' := Host.Outcome.next.inj (hu.symm.trans hu')
  rw [hhome] at hres
  cases hres

end Sys2Proof.Machine
